-- ==== Sys2Proof/Word.lean ====
section
/-! DEFINITION. The words of the block, and the two containers its state is made of: a keyed map and a byte memory. -/

namespace Sys2Proof

/-- A byte of a memory, packet or image. -/
abbrev Byte := BitVec 8

/-- A 32-bit word: a register, an instruction word, a packed address, an FP32 bit pattern. -/
abbrev Word := BitVec 32

/-- A 64-bit count, such as a value of the timebase (R15). -/
abbrev U64 := BitVec 64

/-- A finite map from numbers to records, its keys strictly rising. -/
structure Map (α : Type) where
  entries : List (Nat × α) := []
deriving DecidableEq, Repr

/-- The map that lists nothing. -/
def Map.empty {α : Type} : Map α := { entries := [] }

/-- A byte memory in canonical form: addresses strictly rising, no listed byte equal to 0, which is what an unlisted
address reads as. -/
structure Memory where
  cells : List Host.Cell := []
deriving DecidableEq, Repr

end Sys2Proof
end

