-- ==== Sys2Proof/Syntax.lean ====
section
/-! DEFINITION. The commands and events of the block: one constructor of Instr for every row of spec/opcode_table.json,
with the row's operands, and the records that packets carry. -/

namespace Sys2Proof

/-- A core by field number and core within the field (R8, R9). -/
structure CoreRef where
  field : Nat
  core  : Nat
deriving DecidableEq, Repr

/-- The parts of a command packet's header (Table 11-6) that its meaning reads, and the connector it came by (0 A, 1 B). -/
structure Hdr where
  conn      : Nat
  cmdTag    : Word
  partition : BitVec 6
  reqTag    : Word
  length    : Nat
deriving DecidableEq, Repr

/-- Table 7-2: the request descriptor. -/
structure Desc where
  cls              : BitVec 8 := 0
  deadlineContinue : Bool := false
  draftAdapt       : Bool := false
  ship             : Bool := false
  edition          : BitVec 16 := 0
  steer            : Word := 0xFFFFFFFF
  deadline         : U64 := 0
  promptLen        : Word := 0
  maxLen           : Word := 0
  ringBase         : U64 := 0
  ringEntries      : Word := 0
  draftDepth       : BitVec 8 := 0
  grammar          : BitVec 16 := 0xFFFF
  seed             : U64 := 0
  temperature      : Word := 0
  topP             : Word := 0
  topK             : BitVec 16 := 0
  mask             : U64 := 0xFFFFFFFFFFFFFFFF
  eos              : Vector Word 4 := Vector.replicate 4 0xFFFFFFFF
  promptOff        : U64 := 0
  shipTo           : U64 := 0
  cookie           : U64 := 0
deriving DecidableEq, Repr

/-- Table 7-4: a class record. -/
structure ClassRec where
  firstUs    : Word := 0
  betweenUs  : Word := 0
  priority   : BitVec 8 := 0
  replay     : BitVec 8 := 0
  guaranteed : Bool := false
deriving DecidableEq, Repr

/-- Table 12-1: a protection entry (`rights`: bit 0 weights, 1 serve, 2 memory, 3 debug, 4 fabric). -/
structure ProtEntry where
  valid        : Bool := false
  rights       : BitVec 8 := 0
  portShare    : BitVec 8 := 0
  stationShare : BitVec 8 := 0
  fireShare    : BitVec 8 := 0
  reqFirst     : Word := 0
  reqCount     : Word := 0
  steerFirst   : Word := 0
  steerCount   : Word := 0
  extents      : Vector (BitVec 16) 24 := Vector.replicate 24 0
  tenantKey    : BitVec 384 := 0
  imageKey     : BitVec 384 := 0
deriving DecidableEq, Repr

/-- Table 10-2: a port record. -/
structure PortRec where
  cls        : BitVec 8 := 0
  role       : BitVec 8 := 0
  peerMember : BitVec 8 := 0
  laneMask   : BitVec 8 := 0
  lengthDm   : BitVec 16 := 0
  maxVersion : BitVec 8 := 0
deriving DecidableEq, Repr

/-- Table 10-8: the route record. -/
structure RouteRec where
  moduleId    : BitVec 18 := 0
  memberBits  : BitVec 8 := 0
  l1Bits      : BitVec 8 := 0
  l2Bits      : BitVec 8 := 0
  l3Bits      : BitVec 8 := 0
  uplinks     : BitVec 32 := 0
  swNs        : BitVec 16 := 250
  taper1      : BitVec 8 := 64
  taper2      : BitVec 8 := 64
  taper3      : BitVec 8 := 64
  v1Partition : BitVec 8 := 0xFF
deriving DecidableEq, Repr

/-- Table 10-5: a fabric packet. `retries` is not in its header: how often each of its flits that failed its link CRC was sent again
before the packet arrived (R287). -/
structure FabPkt where
  version   : Nat := 0
  type      : Nat := 0
  poison    : Bool := false
  last      : Bool := false
  planned   : Bool := false
  epoch     : BitVec 8 := 0
  dst       : Nat := 0
  src       : Nat := 0
  job       : Nat := 0
  partition : Nat := 0
  seq       : Nat := 0
  ref       : Word := 0
  offset    : Nat := 0
  payload   : List Byte := []
  retries   : List Nat := []
deriving DecidableEq, Repr

/-- Table 11-1: a link frame; `crcOk` says whether its CRC-32C held. -/
structure Frame where
  stream       : Nat
  seq          : Word
  ack          : Word
  ackStream    : Nat
  creditStream : Nat
  credit       : Nat
  payload      : List Byte
  crcOk        : Bool
deriving DecidableEq, Repr

/-- Table 11-1: what a nak frame carries beside its stream: the number expected, an acknowledgement, credits, and whether its CRC holds. -/
structure NakHead where
  expected     : Word
  ack          : Word
  ackStream    : Nat
  creditStream : Nat
  credit       : Nat
  crcOk        : Bool
deriving DecidableEq, Repr

/-- Table 11-9: the parameters of SS_OPEN. -/
structure OpenParams where
  cmdMin    : BitVec 16
  cmdMax    : BitVec 16
  resume    : Bool
  standby   : Bool
  wallValid : Bool
  sessionId : U64
  wallTime  : U64
deriving DecidableEq, Repr

/-- Table 13-7: the parameters of MG_SELFTEST. -/
structure SelfTestParams where
  target : Word
  scope  : BitVec 8
  idle   : Bool
  tests  : BitVec 16
  stopAt : U64
deriving DecidableEq, Repr

/-- Table 15-4: the parameters of a DB_DIGEST_SET probe. -/
structure ProbeParams where
  probe       : BitVec 8
  kind        : BitVec 8
  flags       : BitVec 3
  layer       : BitVec 16
  core        : Word
  cAddr       : Word
  tag         : Word
  ringRecords : Word
  ring        : U64
deriving DecidableEq, Repr

/-- R126: the breakpoint and watch registers of one core. -/
structure WatchRegs where
  bp    : Vector Word 4
  wpLo  : Word
  wpHi  : Word
  wpCtl : Word
deriving DecidableEq, Repr

/-- R301: the parameters of a collective (`op`: 0 SUM, 1 MAX, 2 MIN, 3 AND, 4 OR, 5 XOR; `fmt`: 0 INT32, 1 FP32, 2 BF16). -/
structure ReduceParams where
  job     : Nat
  op      : Nat
  fmt     : Nat
  count   : Nat
  src     : Nat
  dst     : Nat
  all     : Bool
  planned : Bool
deriving DecidableEq, Repr

/-- R304, R305: the parameters of a multicast (`region` none: a shard for the target's build; `mask`: the ranks to send to,
none for every other member). -/
structure McastParams where
  job     : Nat
  length  : Nat
  src     : Nat
  region  : Option Nat
  mask    : Option (List Nat)
  timeout : Nat
  recAddr : Nat
deriving DecidableEq, Repr

/-- R366: what the tests of one field's bring-up found (Table 13-3). Sums are of 16 samples; the monitor and class-loop counts
are totals of 16 gates at each of the five setpoints, `classLoops` one for each class loop; `wireFails` lists (neighbour, byte lane, wire
of 10) that failed the test flits; `lineFails` lists (core, failing lines), `spareFails` (core, failing
spare lines of 16), `engineFails` (core, engines). -/
structure FieldProbe where
  bandgap0    : Nat
  bandgap1    : Nat
  ground      : Nat
  sensors     : List (Nat × Nat)
  railOk      : Bool
  wireFails   : List (Nat × Nat × Nat)
  classLoops  : List (List Nat)
  monitors    : List (List Nat)
  paceCounts  : List (List Nat)
  coreFails   : List Nat
  engineFails : List (Nat × List Nat)
  lineFails   : List (Nat × List Nat)
  spareFails  : List (Nat × List Nat)
deriving DecidableEq, Repr

/-- The control-core instructions of Table 4-3 with their operand fields (R106). -/
inductive CoreOp where
  | alu (f : BitVec 4) (rd ra rb : BitVec 5)
  | addi (rd ra : BitVec 5) (imm : BitVec 16)
  | andi (rd ra : BitVec 5) (imm : BitVec 16)
  | ori (rd ra : BitVec 5) (imm : BitVec 16)
  | xori (rd ra : BitVec 5) (imm : BitVec 16)
  | shi (rd ra : BitVec 5) (imm : BitVec 16)
  | lui (rd : BitVec 5) (imm : BitVec 16)
  | slti (rd ra : BitVec 5) (imm : BitVec 16)
  | load (k : BitVec 3) (rd ra : BitVec 5) (imm : BitVec 16)
  | store (k : BitVec 2) (rs ra : BitVec 5) (imm : BitVec 16)
  | branch (k : BitVec 3) (ra rb : BitVec 5) (off : BitVec 16)
  | jal (off : BitVec 26)
  | jalr (rd ra : BitVec 5) (imm : BitVec 16)
  | crd (rd : BitVec 5) (imm : BitVec 16)
  | cwr (ra : BitVec 5) (imm : BitVec 16)
  | cst (rd ra : BitVec 5) (imm : BitVec 16)
  | cld (rd ra : BitVec 5) (imm : BitVec 16)
  | issue (k : BitVec 2) (ra rb unit : BitVec 5) (cs : BitVec 9)
  | cpop (rd ra : BitVec 5)
  | wait (rd : BitVec 5) (imm : BitVec 16)
  | fence
  | wend
  | brk
deriving DecidableEq, Repr

/-- R274: a message of a field to the signal box: the field, and the hops of its way at which its CRC-16 failed. -/
structure FieldMsg where
  field : Nat
  retries : List Nat
deriving DecidableEq, Repr

/-- R274: a message of a core to an agent: the core, and the hops of its way at which its CRC-16 failed. -/
structure CoreMsg where
  core : CoreRef
  retries : List Nat
deriving DecidableEq, Repr

/-- R274: a copy between a core and the stacks: the core, and the bits, (byte, bit), that arrive flipped. -/
structure StackCopy where
  core : CoreRef
  flips : List (Nat × Nat)
deriving DecidableEq, Repr

/-- R274, R299: a packet that arrives at a station: its place among those on their way, the bits, (byte, bit), that arrive flipped,
and the places of the packets of its line that waited at stations it passed and were added to it. -/
structure EdgeMsg where
  place : Nat
  flips : List (Nat × Nat)
  merged : List Nat
deriving DecidableEq, Repr

/-- The 265 commands and events of spec/opcode_table.json, in its order. -/
inductive Instr where
  /-- DONE_REPORT (R21): A field that has finished all its window-n work sends its done report to the signal box on the reserved control class. `retries`: the hops of its way at which its CRC-16 failed (R274). -/
  | doneReport (f : FieldMsg)
  /-- WINDOW_RELEASE (R21): Once it holds every expected done report and the timebase has reached T(n+1), the signal box declares the boundary and broadcasts the release of window n+1. -/
  | windowRelease
  /-- BOUNDARY_HOLD (R23): The timebase reaches T(n+1) before every done report is in; the signal box holds the boundary and later moves every following planned boundary back. -/
  | boundaryHold
  /-- BOUNDARY_HOLD_LIMIT (R23): A single hold reaches 64,000 ns; the signal box declares the missing field failed and starts field-loss handling. -/
  | boundaryHoldLimit
  /-- HUNG_CORE (R393): A core with work has not sent its done contribution 16,000 ns after T(n+1); its station declares it hung, sends done-with-fault and fences the core. -/
  | hungCore (c : CoreRef)
  /-- PACE_MEASUREMENT (R29): Every 1,000 ns, each field's measured pace is updated from its kept monitors. -/
  | paceMeasurement (f : Nat) (counts : List Nat)
  /-- REPLAN (R240): At least every 1,000,000 ns the signal box replans: planning temperatures, floors, W, sleep choices and programming concurrency. -/
  | replan
  /-- FIELD_WAKE (R245): The wake of a sleeping field starts at the known event less the wake time less 1,000 ns. -/
  | fieldWake (f : Nat)
  /-- DARK_SCRUB_WAKE (R244): A field that has been in DARK for 60 s is woken to DIM for one scrub pass and then returned to DARK. -/
  | darkScrubWake (f : Nat)
  /-- CREDIT_REFILL (R37): Every 100 ns of timebase, each station adds floor(A/10) credits to its field's firing bucket, up to A, and releases engines waiting for credit. -/
  | creditRefill
  /-- GRANT_REBALANCE (R224): Every 100 ms, or after a change to the budget or to the set of holding fields, array grants are redistributed among the holding fields. -/
  | grantRebalance
  /-- THROTTLE_RECOVERY (R227): After 10 ms with no trigger, a low rate of rise and sensors at or below 85 °C, a field's throttle count is lowered by 1 at a boundary. -/
  | throttleRecovery (f : Nat)
  /-- CURRENT_TRIGGER (R226): The converter current averaged over 10 µs exceeds the planned limit; the field's throttle count rises by 1. -/
  | currentTrigger (f : Nat)
  /-- CONVERTER_FOLD_BACK (R226): The current exceeds the hard limit, and the converter holds it at that limit within 200 ns. -/
  | converterFoldBack (f : Nat)
  /-- FOLD_BACK_TIMEOUT (R226): A fold-back that lasts 2,000 ns starts isolation of the field. -/
  | foldBackTimeout (f : Nat)
  /-- SHORT_DETECT (R251): The converter comparator detects current above the hard limit, or the rail below 0.5 V while enabled. -/
  | shortDetect (f : Nat) (amps milli : Nat)
  /-- ISOLATION_CONFIRM (R251): At the end of the 2,000 ns confirm phase, a condition that persists turns the converter off and fences the field. -/
  | isolationConfirm (f : Nat) (persists : Bool)
  /-- FIELD_ISOLATED (R251): Once the fence completes, the field is declared isolated; the window fails for the sections affected, the ledger is committed and detours are loaded. -/
  | fieldIsolated (f : Nat)
  /-- STACK_FAILOVER (R257): Within 50 µs of an attach-field isolation, the stack's alternate link becomes active. -/
  | stackFailover (k : Nat)
  /-- FEED_POWER_OVER (R228): For each ms that module input power exceeds power_limit_w, R rises by 600 W. -/
  | feedPowerOver (watts : Nat)
  /-- FEED_LOW (R228): For each ms that the feed is below 48 V, R rises by 600 W and FEED_LOW is raised. -/
  | feedLow (milli : Nat)
  /-- BUDGET_RESTORE (R228): Every 100 ms while power and feed are back within limits, R falls by 600 W. -/
  | budgetRestore (watts milli : Nat)
  /-- BELFRY_ROUND (R235): A belfry round ends; its stamped results go to the signal box, which evaluates temperature and rate triggers. -/
  | belfryRound (f : Nat) (sums : List Nat)
  /-- HOT_SENSOR_STEP (R228): For each ms that a working sensor stays at 90 °C or above, t rises by 1. -/
  | hotSensorStep (f : Nat)
  /-- BLF_SW_START (R238): Writing start to blf_sw queues one software conversion, or discards it and counts it when 8 are already queued. -/
  | blfSwStart (h : Hdr) (f : Nat) (v : Word)
  /-- BELFRY_CONVERSION_REQUEST (R239): A control core's message of kind 0x20 to agent 0x02 queues a software conversion whose result goes to its scratchpad. -/
  | belfryConversionRequest (f : Nat)
  /-- SOFTWARE_CONVERSION_DONE (R238): A software conversion finishes; its result is written to blf_sw_res or to the posting core's result word. -/
  | softwareConversionDone (f : Nat) (sum : Nat)
  /-- URGENT_CONVERSION (R238): An urgent conversion requested by the converter or the signal box runs after the conversion already in progress. -/
  | urgentConversion (f : Nat) (channel avg shift sum : Nat)
  /-- AGE_ACCUMULATE (R161): Every second, AF(T) is added to each field's age accumulator. -/
  | ageAccumulate
  /-- REFRESH_OVERDUE (R168): Every 86,400 s that an array is past due and holds weights, REFRESH_OVERDUE is raised. -/
  | refreshOverdue (c : CoreRef) (e a : Nat)
  /-- TRIM_SAMPLE (R164): A trim sample of 256 REF_SAMPLE firings is taken, at least every 3,600 s, and gain and zero trims are fitted. -/
  | trimSample (c : CoreRef) (e a : Nat)
  /-- ENGINE_REFRESH (R170): An engine refresh by spare rotation starts: wear is charged, rows are sourced and programmed into the spare. -/
  | engineRefresh (c : CoreRef) (e : Nat)
  /-- REFRESH_SETTLE_DONE (R170): After 120 s of settling, the spare is re-verified and trimmed. -/
  | refreshSettleDone (c : CoreRef) (e : Nat) (bad : List (Nat × Nat × Nat))
  /-- ROW_REVERIFY (R143): No earlier than 120 s after a row was programmed, it is read back and programmed again if needed. -/
  | rowReverify (c : CoreRef) (e a : Nat) (row : Nat) (off stuck : List (Nat × Nat))
  /-- EDITION_READY (R145): An edition in VERIFYING has every row re-verified, repairs done and trims loaded, and becomes READY if its serving and pair records are valid. -/
  | editionReady (ed : Nat)
  /-- FORERUNNER_RELOAD (R156): The rows of a forerunner layer are loaded and programmed into the pool engines during its reload span. -/
  | forerunnerReload (ed layer : Nat)
  /-- LEDGER_COUNTER_COMMIT (R178): Age and powered-time counters are committed to the ledger at least every 60 s. -/
  | ledgerCounterCommit
  /-- LEDGER_SNAPSHOT (R179): Every 86,400 s, or when the journal is three-quarters full, a signed snapshot is written into the older slot. -/
  | ledgerSnapshot
  /-- SCRUB_PASS (R98): Background scrub reads scratchpad lines, rewrites any corrected line, and marks lines hard-failed. -/
  | scrubPass (c : CoreRef) (line : Nat)
  /-- LINE_REMAP_COPY_DONE (R99): The copy of a hard-failed scratchpad line to a spare line completes; the remap entry takes effect at the next release. -/
  | lineRemapCopyDone (c : CoreRef) (line : Nat)
  /-- PATROL (R270): Stack patrol reads every codeblock of the initialised regions, at least once in 86,400 s, and rewrites any that needed correction. -/
  | patrol (k cb : Nat)
  /-- GRANULE_REMAP (R271): The copy of a hard-failed granule to a spare granule completes, and its entry takes effect at the next release. -/
  | granuleRemap (k g : Nat)
  /-- REGION_FILL_DONE (R262): The zero fill of a region created with fill completes; the region is marked initialised and MM_CREATE receives its final OK. -/
  | regionFillDone (p sel : Nat)
  /-- ADD (R107): rd = ra + rb. -/
  | add (c : CoreRef) (rd ra rb : BitVec 5)
  /-- SUB (R107): rd = ra − rb. -/
  | sub (c : CoreRef) (rd ra rb : BitVec 5)
  /-- AND (R107): rd = ra AND rb. -/
  | andOp (c : CoreRef) (rd ra rb : BitVec 5)
  /-- OR (R107): rd = ra OR rb. -/
  | orOp (c : CoreRef) (rd ra rb : BitVec 5)
  /-- XOR (R107): rd = ra XOR rb. -/
  | xor (c : CoreRef) (rd ra rb : BitVec 5)
  /-- SLL (R107): Shift left logical by rb[4:0]. -/
  | sll (c : CoreRef) (rd ra rb : BitVec 5)
  /-- SRL (R107): Shift right logical by rb[4:0]. -/
  | srl (c : CoreRef) (rd ra rb : BitVec 5)
  /-- SRA (R107): Shift right arithmetic by rb[4:0]. -/
  | sra (c : CoreRef) (rd ra rb : BitVec 5)
  /-- SLT (R107): rd = 1 if ra < rb (signed), else 0. -/
  | slt (c : CoreRef) (rd ra rb : BitVec 5)
  /-- SLTU (R107): rd = 1 if ra < rb (unsigned), else 0. -/
  | sltu (c : CoreRef) (rd ra rb : BitVec 5)
  /-- MUL (R107): Low 32 bits of the product. -/
  | mul (c : CoreRef) (rd ra rb : BitVec 5)
  /-- MULH (R107): High 32 bits of the signed product. -/
  | mulh (c : CoreRef) (rd ra rb : BitVec 5)
  /-- MULHU (R107): High 32 bits of the unsigned product. -/
  | mulhu (c : CoreRef) (rd ra rb : BitVec 5)
  /-- MIN (R107): Signed minimum. -/
  | min (c : CoreRef) (rd ra rb : BitVec 5)
  /-- MAX (R107): Signed maximum. -/
  | max (c : CoreRef) (rd ra rb : BitVec 5)
  /-- ADDI (R107): rd = ra + sign-extended immediate. -/
  | addi (c : CoreRef) (rd ra : BitVec 5) (imm : BitVec 16)
  /-- ANDI (R107): rd = ra AND zero-extended immediate. -/
  | andi (c : CoreRef) (rd ra : BitVec 5) (imm : BitVec 16)
  /-- ORI (R107): rd = ra OR zero-extended immediate. -/
  | ori (c : CoreRef) (rd ra : BitVec 5) (imm : BitVec 16)
  /-- XORI (R107): rd = ra XOR zero-extended immediate. -/
  | xori (c : CoreRef) (rd ra : BitVec 5) (imm : BitVec 16)
  /-- SHI (R107): Immediate shift selected by imm[6:5]; a value of 3 raises BAD_INSTR. -/
  | shi (c : CoreRef) (rd ra : BitVec 5) (imm : BitVec 16)
  /-- LUI (R107): rd = imm << 16. -/
  | lui (c : CoreRef) (rd : BitVec 5) (imm : BitVec 16)
  /-- SLTI (R107): rd = 1 if ra < imm (signed), else 0. -/
  | slti (c : CoreRef) (rd ra : BitVec 5) (imm : BitVec 16)
  /-- LB (R104): Load a sign-extended byte from the scratchpad, carrying poison into the register. -/
  | lb (c : CoreRef) (rd ra : BitVec 5) (imm : BitVec 16)
  /-- LBU (R104): Load a zero-extended byte from the scratchpad. -/
  | lbu (c : CoreRef) (rd ra : BitVec 5) (imm : BitVec 16)
  /-- LH (R104): Load a sign-extended halfword from the scratchpad. -/
  | lh (c : CoreRef) (rd ra : BitVec 5) (imm : BitVec 16)
  /-- LHU (R104): Load a zero-extended halfword from the scratchpad. -/
  | lhu (c : CoreRef) (rd ra : BitVec 5) (imm : BitVec 16)
  /-- LW (R104): Load a word from the scratchpad. -/
  | lw (c : CoreRef) (rd ra : BitVec 5) (imm : BitVec 16)
  /-- SB (R104): Store a byte to the scratchpad, writing it poisoned if the register is poisoned. -/
  | sb (c : CoreRef) (rd ra : BitVec 5) (imm : BitVec 16)
  /-- SH (R104): Store a halfword to the scratchpad. -/
  | sh (c : CoreRef) (rd ra : BitVec 5) (imm : BitVec 16)
  /-- SW (R104): Store a word to the scratchpad. -/
  | sw (c : CoreRef) (rd ra : BitVec 5) (imm : BitVec 16)
  /-- BEQ (R107): Branch if ra equals rb. -/
  | beq (c : CoreRef) (ra rb : BitVec 5) (off : BitVec 16)
  /-- BNE (R107): Branch if ra differs from rb. -/
  | bne (c : CoreRef) (ra rb : BitVec 5) (off : BitVec 16)
  /-- BLT (R107): Branch if ra < rb (signed). -/
  | blt (c : CoreRef) (ra rb : BitVec 5) (off : BitVec 16)
  /-- BGE (R107): Branch if ra >= rb (signed). -/
  | bge (c : CoreRef) (ra rb : BitVec 5) (off : BitVec 16)
  /-- BLTU (R107): Branch if ra < rb (unsigned). -/
  | bltu (c : CoreRef) (ra rb : BitVec 5) (off : BitVec 16)
  /-- BGEU (R107): Branch if ra >= rb (unsigned). -/
  | bgeu (c : CoreRef) (ra rb : BitVec 5) (off : BitVec 16)
  /-- JAL (R107): g31 = pc + 4, then jump by off26. -/
  | jal (c : CoreRef) (off : BitVec 26)
  /-- JALR (R107): rd = pc + 4, then jump to ra + imm with bits [1:0] cleared. -/
  | jalr (c : CoreRef) (rd ra : BitVec 5) (imm : BitVec 16)
  /-- CRD (R105): Read a control register. -/
  | crd (c : CoreRef) (rd : BitVec 5) (imm : BitVec 16)
  /-- CWR (R105): Write a control register, raising BAD_CR for read-only or unlisted registers. -/
  | cwr (c : CoreRef) (ra : BitVec 5) (imm : BitVec 16)
  /-- CST (R107): Write a word of the command store. -/
  | cst (c : CoreRef) (rd ra : BitVec 5) (imm : BitVec 16)
  /-- CLD (R107): Read a word of the command store. -/
  | cld (c : CoreRef) (rd ra : BitVec 5) (imm : BitVec 16)
  /-- ENG (R112): Issue a command store entry, with its overrides, to a logical engine through the engine map. -/
  | eng (c : CoreRef) (ra rb unit : BitVec 5) (cs : BitVec 9)
  /-- SPR (R112): Issue a command store entry to the spire. -/
  | spr (c : CoreRef) (ra rb unit : BitVec 5) (cs : BitVec 9)
  /-- DMA (R112): Issue a command store entry to the DMA/fill unit. -/
  | dma (c : CoreRef) (ra rb unit : BitVec 5) (cs : BitVec 9)
  /-- POST (R113): Send a 32-byte message to a die-level agent; an unknown agent raises BAD_UNIT. -/
  | post (c : CoreRef) (ra rb unit : BitVec 5) (cs : BitVec 9)
  /-- CPOP (R115): Pop the oldest completion word and its source word. -/
  | cpop (c : CoreRef) (rd ra : BitVec 5)
  /-- WAIT (R107): Wait until an event in the mask is pending, then return the events register. -/
  | wait (c : CoreRef) (rd : BitVec 5) (imm : BitVec 16)
  /-- FENCE (R109): Wait until every earlier store of this core is acknowledged. -/
  | fence (c : CoreRef)
  /-- WEND (R119): End this core's work for the window. -/
  | wend (c : CoreRef)
  /-- BRK (R127): Software breakpoint: it halts in a partition with debug, and writes a trace record otherwise. -/
  | brk (c : CoreRef)
  /-- TIMER_EVENT (R105): The timebase reaches tb_cmp, and the timer event becomes pending, waking a waiting core. -/
  | timerEvent (c : CoreRef)
  /-- CORE_HALT_DRAINED (R128): The queued commands of a halted core complete, the module reports HALTED, and the core becomes readable. -/
  | coreHaltDrained (c : CoreRef)
  /-- CORE_DONE_CONTRIBUTION (R119): After wend, once every command, write and store has completed, the core sends its contribution and signature to the field's done report. -/
  | coreDoneContribution (c : CoreRef)
  /-- SCRATCHPAD_WRITE_ACK (R96): A scratchpad write is acknowledged 4 stages after acceptance. -/
  | scratchpadWriteAck (c : CoreRef)
  /-- FIRE (R83): Engine command: read input vectors, narrow them, fire arrays, accumulate, add bias and steering, and deliver results. -/
  | fire (c : CoreRef) (e : Nat)
  /-- PROG_ROW (R83): Engine command: program one array row from scratchpad levels and report stuck cells. -/
  | progRow (c : CoreRef) (e : Nat) (stuck : List (Nat × Nat))
  /-- READ_ROW (R83): Engine command: read back the levels of one array row. -/
  | readRow (c : CoreRef) (e : Nat)
  /-- REF_SAMPLE (R83): Engine command: fire an array once with narrow inputs and write all 1,040 codes. -/
  | refSample (c : CoreRef) (e : Nat)
  /-- LOAD_TRIM (R83): Engine command: load a trim record and column map into the array's shadow copy, effective at the next release. -/
  | loadTrim (c : CoreRef) (e : Nat)
  /-- ENGINE_COMPLETION (R82): An engine command completes; its completion word is queued and the engine-done event is raised. -/
  | engineCompletion (c : CoreRef) (e : Nat)
  /-- GEMM (R91): Spire command: C = scale × (A × B), optionally accumulated into C. -/
  | gemm (c : CoreRef)
  /-- VEC (R91): Spire command: element-wise vector operation selected by aux. -/
  | vec (c : CoreRef)
  /-- NORM (R91): Spire command: row RMS norm or layer norm times gain. -/
  | norm (c : CoreRef)
  /-- SOFTMAX (R91): Spire command: row softmax with a causal length and an optional mask. -/
  | softmax (c : CoreRef)
  /-- TOPK (R91): Spire command: for each row, the k largest entries, their indices and their softmax. -/
  | topk (c : CoreRef)
  /-- NARROW (R91): Spire command: apply the input-edge conversion to INT8 rows. -/
  | narrow (c : CoreRef)
  /-- SPIRE_COMPLETION (R90): A spire command completes and its completion word is queued. -/
  | spireCompletion (c : CoreRef)
  /-- FILL (R97): DMA/fill command: write a repeated 32-bit pattern over a byte range. -/
  | fill (c : CoreRef)
  /-- COPY (R97): DMA/fill command: copy from scratchpad to scratchpad. -/
  | copy (c : CoreRef)
  /-- LOAD (R264): DMA/fill command: read stack codeblocks into the scratchpad, optionally unpacking them. `flips`: the station checks that fail, (byte, hop) (R274). -/
  | loadOp (c : StackCopy)
  /-- STORE (R264): DMA/fill command: write whole codeblocks from the scratchpad to a stack. `flips`: the station checks that fail, (byte, hop) (R274). -/
  | storeOp (c : StackCopy)
  /-- DMA_COMPLETION (R114): A DMA/fill command completes and its completion word is queued. -/
  | dmaCompletion (c : CoreRef)
  /-- MARKS (R379): A message to agent 0x00 delivers one slot's non-zero descriptor marks to the suspect-step handling. `retries`: the hops at which its CRC-16 failed (R274). -/
  | marks (c : CoreMsg)
  /-- GATE (R247): A message to agent 0x00 gates scratchpad power banks from a named later window, unless the banks hold protected content. -/
  | gate (c : CoreRef)
  /-- UNGATE (R247): A message to agent 0x00 ungates scratchpad power banks from a named later window. -/
  | ungate (c : CoreRef)
  /-- SAMPLE_MESSAGE (R210): The sampler receives the sample message, draws each slot's token from its candidate record, and writes ring entries and feedback. `retries`: the hops at which its CRC-16 failed (R274). -/
  | sampleMessage (c : CoreMsg)
  /-- DEADLINE (R199): The timebase passes a request's deadline, and the request drains or continues flagged late. -/
  | deadline (i : Nat)
  /-- REPLAY_RETURN (R385): A replay's output is written to the next section or the sampler, and the slot rejoins in a held-back slot. -/
  | replayReturn (slot : Nat) (poisoned : Bool)
  /-- PAIR_DIGEST (R391): A paired digest reaches its comparator, which marks the slot suspect on a mismatch. -/
  | pairDigest (n : Nat)
  /-- UNIT_TEST_DONE (R396): The in-place test of a fenced unit completes, and the replacement is chosen and programmed. -/
  | unitTestDone (unit : Nat) (passes : Bool)
  /-- UNIT_REPLACEMENT_DONE (R396): A replacement is programmed with its stores and trims, and the map changes at a release after the ledger commit. -/
  | unitReplacementDone (unit : Nat)
  /-- FIELD_REBUILD_DONE (R398): A lost field's work, rebuilt on a reserve field, is ready and the held requests resume. -/
  | fieldRebuildDone (f : Nat)
  /-- REDUCTION_PACKET (R299): A reduction packet reaches its destination station, is added into the store line, and the line is written once complete. `flips`: the station checks that fail, (byte, hop) (R274). -/
  | reductionPacket (n : EdgeMsg)
  /-- ROLLING_DRAIN_DONE (R149): Tokens in flight on the base edition complete, and the rewrite starts. -/
  | rollingDrainDone (p : Nat)
  /-- ROLLING_REWRITE_DONE (R149): Every staged row is programmed, and the close phase starts. -/
  | rollingRewriteDone (p : Nat)
  /-- ROLLING_CLOSE_DONE (R149): Stores, resident regions and trims are loaded, and the edition becomes CURRENT at the next boundary. -/
  | rollingCloseDone (p : Nat)
  /-- SS_OPEN (R327): Open or resume a session and negotiate the command set. -/
  | ssOpen (h : Hdr) (o : OpenParams)
  /-- SS_CLOSE (R345): End the session. -/
  | ssClose (h : Hdr)
  /-- SS_TAKEOVER (R337): The standby session asks to become active at the next boundary. -/
  | ssTakeover (h : Hdr)
  /-- SS_ECHO (R407): Reply with the module timebase and the measured offset of the control node's clock. -/
  | ssEcho (h : Hdr)
  /-- SS_AUTH_BEGIN (R347): Start authentication and return a fresh nonce. -/
  | ssAuthBegin (h : Hdr) (level : BitVec 8) (rsa slh : List Byte)
  /-- SS_AUTH_PROVE (R347): Verify both signatures over M and grant the session's level. -/
  | ssAuthProve (h : Hdr) (rsaSig slhSig : List Byte)
  /-- SS_AUTH_CLAIM (R348): Claim an unclaimed module, installing the presented key digest as the owner. -/
  | ssAuthClaim (h : Hdr) (rsaSig slhSig : List Byte)
  /-- NONCE_EXPIRY (R347): An unused authentication nonce becomes void after 10 s. -/
  | nonceExpiry (conn : Nat)
  /-- AUTH_LOCKOUT_EXPIRY (R347): The 1 s hello lockout after three failed authentications ends. -/
  | authLockoutExpiry (conn : Nat)
  /-- MG_INFO (R361): Return the part, state, fields, roundhouse and editions. -/
  | mgInfo (h : Hdr)
  /-- MG_POWER_SET (R223): Write the module power record. -/
  | mgPowerSet (h : Hdr) (power array : Word) (rho : BitVec 16)
  /-- MG_POWER_GET (R223): Read the power record, grants and steps. -/
  | mgPowerGet (h : Hdr)
  /-- MG_POLICY_SET (R233): Write the partition power policy record. -/
  | mgPolicySet (h : Hdr) (mode depth : BitVec 8) (coldMin : Word)
  /-- MG_SELFTEST (R375): Schedule self-tests on the target units. -/
  | mgSelftest (h : Hdr) (p : SelfTestParams)
  /-- SELFTEST_COMPLETE (R377): Every unit has a result or until has passed, and the final self-test report is sent. -/
  | selftestComplete (n : Nat) (results : List (Word × BitVec 8 × BitVec 8))
  /-- MG_RESET (R374): Reset the module at the next boundary and restart from phase 3 of power-up. -/
  | mgReset (h : Hdr) (fast skipFill : Bool)
  /-- PR_SET_ENTRIES (R350): Write protection entries, effective at the next step boundary. -/
  | prSetEntries (h : Hdr) (first : Nat) (entries : List ProtEntry)
  /-- PR_SET_CORE_MAP (R350): Write core map bytes, effective at the next step boundary. -/
  | prSetCoreMap (h : Hdr) (first : Nat) (bytes : List Byte)
  /-- PR_SET_OWNER_KEY (R348): Replace the owner digest through an immediate snapshot. -/
  | prSetOwnerKey (h : Hdr) (rsa slh : List Byte)
  /-- PR_SET_FIRMWARE (R358): Install a firmware image fragment, verifying and writing the image on the last fragment. -/
  | prSetFirmware (h : Hdr) (last commitSvn : Bool) (first : Nat) (bytes : List Byte)
  /-- CORE_CLEAR (R352): A core that changes owner is cleared: rows to level 8, scratchpad and stores zeroed. -/
  | coreClear (c : CoreRef)
  /-- PR_GET (R354): Read protection entries. -/
  | prGet (h : Hdr) (op : BitVec 8) (first count : Nat)
  /-- PR_ATTEST (R360): Return a signed attestation report. -/
  | prAttest (h : Hdr) (nonce : List Byte) (mask : U64)
  /-- WT_OPEN (R132): Verify a manifest and open a build in BUILDING. -/
  | wtOpen (h : Hdr) (staging manLen : Nat) (bytes : List Byte)
  /-- WT_SHARD (R331): Accept a shard fragment, running intake when the fragment completes its shard. -/
  | wtShard (h : Hdr) (edition : BitVec 16) (index offset shardLen : Nat) (bytes : List Byte)
  /-- WT_CLOSE (R132): Close a build: report missing shards, stage a rolling build, or start verification. -/
  | wtClose (h : Hdr) (edition : BitVec 16)
  /-- WT_SWITCH_SHADOW (R146): Request a shadow switch to a READY edition, pending until its bounds fit. -/
  | wtSwitchShadow (h : Hdr) (edition : BitVec 16) (earliest : U64)
  /-- WT_SWITCH_ROLLING (R148): Request a rolling switch to a STAGED edition, returning the hold bound H. `how`: the mode in [7:0], not 0
  (WT_SWITCH_SHADOW), and the choice for pinned requests in [15:8] (Table 11-12). -/
  | wtSwitchRolling (h : Hdr) (edition : BitVec 16) (how : BitVec 16) (earliest : U64)
  /-- WT_RETIRE (R154): Retire a RETAINED edition under the drain or end policy. -/
  | wtRetire (h : Hdr) (edition : BitVec 16) (policy : BitVec 8)
  /-- WT_ABORT (R437): Abort an edition at the next boundary. -/
  | wtAbort (h : Hdr) (edition : BitVec 16)
  /-- WT_STATUS (R330): Report edition states, missing shards and H. -/
  | wtStatus (h : Hdr) (edition : BitVec 16)
  /-- SV_ADMIT (R192): Admit a request under the admission arithmetic, or refuse it. -/
  | svAdmit (h : Hdr) (d : Desc)
  /-- SV_KV_OPEN (R205): Reserve a receiving entry in kv_wait for a KV shipment. -/
  | svKvOpen (h : Hdr) (d : Desc)
  /-- SV_CANCEL (R200): Cancel a request at the next boundary. -/
  | svCancel (h : Hdr)
  /-- SV_FINISH (R185): Move a request to DRAINING. -/
  | svFinish (h : Hdr)
  /-- SV_PAUSE (R195): Move a request to the siding under PAUSE. -/
  | svPause (h : Hdr)
  /-- SV_RESUME (R195): Clear a request's PAUSE cause. -/
  | svResume (h : Hdr)
  /-- SV_STATUS (R329): Report a request's state and statistics. -/
  | svStatus (h : Hdr)
  /-- SV_RING_ACK (R221): Return ring space by giving the total entries consumed. -/
  | svRingAck (h : Hdr) (total : Word)
  /-- SV_CLASS_SET (R187): Write a partition class record. -/
  | svClassSet (h : Hdr) (cls : BitVec 8) (r : ClassRec)
  /-- SV_ROLE (R201): Set the partition's serving role. -/
  | svRole (h : Hdr) (role : BitVec 8)
  /-- SV_GRAMMAR_LOAD (R214): Register a grammar table and return its handle. -/
  | svGrammarLoad (h : Hdr) (offset : U64)
  /-- SV_STEER_LOAD (R218): Register a steering set under an index. -/
  | svSteerLoad (h : Hdr) (index : Word) (offset : U64)
  /-- SV_KV_RESEND (R204): Resend named KV pages. -/
  | svKvResend (h : Hdr) (pages : List Word)
  /-- MM_CREATE (R262): Create a partition stack region, optionally filled. -/
  | mmCreate (h : Hdr) (sel : BitVec 8) (fill : Bool) (stackSet : BitVec 24) (size : U64)
  /-- MM_DELETE (R262): Delete a region that nothing uses. -/
  | mmDelete (h : Hdr) (sel : BitVec 8)
  /-- MM_INFO (R263): Return stack sets and the distance table. -/
  | mmInfo (h : Hdr)
  /-- MM_WRITE (R264): Write whole codeblocks into a region. -/
  | mmWrite (h : Hdr) (edition : BitVec 16) (addr : U64) (bytes : List Byte)
  /-- MM_READ (R325): Read bytes from a region. -/
  | mmRead (h : Hdr) (edition : BitVec 16) (addr : U64) (length : Nat)
  /-- MM_MARK_INIT (R276): Mark a region initialised. -/
  | mmMarkInit (h : Hdr) (sel : BitVec 8)
  /-- DB_STOP (R413): Request a global stop at the next boundary. -/
  | dbStop (h : Hdr)
  /-- STOP_SETTLE_DONE (R413): Started replays and stack accesses finish; the trace buffers are latched and STOPPED is reported with the cut record. -/
  | stopSettleDone
  /-- DB_STOP_NOW (R416): Broadcast an immediate stop to every field. -/
  | dbStopNow (h : Hdr)
  /-- STOP_NOW_ARRIVAL (R416): The immediate stop reaches a field, whose cores stop and whose units complete their current command. -/
  | stopNowArrival (f : Nat)
  /-- FIELD_SNAPSHOT_LATCH (R416): A quiet field latches its snapshot; once every field has latched, the module is Stopped and replies. -/
  | fieldSnapshotLatch (f : Nat)
  /-- DB_GO (R415): Resume after a stop and send the release of n+1. -/
  | dbGo (h : Hdr)
  /-- DB_WATCH_SET (R126): Write breakpoint and watch registers. -/
  | dbWatchSet (h : Hdr) (c : CoreRef) (w : WatchRegs)
  /-- DB_CORE_READ (R128): Read the registers and completion queue of a halted core. -/
  | dbCoreRead (h : Hdr) (c : CoreRef)
  /-- DB_CORE_GO (R129): Resume, or single-step, a halted core. -/
  | dbCoreGo (h : Hdr) (c : CoreRef) (step : Bool)
  /-- DB_TRACE_READ (R412): Read trace records of a field. -/
  | dbTraceRead (h : Hdr) (f : Nat) (first count : Nat) (consume : Bool)
  /-- DB_TRACE_CONFIGURE (R412): Configure a field trace buffer's mode and freeze flags. -/
  | dbTraceConfigure (h : Hdr) (f : Nat) (fill freezeFault freezeHalt : Bool)
  /-- DB_TRACE_CLEAR (R412): Clear and unfreeze a field trace buffer. -/
  | dbTraceClear (h : Hdr) (f : Nat)
  /-- DB_DIGEST_SET (R408): Install a tensor digest probe. -/
  | dbDigestSet (h : Hdr) (p : ProbeParams)
  /-- DB_DIGEST_CLEAR (R408): Clear one digest probe. -/
  | dbDigestClear (h : Hdr) (probe : BitVec 8)
  /-- DB_DIGEST_CLEAR_ALL (R408): Clear all digest probes of the partition. -/
  | dbDigestClearAll (h : Hdr)
  /-- DIGEST_RECORD (R410): A digest record reaches the gate-field collector, and is written to the ring in codeblocks or dropped. -/
  | digestRecord
  /-- HL_CONFIG (R334): Set the health report filter. -/
  | hlConfig (h : Hdr) (filter : List (BitVec 8))
  /-- HL_COUNTERS (R404): Return counters latched at a clean cut. -/
  | hlCounters (h : Hdr) (scope : BitVec 8) (index : Word) (first count : Nat)
  /-- HL_REPAIR_MAP (R173): Export the repair map. -/
  | hlRepairMap (h : Hdr)
  /-- HL_LEDGER_READ (R176): Read the non-secret ledger contents. -/
  | hlLedgerRead (h : Hdr)
  /-- HL_FAULTS (R401): Read fault signature records. -/
  | hlFaults (h : Hdr) (first count : Nat)
  /-- HL_BELFRY (R236): Read belfry registers under the visibility rules. -/
  | hlBelfry (h : Hdr) (f : Nat)
  /-- FB_PORT_SET (R281): Write a port record and restart the port. -/
  | fbPortSet (h : Hdr) (port : Nat) (r : PortRec)
  /-- FB_ROUTE_SET (R289): Write the route record. -/
  | fbRouteSet (h : Hdr) (r : RouteRec)
  /-- FB_JOB_CREATE (R310): Create a job with a version floor and report Tbar. -/
  | fbJobCreate (h : Hdr) (id : Nat) (epoch : BitVec 8) (floor : Nat) (members : List Nat)
  /-- FB_JOB_QUERY (R297): Query a job's status. -/
  | fbJobQuery (h : Hdr) (id : Nat)
  /-- FB_JOB_END (R325): End a job. -/
  | fbJobEnd (h : Hdr) (id : Nat)
  /-- FB_BARRIER (R295): Send a barrier arrive to rank 0. -/
  | fbBarrier (h : Hdr) (job : Nat) (number : BitVec 16) (timeout : Nat)
  /-- FB_REDUCE (R301): Start a collective reduction across the job. -/
  | fbReduce (h : Hdr) (p : ReduceParams)
  /-- FB_MCAST (R304): Start a multicast from a stack region to the job's targets. -/
  | fbMcast (h : Hdr) (p : McastParams)
  /-- FB_STATUS (R405): Report ports, widths, versions, the peer table and time records. -/
  | fbStatus (h : Hdr)
  /-- FB_TIME (R307): Run an end-to-end time probe. -/
  | fbTime (h : Hdr) (module : Nat)
  /-- AS_MODE_SET (R335): Select hardware or host-assisted mode per function. -/
  | asModeSet (h : Hdr) (modes : BitVec 8)
  /-- AS_ANSWER (R336): Answer an outstanding assist. -/
  | asAnswer (h : Hdr) (id : Word) (fn : BitVec 8) (body : List Byte)
  /-- ASSIST_DEADLINE (R336): An assist's deadline passes without a valid answer, and the function's late-answer outcome applies. -/
  | assistDeadline (id : Word)
  /-- DATA_FRAME (R315): An Alaok data frame is received, checked and reassembled into its stream, or discarded with a nak. -/
  | dataFrame (conn : Nat) (fr : Frame)
  /-- LINK_CONTROL_FRAME (R316): A link control frame delivers acknowledgements and credits. -/
  | linkControlFrame (conn : Nat) (fr : Frame)
  /-- NAK_FRAME (R315): A nak frame makes the sender resend from the expected sequence number. -/
  | nakFrame (conn : Nat) (stream : Nat) (n : NakHead)
  /-- HELLO (R318): A hello frame negotiates the link version and initial credits. -/
  | hello (conn : Nat) (lo hi : BitVec 16) (credits : List Nat)
  /-- HELLO_RETRY (R319): With no common link version, the hello is repeated every 1 ms. -/
  | helloRetry (conn : Nat)
  /-- IDLE_FRAME_TIMER (R317): A link control frame is sent when no frame has been sent for 10 µs. -/
  | idleFrameTimer (conn : Nat)
  /-- CONNECTOR_DOWN (R317): A connector loses lock, or receives no valid frame for 1 ms, and goes down. -/
  | connectorDown (conn : Nat)
  /-- CONNECTOR_TRAINED (R318): Lane training of a connector completes and the hello exchange begins. -/
  | connectorTrained (conn : Nat)
  /-- SESSION_RESUME_EXPIRY (R338): A session left by a down connector is not resumed within 60 s and ends. -/
  | sessionResumeExpiry (conn : Nat)
  /-- DATA_WRITE (R285): A fabric data write packet is received and placed by offset. -/
  | dataWrite (port : Nat) (p : FabPkt)
  /-- DATA_ACKNOWLEDGEMENT (R285): A fabric data acknowledgement packet is received. -/
  | dataAcknowledgement (port : Nat) (p : FabPkt)
  /-- KV_MANIFEST (R205): A KV manifest is received and checked against the receiving request's edition. -/
  | kvManifest (port : Nat) (p : FabPkt)
  /-- KV_PAGE (R306): A KV page packet is written as a codeblock, and its page digest is checked when the page is complete. -/
  | kvPage (port : Nat) (p : FabPkt)
  /-- KV_NAK_TIMER (R306): When the last page is due, or 1 ms after the last packet, the receiver answers incomplete pages with KV_NAK. -/
  | kvNakTimer (i : Nat)
  /-- KV_DONE (R204): The sender receives KV_DONE and retires the shipping request. -/
  | kvDone (port : Nat) (p : FabPkt)
  /-- KV_NAK (R204): The sender receives KV_NAK and resends the listed pages. -/
  | kvNak (port : Nat) (p : FabPkt)
  /-- BARRIER_ARRIVE (R295): Rank 0 receives an arrive, and sends releases when every rank has arrived. -/
  | barrierArrive (port : Nat) (p : FabPkt)
  /-- BARRIER_RELEASE (R295): A member receives the release and completes its barrier. -/
  | barrierRelease (port : Nat) (p : FabPkt)
  /-- BARRIER_TIMEOUT (R297): A barrier's timeout expires, and the barrier completes with TIMEOUT. -/
  | barrierTimeout (job : Nat)
  /-- REDUCTION_PARTIAL (R302): A reduction partial is received up the binomial tree and combined. -/
  | reductionPartial (port : Nat) (p : FabPkt)
  /-- REDUCTION_RESULT (R302): A reduction result is received down the tree and written. -/
  | reductionResult (port : Nat) (p : FabPkt)
  /-- MULTICAST_DATA (R304): A multicast packet is stored, or passed to intake, and forwarded to the children. -/
  | multicastData (port : Nat) (p : FabPkt)
  /-- MULTICAST_STATUS (R305): A multicast target result is received up the tree. -/
  | multicastStatus (port : Nat) (p : FabPkt)
  /-- MCAST_TIMEOUT (R305): The multicast timeout expires; targets without a result are given 0x05 and the command completes. -/
  | mcastTimeout (job : Nat)
  /-- TIME_PROBE (R307): A time probe is received and answered with a time reply. -/
  | timeProbe (port : Nat) (p : FabPkt) (t2 t3 : U64)
  /-- TIME_REPLY (R307): A time reply is received and used in the offset measurement. -/
  | timeReply (port : Nat) (p : FabPkt) (t4 : U64)
  /-- TIME_MEASUREMENT (R307): At link start and every 1 s, a port runs 8 probe exchanges and updates offset and drift. -/
  | timeMeasurement (port : Nat) (exchanges : List (U64 × U64 × U64 × U64))
  /-- LANE_FAILURE (R283): A fabric lane loses lock or exceeds its error limits, and the port holds and retrains. -/
  | laneFailure (port lane : Nat)
  /-- PORT_RETRAIN_DONE (R283): A retrain completes at the new width, and unacknowledged flits are resent. -/
  | portRetrainDone (port : Nat)
  /-- PORT_UP (R309): A port completes training at its negotiated version. -/
  | portUp (port : Nat) (peer offer good : Nat)
  /-- FEED_VALID (R362): The feed has stayed valid for 10 ms, and power-up begins. -/
  | feedValid
  /-- HOT_SWAP_CHARGED (R422): The hold-up capacitance is charged, and pwr_good is asserted. -/
  | hotSwapCharged
  /-- TIMEBASE_LOCK (R363): The timebase loops lock, one is chosen, and the timebase starts at 0. -/
  | timebaseLock (aOk bOk agree : Bool)
  /-- BOOT_CHAIN (R357): The owner area, firmware, ledger and identity are chosen and verified. -/
  | bootChain (goodLedgerFields : List Nat)
  /-- FIELD_BRINGUP (R366): A wave of fields runs sense, rail, station, pace, core, array and fill phases and reports its results. -/
  | fieldBringup (f : Nat) (p : FieldProbe)
  /-- STACK_TRAINING (R362): A stack trains through its active attach field, and its hardware fill begins. -/
  | stackTraining (k : Nat) (ok : Bool)
  /-- STACK_FILL_DONE (R275): A stack's fill and read-back complete. -/
  | stackFillDone (k : Nat) (bad : List Nat)
  /-- SERVICE_SET (R368): The service fields, the roundhouse and the relocation map are chosen and committed. -/
  | serviceSet
  /-- CORE_RELEASE (R362): The cores are released, window 0 is planned, and the module enters In service. -/
  | coreRelease
  /-- POWER_FAIL (R423): The feed leaves its valid range; loads are shed and outstanding ledger commits complete. -/
  | powerFail (milli : Nat)
  /-- POWER_FAIL_OFF (R423): Once the last commits are done, the remaining converters turn off. -/
  | powerFailOff
  /-- HANDOFF_WRITE (R81): A hand-off write packet from an engine of another core reaches the destination station and is written into the receiving core's incoming hand-off buffer, then acknowledged. `flips`: the station checks that fail, (byte, hop) (R274). -/
  | handoffWrite (n : EdgeMsg)
  /-- LEDGER_COMMIT (R178): A journal entry has been programmed and verified in copy A and then copy B, and the changes waiting for it take effect. -/
  | ledgerCommit
  /-- LEDGER_SNAPSHOT_DONE (R179): A snapshot has been signed and written, within 600 s; the journal restarts, an owner-area change takes effect and its final reply or a firmware install's final OK is sent. -/
  | ledgerSnapshotDone
  /-- LEDGER_COPY_REBUILT (R180): A ledger copy rebuilt in the next candidate field completes, and LEDGER_COPY_LOST is cleared. -/
  | ledgerCopyRebuilt (copyB : Bool)
  /-- FIELD_AWAKE (R245): A waking field reaches the end of its wake time, with resident regions and stores refilled after COLD, and can take work. -/
  | fieldAwake (f : Nat)
  /-- SLEEP_ENTRY_DONE (R246): A field completes its entry into a sleep state, after which a pending wake may begin. -/
  | sleepEntryDone (f : Nat)
  /-- CONNECTOR_LANE_FAILURE (R317): A lane of an Alaok connector fails; on link 1.1 and later the connector keeps running on 2 lanes or 1 lane at a lower rate, and on 1.0 it goes down. -/
  | connectorLaneFailure (conn lane : Nat)
  /-- NODE_CLOCK_OFFSET (R407): On link 2.1 and later, at session start and every 1 s, the Alaok interface measures the offset and drift of the control node's clock. -/
  | nodeClockOffset (conn : Nat) (exchanges : List (U64 × U64 × U64 × U64))
  /-- EXTENT_CLEARED (R353): The zero writing of stack extents removed from a partition completes, and the extents become free for other partitions' regions. -/
  | extentCleared (k extent : Nat)
deriving DecidableEq, Repr

end Sys2Proof
end

