-- ==== Sys2Proof/Machine/Geometry.lean ====
section
/-! DEFINITION. The five levels, the field grid and the packed addresses (R5 to R11). -/

namespace Sys2Proof

/-- R5: cores of a field, engines of a core, arrays of an engine, columns and rows of an array. -/
def coresPerField : Nat := 68
def enginesPerCore : Nat := 18
def arraysPerEngine : Nat := 8
def arrayColumns : Nat := 1040
def arrayRows : Nat := 1024
/-- R5: placement cores of a field. -/
def placeCores : Nat := 64
/-- R182: entries of the request table. -/
def requestEntries : Nat := 131072
/-- R256: stacks, and R340: partitions. -/
def stackCount : Nat := 24
def partitionCount : Nat := 64
/-- R279: fabric ports. -/
def portCount : Nat := 32
/-- R40: the gate field. -/
def gateField : Nat := 94

/-- R7, Table 0-3: whether a field stands at row `r`, column `c`. -/
def positionPresent (r c : Nat) : Bool :=
  if r = 0 ∨ r = 9 then decide (2 ≤ c ∧ c ≤ 7)
  else if r = 1 ∨ r = 2 ∨ r = 7 ∨ r = 8 then decide (1 ≤ c ∧ c ≤ 8)
  else decide (3 ≤ r ∧ r ≤ 6 ∧ c ≤ 9)

/-- R8: whether a field number names a field. -/
def fieldExists (f : Nat) : Bool := decide (f < 100) && positionPresent (f / 10) (f % 10)

/-- R7: the 84 field numbers, rising. -/
def allFields : List Nat := (List.range 100).filter fieldExists

/-- The key of a core in the state's tables: field * 68 + core. -/
def coreKey (f c : Nat) : Nat := f * coresPerField + c

/-- The key of a named core. -/
def CoreRef.key (c : CoreRef) : Nat := coreKey c.field c.core

/-- R8: whether a core reference names a core. -/
def CoreRef.ok (c : CoreRef) : Bool := fieldExists c.field && decide (c.core < coresPerField)

/-- R10: the packed physical address of a core (its engine and array bits 0), from its key. -/
def packedCore (key : Nat) : Nat := key / coresPerField * 2 ^ 15 + key % coresPerField * 2 ^ 8

/-- R10: the packed address of an engine of a core. -/
def packedEngine (key e : Nat) : Nat := packedCore key + e * 8

/-- R10: the packed address of an array of an engine. -/
def packedArray (key e a : Nat) : Nat := packedEngine key e + a

/-- R10: the field, core, engine and array of a packed address. -/
def unpackField (p : Nat) : Nat := p / 2 ^ 15 % 256
def unpackCore (p : Nat) : Nat := p / 2 ^ 8 % 128
def unpackEngine (p : Nat) : Nat := p / 8 % 32
def unpackArray (p : Nat) : Nat := p % 8

/-- R10: the core key of a packed address, none where it names no core. -/
def unpackKey (p : Nat) : Option Nat :=
  if fieldExists (unpackField p) && decide (unpackCore p < coresPerField) then
    some (coreKey (unpackField p) (unpackCore p)) else none

/-- R25: hops between two fields on the grid, |dc| + |dr|. -/
def gridDistance (f g : Nat) : Nat :=
  (f % 10 - g % 10) + (g % 10 - f % 10) + (f / 10 - g / 10) + (g / 10 - f / 10)

/-- The field numbers of a straight run on the grid from `a` towards `b` by steps of `d`, both ends in it. -/
def gridRun (a b d : Nat) : List Nat :=
  if a ≤ b then (List.range ((b - a) / d + 1)).map (fun i => a + i * d)
  else (List.range ((a - b) / d + 1)).map (fun i => a - i * d)

/-- R25: the fields on the route from `f` to `g`, along the row first unless the turning position holds no field. -/
def gridRoute (f g : Nat) : List Nat :=
  let t := f / 10 * 10 + g % 10
  if positionPresent (f / 10) (g % 10) then gridRun f t 1 ++ gridRun t g 10
  else let u := g / 10 * 10 + f % 10
    gridRun f u 10 ++ gridRun u g 1

/-- R7: the fields beside a field on the grid. -/
def gridNeighbours (f : Nat) : List Nat := allFields.filter (fun g => gridDistance f g = 1)

/-- R26: the fields around `ring` in rings of equal distance, along hops from one field to the next that `ok` lets pass. -/
def gridRings (ok : Nat → Nat → Bool) : Nat → List Nat → List Nat → List (List Nat)
  | 0, _, _ => []
  | fuel + 1, seen, ring =>
    if ring.isEmpty then []
    else
      let next := (ring.flatMap (fun a => (gridNeighbours a).filter (ok a))).foldl
        (fun l x => if seen.contains x || l.contains x then l else l ++ [x]) []
      ring :: gridRings ok fuel (seen ++ next) next

/-- R26: the way from `f` inwards through rings, the nearest of them first. -/
def gridInward (ok : Nat → Nat → Bool) (f : Nat) : List (List Nat) → List Nat
  | [] => [f]
  | r :: t => f :: gridInward ok (((gridNeighbours f).find? (fun x => r.contains x && ok x f)).getD f) t

/-- R26: a shortest route from `f` to `g` of hops that `ok` lets pass, asked from `g` outwards; empty where there is none. -/
def detourRoute (ok : Nat → Nat → Bool) (f g : Nat) : List Nat :=
  let rings := gridRings ok 100 [g] [g]
  match rings.findIdx? (fun r => r.contains f) with
  | some d => gridInward ok f (rings.take d).reverse
  | none => []

end Sys2Proof
end

