-- ==== Sys2Proof/WellFormed.lean ====
section
/-! DEFINITION. Which commands are well-formed: every unit they name exists and every field fits its width in the packet or
event that carries it. -/

namespace Sys2Proof

/-- R313, R321: a header of a connector A or B with a parameter length of Table 11-6. -/
def Hdr.ok (h : Hdr) : Bool := decide (h.conn < 2) && decide (h.length ≤ 65536)

/-- R314, Table 11-1: a data frame fits its header's fields. -/
def Frame.ok (f : Frame) : Bool :=
  decide (f.stream < 16) && decide (f.ackStream < 16) && decide (f.creditStream < 16) && decide (f.credit < 65536)
  && decide (f.payload.length ≤ 4096)

/-- R285, Table 10-5: a fabric packet fits its header's fields. -/
def FabPkt.ok (p : FabPkt) : Bool :=
  decide (p.version < 256) && decide (p.type < 256) && decide (p.dst < 2 ^ 18) && decide (p.src < 2 ^ 18)
  && decide (p.job < 2 ^ 24) && decide (p.partition < 256) && decide (p.seq < 2 ^ 32) && decide (p.payload.length ≤ 65536)

/-- Whether a command's operands fit. -/
def Instr.wellFormed : Instr → Bool
  | .doneReport f => fieldExists f.field
  | .windowRelease => true
  | .boundaryHold => true
  | .boundaryHoldLimit => true
  | .hungCore c => c.ok
  | .paceMeasurement f _ => fieldExists f
  | .replan => true
  | .fieldWake f => fieldExists f
  | .darkScrubWake f => fieldExists f
  | .creditRefill => true
  | .grantRebalance => true
  | .throttleRecovery f => fieldExists f
  | .currentTrigger f => fieldExists f
  | .converterFoldBack f => fieldExists f
  | .foldBackTimeout f => fieldExists f
  | .shortDetect f _ _ => fieldExists f
  | .isolationConfirm f _ => fieldExists f
  | .fieldIsolated f => fieldExists f
  | .stackFailover k => decide (k < stackCount)
  | .feedPowerOver _ => true
  | .feedLow _ => true
  | .budgetRestore _ _ => true
  | .belfryRound f _ => fieldExists f
  | .hotSensorStep f => fieldExists f
  | .blfSwStart h f _ => h.ok && decide (f < 256)
  | .belfryConversionRequest f => fieldExists f
  | .softwareConversionDone f _ => fieldExists f
  | .urgentConversion f channel _ _ _ => fieldExists f && decide (channel < 16)
  | .ageAccumulate => true
  | .refreshOverdue c e a => c.ok && decide (e < enginesPerCore) && decide (a < arraysPerEngine)
  | .trimSample c e a => c.ok && decide (e < enginesPerCore) && decide (a < arraysPerEngine)
  | .engineRefresh c e => c.ok && decide (e < enginesPerCore)
  | .refreshSettleDone c e _ => c.ok && decide (e < enginesPerCore)
  | .rowReverify c e a row _ _ => c.ok && decide (e < enginesPerCore) && decide (a < arraysPerEngine) && decide (row < arrayRows)
  | .editionReady _ => true
  | .forerunnerReload _ _ => true
  | .ledgerCounterCommit => true
  | .ledgerSnapshot => true
  | .scrubPass c line => c.ok && decide (line < 32768)
  | .lineRemapCopyDone c line => c.ok && decide (line < 32768)
  | .patrol k cb => decide (k < stackCount) && decide (cb < 25165824)
  | .granuleRemap k g => decide (k < stackCount) && decide (g < 786432)
  | .regionFillDone p sel => decide (p < partitionCount) && decide (sel < 16)
  | .add c _ _ _ => c.ok
  | .sub c _ _ _ => c.ok
  | .andOp c _ _ _ => c.ok
  | .orOp c _ _ _ => c.ok
  | .xor c _ _ _ => c.ok
  | .sll c _ _ _ => c.ok
  | .srl c _ _ _ => c.ok
  | .sra c _ _ _ => c.ok
  | .slt c _ _ _ => c.ok
  | .sltu c _ _ _ => c.ok
  | .mul c _ _ _ => c.ok
  | .mulh c _ _ _ => c.ok
  | .mulhu c _ _ _ => c.ok
  | .min c _ _ _ => c.ok
  | .max c _ _ _ => c.ok
  | .addi c _ _ _ => c.ok
  | .andi c _ _ _ => c.ok
  | .ori c _ _ _ => c.ok
  | .xori c _ _ _ => c.ok
  | .shi c _ _ _ => c.ok
  | .lui c _ _ => c.ok
  | .slti c _ _ _ => c.ok
  | .lb c _ _ _ => c.ok
  | .lbu c _ _ _ => c.ok
  | .lh c _ _ _ => c.ok
  | .lhu c _ _ _ => c.ok
  | .lw c _ _ _ => c.ok
  | .sb c _ _ _ => c.ok
  | .sh c _ _ _ => c.ok
  | .sw c _ _ _ => c.ok
  | .beq c _ _ _ => c.ok
  | .bne c _ _ _ => c.ok
  | .blt c _ _ _ => c.ok
  | .bge c _ _ _ => c.ok
  | .bltu c _ _ _ => c.ok
  | .bgeu c _ _ _ => c.ok
  | .jal c _ => c.ok
  | .jalr c _ _ _ => c.ok
  | .crd c _ _ => c.ok
  | .cwr c _ _ => c.ok
  | .cst c _ _ _ => c.ok
  | .cld c _ _ _ => c.ok
  | .eng c _ _ _ _ => c.ok
  | .spr c _ _ _ _ => c.ok
  | .dma c _ _ _ _ => c.ok
  | .post c _ _ _ _ => c.ok
  | .cpop c _ _ => c.ok
  | .wait c _ _ => c.ok
  | .fence c => c.ok
  | .wend c => c.ok
  | .brk c => c.ok
  | .timerEvent c => c.ok
  | .coreHaltDrained c => c.ok
  | .coreDoneContribution c => c.ok
  | .scratchpadWriteAck c => c.ok
  | .fire c e => c.ok && decide (e < enginesPerCore)
  | .progRow c e _ => c.ok && decide (e < enginesPerCore)
  | .readRow c e => c.ok && decide (e < enginesPerCore)
  | .refSample c e => c.ok && decide (e < enginesPerCore)
  | .loadTrim c e => c.ok && decide (e < enginesPerCore)
  | .engineCompletion c e => c.ok && decide (e < enginesPerCore)
  | .gemm c => c.ok
  | .vec c => c.ok
  | .norm c => c.ok
  | .softmax c => c.ok
  | .topk c => c.ok
  | .narrow c => c.ok
  | .spireCompletion c => c.ok
  | .fill c => c.ok
  | .copy c => c.ok
  | .loadOp c => c.core.ok
  | .storeOp c => c.core.ok
  | .dmaCompletion c => c.ok
  | .marks c => c.core.ok
  | .gate c => c.ok
  | .ungate c => c.ok
  | .sampleMessage c => c.core.ok
  | .deadline i => decide (i < requestEntries)
  | .replayReturn _ _ => true
  | .pairDigest _ => true
  | .unitTestDone _ _ => true
  | .unitReplacementDone _ => true
  | .fieldRebuildDone f => fieldExists f
  | .reductionPacket _ => true
  | .rollingDrainDone p => decide (p < partitionCount)
  | .rollingRewriteDone p => decide (p < partitionCount)
  | .rollingCloseDone p => decide (p < partitionCount)
  | .ssOpen h _ => h.ok
  | .ssClose h => h.ok
  | .ssTakeover h => h.ok
  | .ssEcho h => h.ok
  | .ssAuthBegin h _ rsa slh => h.ok && decide (rsa.length ≤ 65536) && decide (slh.length ≤ 65536)
  | .ssAuthProve h rsaSig slhSig => h.ok && decide (rsaSig.length ≤ 65536) && decide (slhSig.length ≤ 65536)
  | .ssAuthClaim h rsaSig slhSig => h.ok && decide (rsaSig.length ≤ 65536) && decide (slhSig.length ≤ 65536)
  | .nonceExpiry conn => decide (conn < 2)
  | .authLockoutExpiry conn => decide (conn < 2)
  | .mgInfo h => h.ok
  | .mgPowerSet h _ _ _ => h.ok
  | .mgPowerGet h => h.ok
  | .mgPolicySet h _ _ _ => h.ok
  | .mgSelftest h _ => h.ok
  | .selftestComplete _ _ => true
  | .mgReset h _ _ => h.ok
  | .prSetEntries h _ _ => h.ok
  | .prSetCoreMap h _ bytes => h.ok && decide (bytes.length ≤ 65536)
  | .prSetOwnerKey h rsa slh => h.ok && decide (rsa.length ≤ 65536) && decide (slh.length ≤ 65536)
  | .prSetFirmware h _ _ _ bytes => h.ok && decide (bytes.length ≤ 65536)
  | .coreClear c => c.ok
  | .prGet h _ _ _ => h.ok
  | .prAttest h nonce _ => h.ok && decide (nonce.length ≤ 65536)
  | .wtOpen h _ _ bytes => h.ok && decide (bytes.length ≤ 65536)
  | .wtShard h _ _ _ _ bytes => h.ok && decide (bytes.length ≤ 65536)
  | .wtClose h _ => h.ok
  | .wtSwitchShadow h _ _ => h.ok
  | .wtSwitchRolling h _ how _ => h.ok && decide (how.toNat % 256 ≠ 0)
  | .wtRetire h _ _ => h.ok
  | .wtAbort h _ => h.ok
  | .wtStatus h _ => h.ok
  | .svAdmit h _ => h.ok
  | .svKvOpen h _ => h.ok
  | .svCancel h => h.ok
  | .svFinish h => h.ok
  | .svPause h => h.ok
  | .svResume h => h.ok
  | .svStatus h => h.ok
  | .svRingAck h _ => h.ok
  | .svClassSet h _ _ => h.ok
  | .svRole h _ => h.ok
  | .svGrammarLoad h _ => h.ok
  | .svSteerLoad h _ _ => h.ok
  | .svKvResend h _ => h.ok
  | .mmCreate h _ _ _ _ => h.ok
  | .mmDelete h _ => h.ok
  | .mmInfo h => h.ok
  | .mmWrite h _ _ bytes => h.ok && decide (bytes.length ≤ 65536)
  | .mmRead h _ _ _ => h.ok
  | .mmMarkInit h _ => h.ok
  | .dbStop h => h.ok
  | .stopSettleDone => true
  | .dbStopNow h => h.ok
  | .stopNowArrival f => fieldExists f
  | .fieldSnapshotLatch f => fieldExists f
  | .dbGo h => h.ok
  | .dbWatchSet h _ _ => h.ok
  | .dbCoreRead h _ => h.ok
  | .dbCoreGo h _ _ => h.ok
  | .dbTraceRead h f _ _ _ => h.ok && decide (f < 256)
  | .dbTraceConfigure h f _ _ _ => h.ok && decide (f < 256)
  | .dbTraceClear h f => h.ok && decide (f < 256)
  | .dbDigestSet h _ => h.ok
  | .dbDigestClear h _ => h.ok
  | .dbDigestClearAll h => h.ok
  | .digestRecord => true
  | .hlConfig h _ => h.ok
  | .hlCounters h _ _ _ _ => h.ok
  | .hlRepairMap h => h.ok
  | .hlLedgerRead h => h.ok
  | .hlFaults h _ _ => h.ok
  | .hlBelfry h f => h.ok && decide (f < 256)
  | .fbPortSet h port _ => h.ok && decide (port < portCount)
  | .fbRouteSet h _ => h.ok
  | .fbJobCreate h id _ _ _ => h.ok && decide (id < 2 ^ 24)
  | .fbJobQuery h id => h.ok && decide (id < 2 ^ 24)
  | .fbJobEnd h id => h.ok && decide (id < 2 ^ 24)
  | .fbBarrier h _ _ _ => h.ok
  | .fbReduce h _ => h.ok
  | .fbMcast h _ => h.ok
  | .fbStatus h => h.ok
  | .fbTime h _ => h.ok
  | .asModeSet h _ => h.ok
  | .asAnswer h _ _ body => h.ok && decide (body.length ≤ 65536)
  | .assistDeadline _ => true
  | .dataFrame conn fr => decide (conn < 2) && fr.ok
  | .linkControlFrame conn fr => decide (conn < 2) && fr.ok
  | .nakFrame conn stream _ => decide (conn < 2) && decide (stream < 6)
  | .hello conn _ _ _ => decide (conn < 2)
  | .helloRetry conn => decide (conn < 2)
  | .idleFrameTimer conn => decide (conn < 2)
  | .connectorDown conn => decide (conn < 2)
  | .connectorTrained conn => decide (conn < 2)
  | .sessionResumeExpiry conn => decide (conn < 2)
  | .dataWrite port p => decide (port < portCount) && p.ok
  | .dataAcknowledgement port p => decide (port < portCount) && p.ok
  | .kvManifest port p => decide (port < portCount) && p.ok
  | .kvPage port p => decide (port < portCount) && p.ok
  | .kvNakTimer i => decide (i < requestEntries)
  | .kvDone port p => decide (port < portCount) && p.ok
  | .kvNak port p => decide (port < portCount) && p.ok
  | .barrierArrive port p => decide (port < portCount) && p.ok
  | .barrierRelease port p => decide (port < portCount) && p.ok
  | .barrierTimeout _ => true
  | .reductionPartial port p => decide (port < portCount) && p.ok
  | .reductionResult port p => decide (port < portCount) && p.ok
  | .multicastData port p => decide (port < portCount) && p.ok
  | .multicastStatus port p => decide (port < portCount) && p.ok
  | .mcastTimeout _ => true
  | .timeProbe port p _ _ => decide (port < portCount) && p.ok
  | .timeReply port p _ => decide (port < portCount) && p.ok
  | .timeMeasurement port _ => decide (port < portCount)
  | .laneFailure port lane => decide (port < portCount) && decide (lane < 8)
  | .portRetrainDone port => decide (port < portCount)
  | .portUp port _ _ _ => decide (port < portCount)
  | .feedValid => true
  | .hotSwapCharged => true
  | .timebaseLock _ _ _ => true
  | .bootChain _ => true
  | .fieldBringup f _ => fieldExists f
  | .stackTraining k _ => decide (k < stackCount)
  | .stackFillDone k _ => decide (k < stackCount)
  | .serviceSet => true
  | .coreRelease => true
  | .powerFail _ => true
  | .powerFailOff => true
  | .handoffWrite _ => true
  | .ledgerCommit => true
  | .ledgerSnapshotDone => true
  | .ledgerCopyRebuilt _ => true
  | .fieldAwake f => fieldExists f
  | .sleepEntryDone f => fieldExists f
  | .connectorLaneFailure conn lane => decide (conn < 2) && decide (lane < 4)
  | .nodeClockOffset conn _ => decide (conn < 2)
  | .extentCleared k extent => decide (k < stackCount) && decide (extent < 768)

end Sys2Proof
end

