-- ==== Sys2Proof/Decode.lean ====
section
/-! DEFINITION. The words of commands. The table of commands gives no row any bits, so no word spells a command; commands
arrive typed, as packets and events. -/

namespace Sys2Proof

/-- The bits that the table of commands gives a row: none of the 265 rows has any. -/
def tableBits : List (Nat × Instr) := []

/-- The command that a word spells by the table's bits. -/
def decodeTableWord (nbits w : Nat) : Option Instr :=
  (tableBits.find? (fun r => r.1 = w ∧ nbits = 0)).map Prod.snd

end Sys2Proof
end

