-- ==== Sys2Proof/Machine/Store.lean ====
section
/-! DEFINITION. The operations of the keyed map and of the byte memory, and the byte order of multi-byte values (R13). -/

namespace Sys2Proof

/-- The record under key `k` in a key-sorted list. -/
def Map.findIn {α : Type} (k : Nat) : List (Nat × α) → Option α
  | [] => none
  | (j, v) :: t => if j = k then some v else Map.findIn k t

/-- The record under key `k`. -/
def Map.find? {α : Type} (m : Map α) (k : Nat) : Option α := Map.findIn k m.entries

/-- The record under key `k`, or `d` where there is none. -/
def Map.find {α : Type} (m : Map α) (k : Nat) (d : α) : α := (m.find? k).getD d

/-- Whether a record stands under key `k`. -/
def Map.has {α : Type} (m : Map α) (k : Nat) : Bool := (m.find? k).isSome

/-- Puts `v` under `k` in a key-sorted list. -/
def Map.putIn {α : Type} (k : Nat) (v : α) : List (Nat × α) → List (Nat × α)
  | [] => [(k, v)]
  | (j, w) :: t =>
    if k < j then (k, v) :: (j, w) :: t
    else if j = k then (k, v) :: t
    else (j, w) :: Map.putIn k v t

/-- The map with `v` under `k`. -/
def Map.put {α : Type} (m : Map α) (k : Nat) (v : α) : Map α := { entries := Map.putIn k v m.entries }

/-- The map without key `k`. -/
def Map.erase {α : Type} (m : Map α) (k : Nat) : Map α := { entries := m.entries.filter (fun e => e.1 ≠ k) }

/-- The keys, rising. -/
def Map.keys {α : Type} (m : Map α) : List Nat := m.entries.map Prod.fst

/-- The records, by rising key. -/
def Map.vals {α : Type} (m : Map α) : List α := m.entries.map Prod.snd

/-- The map with `f` applied to every record. -/
def Map.mapVals {α β : Type} (f : Nat → α → β) (m : Map α) : Map β :=
  { entries := m.entries.map (fun e => (e.1, f e.1 e.2)) }

/-- The map of the records that `p` keeps. -/
def Map.keep {α : Type} (p : Nat → α → Bool) (m : Map α) : Map α :=
  { entries := m.entries.filter (fun e => p e.1 e.2) }

/-- Every unlisted byte of a memory reads as 0: scratchpads and stacks are filled with zeros at power-up (R101, R275), and an
array level is held XOR 8. -/
def Memory.unlisted : Byte := 0

/-- The byte at address `a` of an address-sorted list. -/
def Memory.readIn (a : Nat) : List Host.Cell → Byte
  | [] => Memory.unlisted
  | (b, v) :: t => if b = a then v else Memory.readIn a t

/-- The byte at address `a`. -/
def Memory.read (m : Memory) (a : Nat) : Byte := Memory.readIn a m.cells

/-- Puts byte `v` at `a` in an address-sorted list; the unlisted value removes the entry. -/
def Memory.writeIn (a : Nat) (v : Byte) : List Host.Cell → List Host.Cell
  | [] => if v = Memory.unlisted then [] else [(a, v)]
  | (b, w) :: t =>
    if a < b then (if v = Memory.unlisted then (b, w) :: t else (a, v) :: (b, w) :: t)
    else if b = a then (if v = Memory.unlisted then t else (a, v) :: t)
    else (b, w) :: Memory.writeIn a v t

/-- The memory with byte `v` at address `a`. -/
def Memory.write (m : Memory) (a : Nat) (v : Byte) : Memory := { cells := Memory.writeIn a v m.cells }

/-- The memory with `bytes` at `a`, `a + 1`, …. -/
def Memory.writeAll (m : Memory) (a : Nat) : List Byte → Memory
  | [] => m
  | v :: t => Memory.writeAll (m.write a v) (a + 1) t

/-- The `n` bytes from `a` on. -/
def Memory.readAll (m : Memory) (a n : Nat) : List Byte := (List.range n).map (fun i => m.read (a + i))

/-- The memory without the bytes of addresses that `p` names: they read as 0. -/
def Memory.drop (m : Memory) (p : Nat → Bool) : Memory := { cells := m.cells.filter (fun c => !p c.1) }

/-- Addresses of a cell list strictly rise from above `lo` on, and no cell holds the unlisted value. -/
def Memory.wfFrom : Option Nat → List Host.Cell → Bool
  | _, [] => true
  | lo, (a, v) :: t =>
    (match lo with
      | none => true
      | some b => decide (b < a)) && decide (v ≠ Memory.unlisted) && Memory.wfFrom (some a) t

/-- The canonical form of a memory. -/
def Memory.wf (m : Memory) : Bool := Memory.wfFrom none m.cells

/-- R13: the value of little-endian bytes. -/
def leNat : List Byte → Nat
  | [] => 0
  | b :: t => b.toNat + 256 * leNat t

/-- R13: `n` little-endian bytes of a value. -/
def leBytes : Nat → Nat → List Byte
  | 0, _ => []
  | n + 1, v => BitVec.ofNat 8 v :: leBytes n (v / 256)

/-- The `n` bytes of a list from offset `o` on; past its end they are 0. -/
def bytesAt (l : List Byte) (o n : Nat) : List Byte :=
  (List.range n).map (fun i => (l[o + i]?).getD 0)

/-- The little-endian value of the `n` bytes from offset `o` on. -/
def natAt (l : List Byte) (o n : Nat) : Nat := leNat (bytesAt l o n)

/-- Two's complement reading of the low `n` bits of a value. -/
def signedOf (n v : Nat) : Int :=
  let u := v % 2 ^ n
  if u < 2 ^ (n - 1) then (u : Int) else (u : Int) - (2 ^ n : Nat)

/-- The low `n` bits of an integer in two's complement. -/
def bitsOf (n : Nat) (v : Int) : Nat := (v % ((2 ^ n : Nat) : Int)).toNat

/-- Bit `i` of a number. -/
def bitAt (v i : Nat) : Bool := decide (v / 2 ^ i % 2 = 1)

/-- Bits `lo` up to `lo + n - 1` of a number. -/
def bitsAt (v lo n : Nat) : Nat := v / 2 ^ lo % 2 ^ n

/-- The smallest multiple of `m` that is at least `v`. -/
def roundUp (v m : Nat) : Nat := (v + m - 1) / m * m

/-- The quotient rounded up. -/
def ceilDiv (a b : Nat) : Nat := (a + b - 1) / b

/-- A list with the number `x` in it once, at its place in rising order. -/
def insertNat (x : Nat) : List Nat → List Nat
  | [] => [x]
  | y :: t => if x < y then x :: y :: t else if x = y then y :: t else y :: insertNat x t

/-- A list sorted by a key, equal keys in their order. -/
def insertBy {α : Type} (key : α → Nat) (x : α) : List α → List α
  | [] => [x]
  | y :: t => if key x < key y then x :: y :: t else y :: insertBy key x t

/-- Insertion sort by a key, stable. -/
def sortBy {α : Type} (key : α → Nat) (l : List α) : List α := (l.reverse).foldl (fun acc x =>
  let rec ins : List α → List α
    | [] => [x]
    | y :: t => if key x ≤ key y then x :: y :: t else y :: ins t
  ins acc) []

/-- The first element of a list whose key is least. -/
def leastBy {α : Type} (key : α → Nat) : List α → Option α
  | [] => none
  | x :: t => match leastBy key t with
    | none => some x
    | some y => if key x ≤ key y then some x else some y

end Sys2Proof
end

