-- ==== Sys2Proof/Machine/CoreIsa.lean ====
section
/-! DEFINITION. The instruction words of the control core (R106, R107): decoder and encoder, and CRC-32C (R124). -/

namespace Sys2Proof

/-- Table 4-2: the fields of an instruction word. -/
def wOpcode (w : Word) : Nat := (w.extractLsb' 26 6).toNat
def wRd (w : Word) : BitVec 5 := w.extractLsb' 21 5
def wRa (w : Word) : BitVec 5 := w.extractLsb' 16 5
def wRb (w : Word) : BitVec 5 := w.extractLsb' 11 5
def wFunc (w : Word) : Nat := (w.extractLsb' 0 11).toNat
def wImm (w : Word) : BitVec 16 := w.extractLsb' 0 16
def wOff26 (w : Word) : BitVec 26 := w.extractLsb' 0 26
def wCs (w : Word) : BitVec 9 := w.extractLsb' 0 9

/-- R107, Table 4-3: the instruction a word encodes; none for an undefined opcode or `func`. Reserved fields are ignored. -/
def decodeCore (w : Word) : Option CoreOp :=
  let op := wOpcode w
  let rd := wRd w
  let ra := wRa w
  let rb := wRb w
  let imm := wImm w
  if op = 0x00 then (if wFunc w ≤ 0x00E then some (.alu (BitVec.ofNat 4 (wFunc w)) rd ra rb) else none)
  else if op = 0x01 then some (.addi rd ra imm)
  else if op = 0x02 then some (.andi rd ra imm)
  else if op = 0x03 then some (.ori rd ra imm)
  else if op = 0x04 then some (.xori rd ra imm)
  else if op = 0x05 then some (.shi rd ra imm)
  else if op = 0x06 then some (.lui rd imm)
  else if op = 0x07 then some (.slti rd ra imm)
  else if 0x08 ≤ op ∧ op ≤ 0x0C then some (.load (BitVec.ofNat 3 (op - 0x08)) rd ra imm)
  else if 0x0D ≤ op ∧ op ≤ 0x0F then some (.store (BitVec.ofNat 2 (op - 0x0D)) rd ra imm)
  else if 0x10 ≤ op ∧ op ≤ 0x15 then some (.branch (BitVec.ofNat 3 (op - 0x10)) rd ra imm)
  else if op = 0x16 then some (.jal (wOff26 w))
  else if op = 0x17 then some (.jalr rd ra imm)
  else if op = 0x18 then some (.crd rd imm)
  else if op = 0x19 then some (.cwr ra imm)
  else if op = 0x1A then some (.cst rd ra imm)
  else if op = 0x1B then some (.cld rd ra imm)
  else if 0x20 ≤ op ∧ op ≤ 0x23 then some (.issue (BitVec.ofNat 2 (op - 0x20)) rd ra rb (wCs w))
  else if op = 0x24 then (if wFunc w = 0 then some (.cpop rd ra) else none)
  else if op = 0x25 then some (.wait rd imm)
  else if op = 0x26 then some .fence
  else if op = 0x27 then some .wend
  else if op = 0x28 then some .brk
  else none

/-- Table 4-2, formats A and I (and B, U with `ra`, `rb` in the places of `rd`, `ra`): a word of its fields. -/
def wordA (op : Nat) (rd ra rb : BitVec 5) (func : Nat) : Word :=
  BitVec.ofNat 6 op ++ rd ++ ra ++ rb ++ BitVec.ofNat 11 func
def wordI (op : Nat) (rd ra : BitVec 5) (imm : BitVec 16) : Word := BitVec.ofNat 6 op ++ rd ++ ra ++ imm
def wordJ (op : Nat) (off : BitVec 26) : Word := BitVec.ofNat 6 op ++ off

/-- R106, R107: the word of an instruction, reserved fields 0. -/
def encodeCore : CoreOp → Word
  | .alu f rd ra rb => wordA 0x00 rd ra rb f.toNat
  | .addi rd ra imm => wordI 0x01 rd ra imm
  | .andi rd ra imm => wordI 0x02 rd ra imm
  | .ori rd ra imm => wordI 0x03 rd ra imm
  | .xori rd ra imm => wordI 0x04 rd ra imm
  | .shi rd ra imm => wordI 0x05 rd ra imm
  | .lui rd imm => wordI 0x06 rd 0 imm
  | .slti rd ra imm => wordI 0x07 rd ra imm
  | .load k rd ra imm => wordI (0x08 + k.toNat) rd ra imm
  | .store k rs ra imm => wordI (0x0D + k.toNat) rs ra imm
  | .branch k ra rb off => wordI (0x10 + k.toNat) ra rb off
  | .jal off => wordJ 0x16 off
  | .jalr rd ra imm => wordI 0x17 rd ra imm
  | .crd rd imm => wordI 0x18 rd 0 imm
  | .cwr ra imm => wordI 0x19 0 ra imm
  | .cst rd ra imm => wordI 0x1A rd ra imm
  | .cld rd ra imm => wordI 0x1B rd ra imm
  | .issue k ra rb unit cs => BitVec.ofNat 6 (0x20 + k.toNat) ++ ra ++ rb ++ unit ++ (0 : BitVec 2) ++ cs
  | .cpop rd ra => wordA 0x24 rd ra 0 0
  | .wait rd imm => wordI 0x25 rd 0 imm
  | .fence => wordJ 0x26 0
  | .wend => wordJ 0x27 0
  | .brk => wordJ 0x28 0

/-- Which instructions exist: the `func` and opcode values of Table 4-3. -/
def CoreOp.wellFormed : CoreOp → Bool
  | .alu f _ _ _ => decide (f.toNat ≤ 14)
  | .load k _ _ _ => decide (k.toNat ≤ 4)
  | .store k _ _ _ => decide (k.toNat ≤ 2)
  | .branch k _ _ _ => decide (k.toNat ≤ 5)
  | _ => true

/-- R124: one bit of the reflected CRC-32C (Castagnoli). -/
def crcBit (c : Word) : Word := if c.getLsbD 0 then (c >>> 1) ^^^ 0x82F63B78 else c >>> 1

/-- R124: CRC-32C over one byte. -/
def crcByte (c : Word) (b : Byte) : Word :=
  crcBit (crcBit (crcBit (crcBit (crcBit (crcBit (crcBit (crcBit (c ^^^ b.setWidth 32))))))))

/-- R124: CRC-32C carried over bytes, without the final complement. -/
def crcRun (c : Word) (l : List Byte) : Word := l.foldl crcByte c

/-- CRC-32C of a byte string (R314, R401, R409). -/
def crc32c (l : List Byte) : Word := ~~~ (crcRun 0xFFFFFFFF l)

end Sys2Proof
end

