-- ==== Sys2Proof/Config.lean ====
section
/-! DEFINITION. What one implementation fixes and the manual does not: the free values (constants with no body) and the
functions of standards the manual cites. Nothing can be proved about the value of any of them. -/

namespace Sys2Proof.Config

/-- R51, R54: the charge that a column's chains give, before its offset pulse and its trims, in units of 1/256 pu. Arguments: the
counter of free values, the physical column, the exact chain sum that it approximates. -/
opaque analogColumn : Nat → Nat → Int → Int

/-- R66, R83: the byte that `REF_SAMPLE` writes for a spare column whose converter is unbiased. Arguments: counter, column. -/
opaque unbiasedCode : Nat → Nat → Byte

/-- R43, R143: the level, 0 to 15, that a cell reads back. Arguments: counter, row, column, programmed level. -/
opaque cellRead : Nat → Nat → Nat → BitVec 4 → BitVec 4

/-- R101: the 13 stored bits of a scratchpad byte never written when fill was skipped (core, address). -/
opaque unfilledByte : Nat → Nat → BitVec 13

/-- R276: a byte of a codeblock never written when fill was skipped (stack, address). -/
opaque unfilledStackByte : Nat → Nat → Byte

/-- R276: how an unwritten codeblock decodes when fill was skipped: clean or corrected (false), poisoned (true). -/
opaque unfilledStackPoison : Nat → Nat → Bool

/-- R276: whether the read of an unwritten codeblock strikes the strong decoder (stack, codeblock; log 160). -/
opaque unfilledStackStrong : Nat → Nat → Bool

/-- R271, Table 6-6: the granules of a stack that the factory repair map remaps, with their spares (stack; log 160). -/
opaque factoryGranules : Nat → List (Nat × Nat)

/-- R376: the array firings of the engine test of one engine, of which the spec gives no count (packed address). -/
opaque engineTestFirings : Nat → Nat

/-- R87: by how many ULP, within 2 either way, the vector unit's exp2 (0), reciprocal (1) and reciprocal square root (2) differ
from the value rounded to nearest, the same on every spire (function, operand). -/
opaque ulpOff : Nat → Nat → Int

/-- R91: by how many ULP an element of SiLU, GELU, exp, a row norm or a softmax differs from its formula evaluated with one
rounding an operation: the spec fixes neither the order nor the roundings (operation, the row's operands, the element). -/
opaque vecOff : Nat → List Nat → Nat → Int

/-- R91: which of two equal entries TOPK ranks first (smaller ranks first). -/
opaque topkTie : Nat → Nat

/-- FIPS 180-4 SHA-384: the digest's 48 bytes, the first lowest. -/
opaque digest384 : List Byte → BitVec 384

/-- SHA-384 as a number of 384 bits; where a record holds none, 0 stands for no digest. -/
def sha384 (b : List Byte) : Nat := (digest384 b).toNat

/-- RFC 8017 RSA-PSS and FIPS 205 SLH-DSA verification (public key, signature, message). -/
opaque rsaVerifies : List Byte → List Byte → List Byte → Bool
opaque slhVerifies : List Byte → List Byte → List Byte → Bool

/-- R359: signatures by the module's identity keys over a message. -/
opaque identityRsaSign : List Byte → List Byte
opaque identitySlhSign : List Byte → List Byte

/-- R359: the public parts of the module's identity keys, and its serial number. -/
opaque identityRsaPub : List Byte
opaque identitySlhPub : List Byte
opaque serial : BitVec 128

/-- R359: the identity digest: the key digest of the identity public keys (R346). -/
def identityDigest : Nat := sha384 (identityRsaPub ++ identitySlhPub)

/-- R357: the role-0 public keys of the boot ROM; their key digest is the anchor of role 0 (R356). -/
opaque role0Rsa : List Byte
opaque role0Slh : List Byte
def role0Anchor : Nat := sha384 (role0Rsa ++ role0Slh)

/-- R359: Koravo's two signatures over the serial number and the public parts. -/
opaque koravoRsaSig : List Byte
opaque koravoSlhSig : List Byte

/-- R176, R359: the rest of the factory region: the private parts of the key pair, the ledger secret, the initial repair map. -/
opaque identityPrivate : List Byte
opaque ledgerSecret : List Byte
opaque factoryRepairs : List Byte

/-- RFC 5869 HKDF and FIPS 198 HMAC, both with SHA-384 (secret, information) and (key, message). -/
opaque hkdf384 : List Byte → List Byte → List Byte
opaque hmac384 : List Byte → List Byte → List Byte

/-- R176, R359, Table 6-8: the `mac` of a journal entry over its bytes 0 to 223: the first 32 bytes of its HMAC under the key derived
from the ledger secret with the information string "KVLJ". -/
def journalMac (b : List Byte) : List Byte := (hmac384 (hkdf384 ledgerSecret [0x4B, 0x56, 0x4C, 0x4A]) b).take 32

/-- R347: the nonce drawn at the n-th use of the free counter, 384 bits. -/
opaque nonce : Nat → Nat

/-- R327: the session identifier drawn at the n-th use of the free counter. -/
opaque sessionId : Nat → U64

/-- R35, R191: whether the critical path of a section (placement digest, section) holds KV page reads; no image field says so. -/
opaque kvOnPath : Nat → Nat → Bool

/-- R219: output elements of a layer (placement digest, layer), with which a steering vector's length is compared; no image field
names them. -/
opaque layerOutputs : Nat → Nat → Nat

/-- R190: segment evaluations per slot of an edition (its placement digest) in a field. -/
opaque segEvals : Nat → Nat → Nat

/-- R385 (Table 14-2): stages of phases 2, 4 and 5 of a replay of a section (placement digest, section) with 64 pool cores. -/
opaque replayStages : Nat → Nat → Nat

/-- R385 (Table 14-2): ns of phase 3 of a replay of a section (placement digest, section). -/
opaque replayLoadNs : Nat → Nat → Nat

/-- R381: what a replay rewrites of its position in the KV pages: page group, offset in the page, bytes. -/
opaque replayKv : Nat → List (Nat × Nat × List Byte)

/-- R384: MACs of one output column of a layer for one slot in a replay (placement digest, layer); no image field gives them. -/
opaque columnMacs : Nat → Nat → Nat

/-- R189: the k-th token the draft model proposes after a token at a position (edition, position, token, k). -/
opaque draftToken : Nat → Nat → Nat → Nat → Nat

/-- R88: sign and payload bits of the NaN an FP32 operation returns (the exponent and quiet bits are set beside them). -/
opaque nanPayload : Word

/-- R99: the health event code of "scratchpad remap exhausted", which no table of codes lists. -/
opaque remapExhausted : Nat

/-- R127: the breakpoint number in the trace record of a software breakpoint. -/
opaque brkNumber : Word

/-- R91: the multiplier and the shift with which `VEC` requantises by R80 (the `scale` word, `aux`); no field is named. -/
opaque vecRequant : Word → Nat → Nat × Nat

/-- R156: the rows of a forerunner layer (edition, layer) in the order they are programmed: (index among the edition's kind
0x05 rows in shard order, placement engine, engine row). The image layouts name no reload pool. -/
opaque forerunnerRows : Nat → Nat → List (Nat × Nat × Nat)

/-- R156: where in a pool core's scratchpad a reload row is loaded (core, engine, row), and the firing of R164 that is a reload's
single `REF_SAMPLE`: the spec gives neither. -/
opaque reloadBuffer : Nat → Nat → Nat → Nat
opaque reloadFiring : Nat

/-- R148, R170: the level of a cell of a row that no shard of a rolling edition names, where the base edition and its copies are gone: no
source gives it, and the arrays are never read for it (edition, engine, row, column; log 142). -/
opaque unsourcedLevel : Nat → Nat → Nat → Nat → BitVec 4

/-- R294: whether a section of an edition (placement digest, section) waits for a planned collective of its partition; no image field
says so. -/
opaque waitsCollective : Nat → Nat → Bool

/-- R296: a link beyond this module's own on the path to a module (module ID, index of the link): one-way latency and flit
time in units of 10^-4 ns, and the flit count w. -/
opaque farLink : Nat → Nat → Nat × Nat × Nat

/-- R296: the live uplinks and the flit time (10^-4 ns) of another module. -/
opaque rank0Links : Nat → Nat × Nat

/-- R309, R310: the fabric version that job creation learns from a module not yet in the peer table, 1 to 3. -/
opaque memberVersion : Nat → Nat

/-- The code byte of a state that a reply names and no table numbers (table, item in the order of the spec's list). -/
opaque unlistedCode : Nat → Nat → Nat

/-- The layout of a reply or assist body that no table gives (opcode, the contents in order). -/
opaque layout : Nat → List Nat → List Byte

/-- R385: what a replay's computation gives: the candidate record of one in the last section, and a byte of the hand-off of any
other (by the counter of free values). -/
opaque replayRecord : Nat → List Byte
opaque replayByte : Nat → Byte

/-- R407: the uncertainty in ns, less 1, of a measurement of the control node's clock, for which no table gives a figure. -/
opaque nodeClockAsym : Nat

/-- R416, Table 15-2: flits held in the platforms of a field at a moment (counter of free values), and the most since power-up
(field, timebase): the model holds packets, not the flits on their way. -/
opaque platformFlits : Nat → Nat
opaque platformHigh : Nat → Nat → Nat

/-- R416, Table 15-9: what crosses a link beside the hand-off and reduction packets, in packets (counter of free values): the spec does not
say in how many packets messages, stack accesses and broadcasts cross a station (log 89). -/
opaque otherPackets : Nat → Nat

/-- R376: a monitor's scale from a recalibration in service, whose totals no operand gives (counter of free values). -/
opaque monitorScale : Nat → Nat

/-- R372: an offset, gain or segment trim that calibration gives an array, by the free values it read. -/
opaque calTrim : Nat → Int

end Sys2Proof.Config
end

