-- ==== Sys2Proof/Machine/State.lean ====
section
/-! DEFINITION. The state of the block: every register, queue, table and account the manual gives the module, as plain data,
and the queue of commands that wait. A field's docstring names the file and rule of spec/ that gives it; INVENTORY.md lists
the reset values. -/

namespace Sys2Proof.Machine

/-- No command of this block stops the block: a core's fault (R116), a unit command fault (R85) and a refused packet (R322)
are effects on the state, so there is no reason to stop. Nothing raises a fault; that is safe. -/
inductive Fault where
deriving DecidableEq, Repr

/-- Why a command has no meaning. -/
inductive Refusal where
  /-- The command is not modelled yet, by its mnemonic in spec/opcode_table.json. No meaning raises it; only an arm of the
  dispatch could. Safe: the run stops. -/
  | notModelled (mnemonic : String)
deriving DecidableEq, Repr

/-- R324: a command that takes effect at the first boundary after its acceptance. `conn` and `tag` say where its final reply
goes. -/
inductive Deferred where
  /-- R350: protection entries from partition `first` on. -/
  | prot (first : Nat) (entries : List ProtEntry) (conn : Nat) (tag : Word)
  /-- R350: core map bytes from index `first` on. -/
  | coreMap (first : Nat) (bytes : List Byte) (conn : Nat) (tag : Word)
  /-- R200: SV_CANCEL. -/
  | cancel (req : Nat) (gen : BitVec 7) (conn : Nat) (tag : Word)
  /-- R185: SV_FINISH. -/
  | finish (req : Nat) (gen : BitVec 7) (conn : Nat) (tag : Word)
  /-- R195: SV_PAUSE. -/
  | pause (req : Nat) (gen : BitVec 7) (conn : Nat) (tag : Word)
  /-- R195: SV_RESUME. -/
  | resume (req : Nat) (gen : BitVec 7) (conn : Nat) (tag : Word)
  /-- R437: WT_ABORT. -/
  | abort (edition : Nat) (conn : Nat) (tag : Word)
  /-- R408: DB_DIGEST_SET, clear (none) and clear all (no probe number). -/
  | digest (partition : Nat) (probe : Option Nat) (p : Option ProbeParams) (conn : Nat) (tag : Word)
  /-- R404: HL_COUNTERS in service. -/
  | counters (scope index first count : Nat) (conn : Nat) (tag : Word)
  /-- R337: SS_TAKEOVER. -/
  | takeover (conn : Nat) (tag : Word)
  /-- R374: MG_RESET. -/
  | reset (fast skipFill : Bool) (conn : Nat) (tag : Word)
  /-- R335: AS_MODE_SET. -/
  | modes (partition : Nat) (bits : BitVec 7)
  /-- R233: the record of MG_POLICY_SET: its mode bit, its deepest sleep state and its least gap before COLD. -/
  | policy (partition : Nat) (host : Bool) (depth coldMin : Nat)
  /-- R185, R383: a request that leaves kv_wait to FREE, whose deadline passed without a token in flight, or that a fault report
  ends. -/
  | retire (req : Nat) (gen : BitVec 7) (status : Nat)
deriving DecidableEq, Repr

/-- 13 R363: the timebase loop chosen. -/
inductive Loop where
  | none | a | b
deriving DecidableEq, Repr

/-- 13 R361 Table 13-1: the module state. -/
inductive ModState where
  | noPower | bringUp | inService | stopped | outOfService
deriving DecidableEq, Repr

/-- 13 R361: what the bring-up record names. -/
inductive BringFail where
  | timebase | firmware | factory | ledger | gateField | stackSet | fieldCount
deriving DecidableEq, Repr

/-- 06 R177 Table 6-7: the ledger's field state. -/
inductive FieldRole where
  | absent | service | roundhouse | isolated | failed | ledgerOnly
deriving DecidableEq, Repr

/-- 08 R243 Table 8-9: a field's sleep state. -/
inductive Sleep where
  | lit | idle | dim | dark | cold
deriving DecidableEq, Repr

/-- 08 R251 Table 8-11: where an isolation stands. -/
inductive IsoPhase where
  | none | detected | off | declared
deriving DecidableEq, Repr

/-- 04 R116-R129: what a control core is doing. -/
inductive CoreMode where
  | idle | running | ended | contributed | halting | halted | faulted | hung
deriving DecidableEq, Repr

/-- 05 R132 Table 5-1. -/
inductive EdState where
  | free | building | staged | verifying | ready | current | retained | retiring
deriving DecidableEq, Repr

/-- 05 R133. -/
inductive EdKind where
  | shadow | rolling | forerunner
deriving DecidableEq, Repr

/-- 05 R149 Table 5-6. -/
inductive RollPhase where
  | waiting | drain | rewrite | close | resume
deriving DecidableEq, Repr

/-- 07 R185 Table 7-3. -/
inductive ReqState where
  | free | admitted | prefill | running | siding | draining | retired
deriving DecidableEq, Repr

/-- 07 R201. -/
inductive Role where
  | mixed | prefill | decode
deriving DecidableEq, Repr

/-- 09 R257. -/
inductive StackLink where
  | home | alternate | lost
deriving DecidableEq, Repr

/-- 14 R401 Table 14-5 unit_kind. -/
inductive UnitKind where
  | module | field | core | engine | array | controlCore | spire | dma | station | stack | port | converter
deriving DecidableEq, Repr

/-- 15 R413 R416. -/
inductive StopKind where
  | none | pending | settling | globalStop | nowSpreading | nowStop
deriving DecidableEq, Repr

/-- 08 R234 R241: one temperature sensor. -/
structure Sensor where
  /-- 08_signal_box R234. -/
  code : Nat := 0
  /-- 08_signal_box R241, 06_array R176 (Table 6-7). -/
  broken : Bool := false
  /-- 08_signal_box R235. -/
  hist : List (Nat × Nat) := []
  /-- 08_signal_box R241. -/
  devRounds : Nat := 0
deriving DecidableEq, Repr

/-- 08 R238: one inserted conversion waiting in the belfry. -/
structure SwConv where
  /-- 08_signal_box R236. -/
  channel : Nat := 0
  /-- 08_signal_box R236. -/
  avg : Nat := 0
  /-- 08_signal_box R236. -/
  shift : Nat := 0
  /-- 08_signal_box R239. -/
  core : Option Nat := none
  /-- 08_signal_box R239. -/
  addr : Nat := 0
deriving DecidableEq, Repr

/-- 08 R236: blf_res / blf_sw_res fields. -/
structure BlfResult where
  /-- 08_signal_box R236. -/
  result : BitVec 16 := 0
  /-- 08_signal_box R237. -/
  sat : Bool := false
  /-- 08_signal_box R236. -/
  seq : BitVec 7 := 0
  /-- 08_signal_box R236. -/
  valid : Bool := false
deriving DecidableEq, Repr

/-- 08 R234-R239: a field's housekeeping sampler. -/
structure Belfry where
  /-- 08_signal_box R236 (blf_res0-15). -/
  res : Map BlfResult := .empty
  /-- 08_signal_box R236 (blf_sw_res). -/
  swRes : BlfResult := {}
  /-- 08_signal_box R236 (blf_stamp). -/
  stamp : U64 := 0
  /-- 08_signal_box R236. -/
  roundSeq : BitVec 7 := 0
  /-- 08_signal_box R236. -/
  swSeq : BitVec 7 := 0
  /-- 08_signal_box R236 (blf_sw). -/
  sw : Word := 0
  /-- 08_signal_box R238. -/
  swQueue : List SwConv := []
  /-- 13_bringup R371. -/
  bandgap : Nat := 0
  /-- 08_signal_box R238. -/
  urgent : Map (BitVec 16) := .empty
deriving DecidableEq, Repr

/-- 13 R369 R370: one pace monitor. -/
structure Monitor where
  /-- 13_bringup R370. -/
  kept : Bool := true
  /-- 13_bringup R369. -/
  scale : Map Nat := .empty
  /-- 13_bringup R376: the setpoint and scale of a recalibration, until the next release. -/
  scaleNext : Option (Nat × Nat) := none
  /-- 01_token_path R29. -/
  count : Nat := 0
deriving DecidableEq, Repr

/-- 08 R229: what a decision gives a field: step, grant, setpoint, column of Table 1-3. -/
structure Limits where
  /-- 08_signal_box R225. -/
  step : Nat := 3
  /-- 08_signal_box R224. -/
  grant : Nat := 150
  /-- 08_signal_box R225. -/
  setpoint : Nat := 2
  /-- 01_token_path R31. -/
  band : Nat := 0
deriving DecidableEq, Repr

/-- 08 R229 Table 8-4: limits decided for a field, and from when a boundary applies them. -/
structure Drop where
  /-- 08_signal_box R229. -/
  due : U64 := 0
  /-- 08_signal_box R229. -/
  limits : Limits := {}
  /-- 08_signal_box R233. -/
  asked : Bool := false
deriving DecidableEq, Repr

/-- 01 R36-R37, 08 R223-R232: a field's power, pace and throttle state. -/
structure FieldPower where
  /-- 08_signal_box R225. -/
  t : Nat := 0
  /-- 08_signal_box R225. -/
  step : Nat := 3
  /-- 08_signal_box R225. -/
  setpoint : Nat := 2
  /-- 01_token_path R32. -/
  oldSetpoint : Option Nat := none
  /-- 01_token_path R33. -/
  raised : Option Nat := none
  /-- 01_token_path R36, 08_signal_box R224. -/
  grant : Nat := 150
  /-- 01_token_path R36. -/
  allow : Nat := 1144409
  /-- 01_token_path R37. -/
  allowNext : Nat := 1144409
  /-- 01_token_path R37. -/
  bucket : Nat := 0
  /-- 01_token_path R37. -/
  lastRefill : Option U64 := none
  /-- 08_signal_box R225 (Table 8-2). -/
  planned : Nat := 380
  /-- 08_signal_box R225 (Table 8-2). -/
  hard : Nat := 475
  /-- 08_signal_box R226, 13_bringup R366. -/
  converterOn : Bool := false
  /-- 08_signal_box R226. -/
  foldBack : Option U64 := none
  /-- 08_signal_box R251. -/
  iso : IsoPhase := .none
  /-- 08_signal_box R251. -/
  isoAt : U64 := 0
  /-- 14_faults R401 (Table 14-6 kind 0x0C). -/
  isoAmps : Nat := 0
  /-- 14_faults R401 (Table 14-6 kind 0x0C). -/
  isoMilli : Nat := 0
  /-- 08_signal_box R227. -/
  lastTrigger : U64 := 0
  /-- 08_signal_box R227. -/
  lastLower : U64 := 0
  /-- 08_signal_box R228. -/
  lastHot : U64 := 0
  /-- 08_signal_box R228. -/
  hotSince : Option U64 := none
  /-- 08_signal_box R235. -/
  rate : Int := 0
  /-- 01_token_path R29. -/
  pace : Nat := 0
  /-- 01_token_path R29. -/
  paceAt : Option U64 := none
  /-- 01_token_path R31. -/
  band : Nat := 0
  /-- 08_signal_box R227. -/
  lowerT : Bool := false
  /-- 01_token_path R33. -/
  noWork : Bool := false
  /-- 08_signal_box R229. -/
  drops : List Drop := []
  /-- 08_signal_box R228. -/
  seqT : Option (Nat × List Nat) := none
  /-- 01_token_path R39: the window in which credits of the held-back allowance were last taken, and how many. -/
  heldUse : Nat × Nat := (0, 0)
  /-- 13_bringup R376: the window in which self-tests last took held-back credits, and how many. -/
  testUse : Nat × Nat := (0, 0)
  /-- 05_weights R142. -/
  conc : Nat := 0
  /-- 05_weights R142. -/
  progBusy : Nat := 0
deriving DecidableEq, Repr

/-- 10 R298 R299: one line of a station's reduction store. -/
structure StoreLine where
  /-- 10_fabric R299. -/
  core : Nat := 0
  /-- 10_fabric R299. -/
  offset : Nat := 0
  /-- 10_fabric R298. -/
  length : Nat := 0
  /-- 10_fabric R299. -/
  count : Nat := 0
  /-- 04_control R121. -/
  need : Nat := 0
  /-- 10_fabric R299. -/
  words : List Word := []
  /-- 10_fabric R300. -/
  slots : List Nat := []
  /-- 10_fabric R300. -/
  bad : Bool := false
  /-- 01_token_path R18. -/
  window : Nat := 0
deriving DecidableEq, Repr

/-- 04 R125 Table 4-8a. -/
structure TraceRec where
  /-- 04_control R125. -/
  stamp : U64 := 0
  /-- 04_control R125. -/
  core : Nat := 0
  /-- 04_control R125. -/
  kind : Nat := 0
  /-- 04_control R125. -/
  pc : Nat := 0
  /-- 04_control R125. -/
  data : Word := 0
deriving DecidableEq, Repr

/-- 15 R411: a field's trace buffer. -/
structure TraceBuf where
  /-- 15_observability R411. -/
  fill : Bool := false
  /-- 15_observability R411. -/
  freezeFault : Bool := false
  /-- 15_observability R411. -/
  freezeHalt : Bool := false
  /-- 15_observability R411. -/
  frozen : Bool := false
  /-- 15_observability R411. -/
  recs : List TraceRec := []
  /-- 15_observability R412. -/
  written : Nat := 0
  /-- 15_observability R412. -/
  oldest : Nat := 0
deriving DecidableEq, Repr

/-- 15 R416 Table 15-9: a field snapshot. -/
structure Snapshot where
  /-- 15_observability R416. -/
  state : Nat := 0
  /-- 15_observability R416. -/
  atWend : Nat := 0
  /-- 15_observability R416. -/
  halted : Nat := 0
  /-- 15_observability R416. -/
  window : U64 := 0
  /-- 15_observability R416. -/
  stamp : U64 := 0
  /-- 15_observability R416. -/
  links : List Word := []
  /-- 15_observability R416. -/
  platform : Nat := 0
  /-- 15_observability R416. -/
  queued : Nat := 0
deriving DecidableEq, Repr

/-- one field: its roles, power, belfry, station and trace buffer. -/
structure Field where
  /-- 06_array R177. -/
  role : FieldRole := .absent
  /-- 13_bringup R366 (Table 13-4). -/
  code : Nat := 0x17
  /-- 13_bringup R366. -/
  brought : Bool := false
  /-- 08_signal_box R234. -/
  sensors : Map Sensor := .empty
  /-- 08_signal_box R241, 06_array R176 (Table 6-7): the broken marks of the sensors that the ledger holds. -/
  marked : BitVec 8 := 0
  /-- 08_signal_box R234. -/
  belfry : Belfry := {}
  /-- 01_token_path R29. -/
  monitors : Map Monitor := .empty
  /-- 08_signal_box R225. -/
  power : FieldPower := {}
  /-- 08_signal_box R243. -/
  sleep : Sleep := .lit
  /-- 08_signal_box R243. -/
  sleepTo : Option (Sleep × U64) := none
  /-- 08_signal_box R245. -/
  wakeAt : Option U64 := none
  /-- 08_signal_box R246. -/
  wakeWanted : Bool := false
  /-- 08_signal_box R244. -/
  darkSince : U64 := 0
  /-- 08_signal_box R244. -/
  scrubWake : Bool := false
  /-- 15_observability R403. -/
  sleepAt : U64 := 0
  /-- 08_signal_box R243. -/
  resident : Nat := 0
  /-- 06_array R161. -/
  ageAcc : Nat := 0
  /-- 06_array R178: the accumulator as last committed. -/
  ageKept : Nat := 0
  /-- 06_array R161. -/
  agedAt : Option U64 := none
  /-- 06_array R176 (Table 6-7). -/
  poweredS : Nat := 0
  /-- 06_array R176 (Table 6-7). -/
  isolations : Nat := 0
  /-- 06_array R176 (Table 6-7). -/
  ledgerCopy : Nat := 0
  /-- 08_signal_box R251. -/
  fenced : Bool := false
  /-- 14_faults R398. -/
  lost : Bool := false
  /-- 13_bringup R374. -/
  calTemp : Nat := 0
  /-- 13_bringup R371. -/
  lanesOk : Bool := false
  /-- 13_bringup R371 (Table 13-5). -/
  wires : List (Nat × Nat × List Nat) := []
  /-- 13_bringup R371 (Table 13-5). -/
  linksDown : List Nat := []
  /-- 13_bringup R362. -/
  stationOnly : Bool := false
  /-- 13_bringup R366 (Table 13-4). -/
  unrecorded : Bool := false
  /-- 13_bringup R372. -/
  calBase : Option Nat := none
  /-- 14_faults R393. -/
  hungFrom : U64 := 0
  /-- 01_token_path R26. -/
  detour : Bool := false
  /-- 01_token_path R26. -/
  detours : Map (List Nat) := .empty
  /-- 08_signal_box R243. -/
  workEnd : U64 := 0
  /-- 10_fabric R298. -/
  store : List StoreLine := []
  /-- 10_fabric R299, R300: the lines of this window that are written and freed, their words gone. -/
  full : List StoreLine := []
  /-- 15_observability R416 (Table 15-9). -/
  links : Map Word := .empty
  /-- 15_observability R411. -/
  trace : TraceBuf := {}
  /-- 15_observability R403 (Table 15-2). -/
  ctr : Map Nat := .empty
  /-- 15_observability R416. -/
  stopArrived : Bool := false
  /-- 15_observability R416. -/
  snap : Option Snapshot := none
  /-- 15_observability R416 (Table 15-9). -/
  lastWindow : Nat := 0
  /-- 04_control R113. -/
  blfInbox : List (Nat × List Byte) := []
deriving DecidableEq, Repr

/-- 03 R82, 04 R112: a unit command waiting in a queue. -/
structure Cmd where
  /-- 03_engines R83. -/
  bytes : List Byte := []
  /-- 04_control R115. -/
  seq : Option Nat := none
  /-- 04_control R115. -/
  unit : Nat := 0
  /-- 03_engines R85. -/
  poison : Bool := false
  /-- 05_weights R142. -/
  rows : List Byte := []
  /-- 06_array R159. -/
  job : Nat := 0
  /-- 04_control R124. -/
  word : Word := 0
deriving DecidableEq, Repr

/-- 02, 06: one resistive array. -/
structure Array where
  /-- 02_resistive R41 R42. -/
  levels : Memory := {}
  /-- 02_resistive R43. -/
  stuck : Map Byte := .empty
  /-- 02_resistive R64 (Table 2-6). -/
  trim : Word := 0
  /-- 13_bringup R376: the calibration records of a matching, until the next release. -/
  calNext : Option Nat := none
  /-- 02_resistive R65 (Table 2-9). -/
  colMap : List (BitVec 16) := List.replicate 8 0
  /-- 03_engines R83 (LOAD_TRIM). -/
  shadow : Option (Word × List (BitVec 16)) := none
  /-- 02_resistive R65: rows programmed under the shadow copy's column map. -/
  mapRows : List Nat := []
  /-- 02_resistive R67, 06_array R176 (Table 6-7 colmap): the column map of the ledger. -/
  mapLedger : List (BitVec 16) := List.replicate 8 0
  /-- 06_array R176 (Table 6-7 trim). -/
  sampled : Word := 0
  /-- 06_array R176 (Table 6-7 birth_trim). -/
  birth : Word := 0
  /-- 06_array R176 (Table 6-7 t_birth). -/
  tBirth : Int := 60
  /-- 06_array R176 (Table 6-7 t_trim). -/
  tTrim : Int := 60
  /-- 06_array R178, 13_bringup R364: `sampled`, `tTrim`, `birth` and `tBirth` as last committed to the ledger. -/
  trimKept : Word × Int × Word × Int := (0, 60, 0, 60)
  /-- 06_array R165. -/
  sampledAt : U64 := 0
  /-- 06_array R162. -/
  stamp : Nat := 0
  /-- 06_array R159. -/
  wear : Nat := 0
  /-- 06_array R176 (Table 6-7). -/
  state : Nat := 0
  /-- 06_array R168. -/
  refOpen : Bool := false
  /-- 06_array R168. -/
  refDue : Bool := false
  /-- 06_array R166. -/
  trimLimit : Bool := false
  /-- 06_array R168. -/
  overdueAt : Option U64 := none
  /-- 05_weights R143. -/
  progAt : Map U64 := .empty
  /-- 05_weights R143. -/
  reprog : List Nat := []
  /-- 06_array R162. -/
  jobRows : List Nat := []
  /-- 06_array R159. -/
  job : Nat := 0
  /-- 06_array R159. -/
  jobTwice : Bool := false
  /-- 05_weights R143. -/
  verified : List Nat := []
  /-- 05_weights R145, 06_array R165. -/
  trimmed : Bool := true
  /-- 06_array R164. -/
  samplePass : Bool := false
  /-- 06_array R165, 01_token_path R39: credits already taken for the pass that is due. -/
  samplePaid : Nat := 0
  /-- 05_weights R156: its rows are those of a forerunner reload. -/
  reload : Bool := false
  /-- 13_bringup R372. -/
  cal : Option Nat := none
  /-- 15_observability R403. -/
  firings : Nat := 0
  /-- 15_observability R403. -/
  refDev : Nat := 0
  /-- 15_observability R403. -/
  clips : Nat := 0
deriving DecidableEq, Repr

/-- 06 R170: an engine refresh by spare rotation in progress. -/
structure Refresh where
  /-- 06_array R170. -/
  spare : Nat := 0
  /-- 06_array R170 (Table 6-2). -/
  phase : Nat := 0
  /-- 06_array R170. -/
  settleAt : U64 := 0
  /-- 06_array R170. -/
  edition : Nat := 0
  /-- 06_array R171. -/
  inPlace : Bool := false
  /-- 06_array R169. -/
  assist : Option Nat := none
  /-- 06_array R169. -/
  startAt : U64 := 0
  /-- 06_array R173. -/
  repair : Bool := false
  /-- 06_array R159. -/
  job : Nat := 0
deriving DecidableEq, Repr

/-- 03: one engine. -/
structure Engine where
  /-- 03_engines R82. -/
  queue : List Cmd := []
  /-- 03_engines R82. -/
  done : Option (Word × Cmd) := none
  /-- 01_token_path R37. -/
  paid : Nat := 0
  /-- 02_resistive R42. -/
  arrays : Map Array := .empty
  /-- 13_bringup R367. -/
  failed : Bool := false
  /-- 14_faults R396. -/
  fenced : Bool := false
  /-- 06_array R170. -/
  refresh : Option Refresh := none
  /-- 05_weights R142. -/
  rowsLeft : List (Nat × Nat × List Byte) := []
deriving DecidableEq, Repr

/-- 03 R99: one row remap entry of a core. -/
structure Remap where
  /-- 03_engines R99. -/
  line : Nat := 0
  /-- 03_engines R99. -/
  spare : Nat := 0
deriving DecidableEq, Repr

/-- 03 R92-R101, 08 R247: one core's scratchpad. -/
structure Scratch where
  /-- 03_engines R92. -/
  mem : Memory := {}
  /-- 03_engines R95. -/
  errs : Map (BitVec 13) := .empty
  /-- 03_engines R101. -/
  filled : Bool := true
  /-- 03_engines R101. -/
  written : List Nat := []
  /-- 08_signal_box R249. -/
  voidBanks : BitVec 8 := 0
  /-- 08_signal_box R247. -/
  gated : BitVec 8 := 0
  /-- 08_signal_box R247. -/
  gateReq : List (Nat × BitVec 8 × Bool) := []
  /-- 03_engines R99. -/
  remap : List Remap := []
  /-- 13_bringup R371 (Table 13-5): the spare lines that failed the march. -/
  badSpares : List Nat := []
  /-- 03_engines R99. -/
  copying : List Remap := []
  /-- 03_engines R99. -/
  waiting : List Remap := []
  /-- 03_engines R98. -/
  hard : List Nat := []
  /-- 03_engines R98. -/
  rewrote : List (Nat × Nat) := []
  /-- 03_engines R98. -/
  scrubbed : Map U64 := .empty
deriving DecidableEq, Repr

/-- 04 R121: a placement core entry. -/
structure CoreRec where
  /-- 04_control R121. -/
  core : Nat := 0
  /-- 04_control R121. -/
  sect : Nat := 0
  /-- 04_control R121. -/
  spire : Bool := false
  /-- 04_control R121. -/
  resCount : Nat := 0
  /-- 04_control R121. -/
  resFirst : Nat := 0
  /-- 04_control R121. -/
  hoff0 : Nat := 0
  /-- 04_control R121. -/
  hoff1 : Nat := 0
  /-- 04_control R121. -/
  hoffLen : Nat := 0
  /-- 04_control R121. -/
  wrecBase : Nat := 0
deriving DecidableEq, Repr

/-- 04 R121: a placement resident region. -/
structure ResRec where
  /-- 04_control R121. -/
  addr : Nat := 0
  /-- 04_control R121. -/
  length : Nat := 0
  /-- 04_control R121. -/
  src : Nat := 0
deriving DecidableEq, Repr

/-- 04: one core, its control core, engines, spire and DMA/fill unit. -/
structure Core where
  /-- 04_control R117. -/
  mode : CoreMode := .idle
  /-- 04_control R102. -/
  regs : Vector Word 32 := Vector.replicate 32 0
  /-- 04_control R102. -/
  poison : BitVec 32 := 0
  /-- 04_control R103. -/
  pc : BitVec 16 := 0
  /-- 04_control R107. -/
  waitMask : Option (BitVec 2 × BitVec 5) := none
  /-- 04_control R103. -/
  prog : Map Word := .empty
  /-- 04_control R123, 13_bringup R362. -/
  progFill : Word := 0
  /-- 04_control R103. -/
  cmds : Map Word := .empty
  /-- 03_engines R92. -/
  sp : Scratch := {}
  /-- 04_control R121. -/
  entry : CoreRec := {}
  /-- 04_control R118 R122. -/
  start : Nat := 0
  /-- 05_weights R130. -/
  edition : Nat := 0
  /-- 03_engines R100. -/
  residents : List ResRec := []
  /-- 04_control R105 (place_id). -/
  placeId : Option Nat := none
  /-- 04_control R105 (hoff_rd). -/
  hoffRd : Word := 0
  /-- 04_control R105 (wrec). -/
  wrec : Word := 0
  /-- 04_control R105 (window_lo/hi). -/
  window : U64 := 0
  /-- 04_control R105 (tb_hi). -/
  tbHi : Word := 0
  /-- 04_control R105 (tb_cmp). -/
  tbCmp : Word := 0
  /-- 04_control R124. -/
  sig : Word := 0xFFFFFFFF
  /-- 04_control R125. -/
  traceCtl : BitVec 3 := 0
  /-- 04_control R105. -/
  faultCause : Word := 0
  /-- 04_control R105. -/
  faultPc : Word := 0
  /-- 04_control R126. -/
  bp : Vector Word 4 := Vector.replicate 4 0
  /-- 04_control R126. -/
  wpLo : Word := 0
  /-- 04_control R126. -/
  wpHi : Word := 0
  /-- 04_control R126. -/
  wpCtl : BitVec 4 := 0
  /-- 04_control R129. -/
  passBp : Bool := false
  /-- 04_control R129. -/
  stepping : Bool := false
  /-- 04_control R105 (emap0-3), 00_scope R5. -/
  emap : List Nat := [0,1,2,3,4,5,6,7,8,9,10,11,12,13,14,15]
  /-- 04_control R115. -/
  cpl : List (Word × Word) := []
  /-- 04_control R115. -/
  unpopped : Nat := 0
  /-- 04_control R115. -/
  unitSeq : Map Nat := .empty
  /-- 04_control R108. -/
  stores : List (Nat × Nat) := []
  /-- 00_scope R5. -/
  engines : Map Engine := .empty
  /-- 03_engines R90. -/
  spireQ : List Cmd := []
  /-- 03_engines R90. -/
  spireDone : Option (Word × Cmd) := none
  /-- 04_control R114. -/
  dmaQ : List Cmd := []
  /-- 04_control R114. -/
  dmaDone : Option (Word × Cmd) := none
  /-- 13_bringup R367. -/
  good : Bool := false
  /-- 13_bringup R367 (Table 6-6 core state). -/
  failed : Bool := false
  /-- 14_faults R393 R396. -/
  fenced : Bool := false
  /-- 14_faults R394. -/
  faultAt : Option U64 := none
  /-- 04_control R116. -/
  faultedWin : Bool := false
  /-- 04_control R119. -/
  contrib : Option (Word × Bool) := none
  /-- 12_partitions R352. -/
  clearing : Bool := false
  /-- 12_partitions R352, 06_array R159: the repair job of the clear. -/
  clearJob : Option Nat := none
  /-- 12_partitions R352: the clear's rows and stores are written; its arrays await their samples. -/
  clearDone : Bool := false
  /-- 15_observability R416. -/
  stopped : Bool := false
  /-- 15_observability R411. -/
  traceQ : List TraceRec := []
  /-- 14_faults R395. -/
  named : List Nat := []
  /-- 14_faults R395. -/
  marked : Bool := false
  /-- 03_engines R85. -/
  commandFault : Bool := false
  /-- 01_token_path R19. -/
  fed : List (Word × Nat × Nat) := []
deriving DecidableEq, Repr

/-- 03 R81, 10 R299: a hand-off or reduction packet on the wafer. -/
structure Edge where
  /-- 03_engines R81, 04_control R120. -/
  dest : Nat := 0
  /-- 03_engines R81. -/
  src : Nat := 0
  /-- 03_engines R81. -/
  engine : Nat := 0
  /-- 03_engines R83. -/
  slot : Nat := 0
  /-- 03_engines R81. -/
  offset : Nat := 0
  /-- 03_engines R81. -/
  bytes : List Byte := []
  /-- 09_stacks R274. -/
  bad : List Nat := []
  /-- 03_engines R81. -/
  reduce : Bool := false
  /-- 10_fabric R299. -/
  count : Nat := 1
  /-- 01_token_path R18. -/
  window : Nat := 0
  /-- 03_engines R83. -/
  layer : Nat := 0
deriving DecidableEq, Repr

/-- 09 R271: one stack remap entry. -/
structure GranMap where
  /-- 09_stacks R271. -/
  granule : Nat := 0
  /-- 09_stacks R271. -/
  spare : Nat := 0
deriving DecidableEq, Repr

/-- 09: one memory stack. -/
structure Stack where
  /-- 13_bringup R362. -/
  trained : Bool := false
  /-- 09_stacks R275. -/
  fillDone : Bool := false
  /-- 09_stacks R275. -/
  filled : Bool := false
  /-- 09_stacks R257. -/
  link : StackLink := .home
  /-- 09_stacks R257. -/
  switchAt : Option U64 := none
  /-- 09_stacks R257: its active attach field is fenced and not yet declared isolated. -/
  cut : Bool := false
  /-- 09_stacks R256. -/
  mem : Memory := {}
  /-- 09_stacks R267. -/
  errs : Map Byte := .empty
  /-- 09_stacks R267. -/
  parErr : List Nat := []
  /-- 09_stacks R267. -/
  flags : Map (BitVec 3) := .empty
  /-- 09_stacks R276. -/
  writtenCb : List Nat := []
  /-- 09_stacks R271. -/
  remap : List GranMap := []
  /-- 09_stacks R271. -/
  copying : List GranMap := []
  /-- 09_stacks R271. -/
  waiting : List GranMap := []
  /-- 09_stacks R271. -/
  hard : List Nat := []
  /-- 09_stacks R271. -/
  rewrote : List (Nat × Nat) := []
  /-- 09_stacks R269. -/
  strong : Nat := 0
  /-- 09_stacks R257. -/
  voidWrites : Nat := 0
  /-- 09_stacks R261. -/
  used : List Nat := []
  /-- 12_partitions R353. -/
  clearing : List Nat := []
  /-- 09_stacks R261, 12_partitions R343 R353: the partition whose bytes an extent holds. -/
  owner : Map Nat := .empty
  /-- 15_observability R403. -/
  ctr : Map Nat := .empty
  /-- 09_stacks R270. -/
  patrolled : Map U64 := .empty
deriving DecidableEq, Repr

/-- 09 R259-R262: a stack region. -/
structure Region where
  /-- 09_stacks R261. -/
  stackSet : List Nat := []
  /-- 09_stacks R261. -/
  size : Nat := 0
  /-- 09_stacks R261. -/
  extents : List (List Nat) := []
  /-- 09_stacks R262. -/
  inited : Bool := false
  /-- 09_stacks R262. -/
  filling : Option (Nat × Word) := none
  /-- 09_stacks R262. -/
  fillAt : Nat := 0
  /-- 09_stacks R261. -/
  madeIn : Nat := 0
  /-- 09_stacks R277. -/
  void : Bool := false
deriving DecidableEq, Repr

/-- 07 R218: a registered steering set. -/
structure SteerSet where
  /-- 07_serving R218. -/
  offset : Nat := 0
  /-- 07_serving R218. -/
  length : Nat := 0
deriving DecidableEq, Repr

/-- 07 R214: a registered grammar table. -/
structure Grammar where
  /-- 07_serving R214. -/
  offset : Nat := 0
deriving DecidableEq, Repr

/-- 15 R408: an installed tensor digest probe. -/
structure Probe where
  /-- 15_observability R408. -/
  kind : Nat := 0
  /-- 15_observability R408. -/
  flags : BitVec 3 := 0
  /-- 15_observability R408. -/
  layer : Nat := 0
  /-- 15_observability R408. -/
  core : Nat := 0
  /-- 15_observability R408. -/
  cAddr : Nat := 0
  /-- 15_observability R408. -/
  tag : Word := 0
  /-- 15_observability R408. -/
  ringRecords : Nat := 0
  /-- 15_observability R408. -/
  ring : Nat := 0
deriving DecidableEq, Repr

/-- 05 R146 R148: a pending edition switch. -/
structure SwitchReq where
  /-- 05_weights R146. -/
  edition : Nat := 0
  /-- 05_weights R148. -/
  rolling : Bool := false
  /-- 05_weights R148. -/
  endPinned : Bool := false
  /-- 05_weights R146. -/
  earliest : Nat := 0
  /-- 05_weights R146. -/
  conn : Nat := 0
  /-- 05_weights R146. -/
  cmdTag : Word := 0
deriving DecidableEq, Repr

/-- 12, 07: one partition. -/
structure Partition where
  /-- 12_partitions R340 (Table 12-1). -/
  entry : ProtEntry := {}
  /-- 07_serving R187. -/
  classes : Map ClassRec := .empty
  /-- 07_serving R201. -/
  role : Role := .mixed
  /-- 11_alaok R335. -/
  modes : BitVec 7 := 0
  /-- 08_signal_box R233 (Table 8-5). -/
  maxDepth : Nat := 2
  /-- 08_signal_box R233 (Table 8-5). -/
  coldMin : Nat := 1000
  /-- 07_serving R182. -/
  fresh : Nat := 0
  /-- 07_serving R182. -/
  freed : List Nat := []
  /-- 07_serving R214. -/
  grammars : Map Grammar := .empty
  /-- 07_serving R218. -/
  steers : Map SteerSet := .empty
  /-- 09_stacks R260. -/
  regions : Map Region := .empty
  /-- 15_observability R408. -/
  probes : Map Probe := .empty
  /-- 15_observability R409. -/
  digestSeq : Word := 0
  /-- 05_weights R131. -/
  current : Nat := 0
  /-- 05_weights R146. -/
  switch : Option SwitchReq := none
  /-- 06_array R171. -/
  refreshPolicy : Nat := 0
  /-- 15_observability R403. -/
  ctr : Map Nat := .empty
deriving DecidableEq, Repr

/-- 05 R134 R136: a staged or held shard. -/
structure ShardRec where
  /-- 05_weights R135. -/
  kind : Nat := 0
  /-- 05_weights R134. -/
  target : Nat := 0
  /-- 05_weights R134. -/
  firstRow : Nat := 0
  /-- 05_weights R134. -/
  rowCount : Nat := 0
  /-- 05_weights R134. -/
  stackDst : Nat := 0
  /-- 05_weights R135. -/
  payload : List Byte := []
  /-- 05_weights R136. -/
  held : Option (Nat × Word) := none
  /-- 10_fabric R305: the multicast that brought it: its job, its origin's rank and its number. -/
  via : Option (Nat × Nat × Nat) := none
deriving DecidableEq, Repr

/-- 05 R331: a shard partly received. -/
structure PartShard where
  /-- 11_alaok R331. -/
  length : Nat := 0
  /-- 11_alaok R331. -/
  frags : List (Nat × List Byte) := []
  /-- 05_weights R139, 11_alaok R331: where it lies in the staging region. -/
  place : Nat := 0
deriving DecidableEq, Repr

/-- 04 R121: a placement section entry. -/
structure SectionRec where
  /-- 04_control R121. -/
  firstLayer : Nat := 0
  /-- 04_control R121. -/
  lastLayer : Nat := 0
  /-- 04_control R121. -/
  coreCount : Nat := 0
  /-- 04_control R121. -/
  stackTier : Bool := false
  /-- 04_control R121. -/
  workStages : Nat := 0
  /-- 04_control R121. -/
  fixedNs : Nat := 0
deriving DecidableEq, Repr

/-- 04 R121: a placement reduction entry. -/
structure RedRec where
  /-- 04_control R121. -/
  dest : Nat := 0
  /-- 04_control R121. -/
  offset : Nat := 0
  /-- 04_control R121. -/
  length : Nat := 0
  /-- 04_control R121. -/
  contributors : Nat := 0
deriving DecidableEq, Repr

/-- 04 R121: a parsed placement image. -/
structure Placement where
  /-- 04_control R121. -/
  edition : Nat := 0
  /-- 04_control R121. -/
  sections : List SectionRec := []
  /-- 04_control R121. -/
  cores : List CoreRec := []
  /-- 04_control R121. -/
  residents : List ResRec := []
  /-- 04_control R121. -/
  reductions : List RedRec := []
deriving DecidableEq, Repr

/-- 04 R122: a step-program slice. -/
structure Slice where
  /-- 04_control R122. -/
  core : Nat := 0
  /-- 04_control R122. -/
  entry : Nat := 0
  /-- 04_control R122. -/
  code : List Byte := []
  /-- 04_control R122. -/
  cs : List Byte := []
deriving DecidableEq, Repr

/-- 07 R202 Table 7-8. -/
structure ServingRec where
  /-- 07_serving R202. -/
  vocab : Nat := 0
  /-- 07_serving R202. -/
  posPerPage : Nat := 0
  /-- 07_serving R202. -/
  groups : Nat := 0
  /-- 07_serving R202. -/
  maxLen : Nat := 0
  /-- 07_serving R202. -/
  draftMax : Nat := 0
  /-- 07_serving R202. -/
  sampleCore : Nat := 0
  /-- 07_serving R202. -/
  draftCore : Nat := 0
deriving DecidableEq, Repr

/-- 05 R149: a rolling switch or refresh hold in progress. -/
structure Rolling where
  /-- 05_weights R149. -/
  phase : RollPhase := .waiting
  /-- 05_weights R150. -/
  gateAt : U64 := 0
  /-- 05_weights R150. -/
  hUs : Nat := 0
  /-- 05_weights R148. -/
  base : Nat := 0
  /-- 06_array R171. -/
  refresh : Bool := false
deriving DecidableEq, Repr

/-- 05: one edition. -/
structure Edition where
  /-- 05_weights R131. -/
  partition : Nat := 0
  /-- 05_weights R132. -/
  state : EdState := .free
  /-- 05_weights R133. -/
  kind : EdKind := .shadow
  /-- 06_array R159. -/
  job : Nat := 0
  /-- 05_weights R133. -/
  base : Nat := 0
  /-- 05_weights R133. -/
  golden : Bool := false
  /-- 06_array R174. -/
  goldenRuns : List (Nat × Nat × Nat) := []
  /-- 11_alaok R330. -/
  manLen : Nat := 0
  /-- 05_weights R133. -/
  manifest : List Byte := []
  /-- 11_alaok R331. -/
  manDone : Bool := false
  /-- 05_weights R133. -/
  shardCount : Nat := 0
  /-- 05_weights R133. -/
  arrayRows : Nat := 0
  /-- 05_weights R133. -/
  stackBytes : Nat := 0
  /-- 05_weights R139. -/
  staging : Nat := 0
  /-- 05_weights R136. -/
  staged : Map ShardRec := .empty
  /-- 05_weights R136. -/
  held : Map ShardRec := .empty
  /-- 11_alaok R331. -/
  parts : Map PartShard := .empty
  /-- 04_control R121. -/
  placement : Option Placement := none
  /-- 04_control R122. -/
  slices : List Slice := []
  /-- 09_stacks R260. -/
  regions : Map Region := .empty
  /-- 07_serving R202. -/
  serving : Option ServingRec := none
  /-- 14_faults R388. -/
  pairs : List (Nat × Nat) := []
  /-- 14_faults R388. -/
  pairTol : Nat := 0
  /-- 11_alaok R330. -/
  closeCmd : Option (Nat × Word) := none
  /-- 11_alaok R330. -/
  openCmd : Option (Nat × Word) := none
  /-- 07_serving R188. -/
  drep : Nat := 1
  /-- 07_serving R188. -/
  frame : Nat := 0
  /-- 07_serving R190. -/
  entryLimit : Nat := 0
  /-- 07_serving R190. -/
  bmax : Nat := 0
  /-- 05_weights R149. -/
  rolling : Option Rolling := none
  /-- 05_weights R139: where in the staging region a staged shard lies: offset and bytes. -/
  stagedAt : Map (Nat × Nat) := .empty
  /-- 14_faults R398. -/
  noService : Bool := false
  /-- 05_weights R154. -/
  retireEnd : Bool := false
  /-- 05_weights R148. -/
  noPinned : Bool := false
  /-- 05_weights R143. -/
  repairMissing : Bool := false
  /-- 05_weights R157. -/
  reloads : List (Nat × U64) := []
  /-- 07_serving R202: its records were found bad at its `WT_CLOSE`. -/
  badRecords : Bool := false
deriving DecidableEq, Repr

/-- 07: one request table entry. -/
structure Req where
  /-- 07_serving R185. -/
  state : ReqState := .free
  /-- 07_serving R183. -/
  gen : BitVec 7 := 0
  /-- 07_serving R182. -/
  partition : Nat := 0
  /-- 07_serving R185. -/
  kvWait : Bool := false
  /-- 07_serving R184 (Table 7-2). -/
  desc : Desc := {}
  /-- 07_serving R187. -/
  cls : ClassRec := {}
  /-- 05_weights R152. -/
  edition : Nat := 0
  /-- 05_weights R152. -/
  follow : Bool := false
  /-- 11_alaok R322. -/
  acceptedAt : U64 := 0
  /-- 07_serving R192. -/
  acceptedWin : Nat := 0
  /-- 07_serving R196. -/
  order : Nat := 0
  /-- 07_serving R192. -/
  period : Nat := 0
  /-- 07_serving R189. -/
  nextVisit : Nat := 0
  /-- 07_serving R206. -/
  depth : Nat := 0
  /-- 07_serving R207. -/
  singles : Nat := 0
  /-- 07_serving R192. -/
  prefill : List (Nat × Nat) := []
  /-- 07_serving R192. -/
  prefillPos : Nat := 0
  /-- 07_serving R208. -/
  committed : Nat := 0
  /-- 01_token_path R19. -/
  lastToken : Nat := 0
  /-- 07_serving R197. -/
  fedAt : Nat := 0
  /-- 07_serving R206. -/
  drafts : List Nat := []
  /-- 07_serving R208. -/
  gstate : Word := 0xFFFFFFFF
  /-- 07_serving R192. -/
  pages : List Nat := []
  /-- 07_serving R192. -/
  firstNs : Nat := 0
  /-- 07_serving R193. -/
  betweenNs : Nat := 0
  /-- 07_serving R193. -/
  firstDone : Bool := false
  /-- 07_serving R193. -/
  lastStamp : U64 := 0
  /-- 07_serving R197. -/
  suspended : Bool := false
  /-- 07_serving R197. -/
  sidedFlag : Bool := false
  /-- 07_serving R195. -/
  causes : BitVec 4 := 0
  /-- 07_serving R197. -/
  sidedOrder : Nat := 0
  /-- 07_serving R185. -/
  sidedFrom : ReqState := .running
  /-- 07_serving R193. -/
  lateCause : Nat := 0
  /-- 07_serving R194. -/
  kept : Bool := false
  /-- 07_serving R222 (Table 7-16). -/
  closing : Option Bool := none
  /-- 07_serving R199. -/
  pastDeadline : Bool := false
  /-- 07_serving R185. -/
  ended : Option Nat := none
  /-- 11_alaok R333. -/
  number : Nat := 0
  /-- 07_serving R221. -/
  delivered : Nat := 0
  /-- 07_serving R221. -/
  consumed : Nat := 0
  /-- 07_serving R221. -/
  buffered : List (List Byte) := []
  /-- 11_alaok R329. -/
  tokens : Nat := 0
  /-- 05_weights R149. -/
  held : Bool := false
  /-- 07_serving R205. -/
  kvHave : List Nat := []
  /-- 10_fabric R306. -/
  kvParts : Map Nat := .empty
  /-- 07_serving R203. -/
  kvManifest : List (Nat × List Byte) := []
  /-- 07_serving R203. -/
  kvFromPage : List (Nat × List Byte) := []
  /-- 10_fabric R306. -/
  kvSrc : Nat := 0
  /-- 07_serving R204. -/
  kvNaks : List Nat := []
  /-- 10_fabric R306. -/
  kvLast : U64 := 0
  /-- 10_fabric R285: the first message number of the pages that this request ships. -/
  shipSeq : Nat := 0
  /-- 10_fabric R285: the number of the first page message received. -/
  kvSeq : Option Nat := none
  /-- 10_fabric R306. -/
  kvDue : U64 := 0
  /-- 11_alaok R328. -/
  kvCmd : Option (Nat × Word) := none
  /-- 07_serving R204. -/
  shipping : Bool := false
  /-- 07_serving R186. -/
  finalStatus : Nat := 0
  /-- 07_serving R215. -/
  assistWait : Option Nat := none
deriving DecidableEq, Repr

/-- 01 R22, 14 R379: one section pass in progress. -/
structure Slot where
  /-- 14_faults R379. -/
  id : Nat := 0
  /-- 04_control R117. -/
  req : Nat := 0
  /-- 04_control R117. -/
  gen : BitVec 7 := 0
  /-- 04_control R117. -/
  pos : Nat := 0
  /-- 04_control R117. -/
  edition : Nat := 0
  /-- 01_token_path R17. -/
  sect : Nat := 0
  /-- 01_token_path R19. -/
  token : Nat := 0
  /-- 07_serving R206. -/
  drafted : Bool := false
  /-- 14_faults R385. -/
  replay : Bool := false
  /-- 14_faults R382. -/
  replays : Nat := 0
  /-- 14_faults R385. -/
  lines : List (Nat × Nat × Nat) := []
  /-- 14_faults R386. -/
  inputs : List (Nat × Nat × Nat) := []
  /-- 14_faults R383. -/
  replayed : Bool := false
  /-- 14_faults R380 (Table 14-1). -/
  causes : List Nat := []
  /-- 14_faults R382. -/
  reports : Bool := false
  /-- 07_serving R192. -/
  lastPrompt : Bool := true
  /-- 14_faults R381. -/
  draw : Option Nat := none
  /-- 07_serving R220. -/
  drawStamp : U64 := 0
  /-- 07_serving R217. -/
  drawNone : Bool := false
  /-- 07_serving R212. -/
  assistLate : Bool := false
  /-- 07_serving R215. -/
  gramNext : Option Nat := none
  /-- 07_serving R215. -/
  gramLate : Bool := false
  /-- 04_control R117. -/
  index : Nat := 0
  /-- 05_weights R156. -/
  layer : Nat := 0
  /-- 05_weights R156. -/
  wait : Nat := 0
  /-- 05_weights R156: when the reload span of its layer began. -/
  spanAt : U64 := 0
  /-- 09_stacks R273: the rows of its layer were reloaded from poisoned codeblocks. -/
  badLoad : Bool := false
  /-- 14_faults R379, 11_alaok R335: the layer of the first marks of this window, 0xFFFF without any. -/
  badLayer : Nat := 0xFFFF
  /-- 07_serving R192, R222: the window in which it entered section 0. -/
  entered : Nat := 0
  /-- 14_faults R401 (Table 14-6): the first cause of each pass that was replayed. -/
  past : List Nat := []
deriving DecidableEq, Repr

/-- 14 R385: one replay under way. -/
structure Replay where
  /-- 14_faults R385. -/
  slot : Slot := {}
  /-- 14_faults R385. -/
  since : Nat := 0
  /-- 14_faults R385. -/
  due : Nat := 0
  /-- 14_faults R385. -/
  returned : Bool := false
  /-- 14_faults R384. -/
  pool : List Nat := []
  /-- 14_faults R384. -/
  owed : List (Nat × Nat) := []
  /-- 14_faults R385 (Table 14-2). -/
  copyBad : Bool := false
  /-- 14_faults R382. -/
  assist : Option Nat := none
  /-- 14_faults R382. -/
  report : Bool := false
  /-- 14_faults R387: it waited in a window in which its section held no slot back. -/
  starved : Bool := false
deriving DecidableEq, Repr

/-- 14 R396: a unit being taken out of service. -/
structure UnitOut where
  /-- 14_faults R396. -/
  unit : Nat := 0
  /-- 14_faults R396. -/
  kind : UnitKind := .core
  /-- 14_faults R396. -/
  phase : Nat := 0
  /-- 14_faults R396. -/
  dest : Nat := 0
  /-- 14_faults R397. -/
  editions : List Nat := []
  /-- 14_faults R396. -/
  assist : Option Nat := none
  /-- 06_array R159. -/
  job : Nat := 0
  /-- 06_array R171: the unit serves on until its replacement is ready. -/
  serves : Bool := false
deriving DecidableEq, Repr

/-- 06 R170, R175: rows of an engine that are asked of the control node. -/
structure RowAsk where
  /-- 06_array R170: the core and the physical engine that take the rows. -/
  key : Nat := 0
  /-- 06_array R170. -/
  engine : Nat := 0
  /-- 06_array R170: the placement engine that the shards name. -/
  target : Nat := 0
  /-- 06_array R170. -/
  edition : Nat := 0
  /-- 06_array R159. -/
  job : Nat := 0
  /-- 06_array R170: the unit that the wish names. -/
  unit : Nat := 0
  /-- 06_array R175: the rows. -/
  rows : List Nat := []
  /-- 06_array R170: the shards asked for. -/
  wanted : List Nat := []
  /-- 06_array R170: those that came. -/
  got : List Nat := []
  /-- 06_array R170, 11_alaok R336: the assist; none while the limit of assists leaves no room. -/
  assist : Option Nat := none
deriving DecidableEq, Repr

/-- 14 R390: a paired-mode digest. -/
structure DigestMsg where
  /-- 14_faults R390. -/
  window : Nat := 0
  /-- 14_faults R390. -/
  slot : Nat := 0
  /-- 14_faults R390. -/
  layer : Nat := 0
  /-- 14_faults R390. -/
  engine : Nat := 0
  /-- 14_faults R390. -/
  core : Nat := 0
  /-- 14_faults R390. -/
  groups : List Int := []
  /-- 14_faults R391. -/
  counts : List Nat := []
  /-- 14_faults R391. -/
  arrived : Bool := false
deriving DecidableEq, Repr

/-- 01, 07, 08: the signal box's timetable state. -/
structure Plan where
  /-- 01_token_path R20, 13_bringup R362. -/
  window : Nat := 0
  /-- 01_token_path R21. -/
  tNext : U64 := 0
  /-- 01_token_path R20 R35. -/
  w : Nat := 500
  /-- 07_serving R194. -/
  wNext : Nat := 500
  /-- 01_token_path R21. -/
  awaiting : List Nat := []
  /-- 01_token_path R23. -/
  holdFrom : Option U64 := none
  /-- 01_token_path R23. -/
  held : Bool := false
  /-- 01_token_path R21. -/
  released : Bool := false
  /-- 08_signal_box R240. -/
  lastReplan : Option U64 := none
  /-- 08_signal_box R224. -/
  lastRebalance : Option U64 := none
  /-- 08_signal_box R224. -/
  rebalanced : Option (Nat × List Nat) := none
  /-- 08_signal_box R233. -/
  prefer : List Nat := []
  /-- 08_signal_box R233: the choice for the limits that this boundary applies. -/
  choice : List Nat := []
  /-- 08_signal_box R232: the fields whose limits this boundary lowers; none where it raises none. -/
  fell : Option (List Nat) := none
  /-- 08_signal_box R232: the editions whose room this boundary changes by raised limits alone. -/
  riseEds : List Nat := []
  /-- 01_token_path R17. -/
  slots : List Slot := []
  /-- 14_faults R379. -/
  nextSlot : Nat := 0
  /-- 14_faults R385. -/
  replays : List Replay := []
  /-- 07_serving R196. -/
  order : Nat := 0
  /-- 14_faults R395. -/
  suspectHist : Map (List Bool) := .empty
  /-- 14_faults R396. -/
  outUnits : List UnitOut := []
  /-- 06_array R170, R175. -/
  asks : List RowAsk := []
  /-- 14_faults R398. -/
  rebuilds : List (Nat × Nat) := []
  /-- 03_engines R81. -/
  edges : List Edge := []
  /-- 14_faults R390. -/
  digests : List DigestMsg := []
  /-- 14_faults R400 (Table 14-4): discarded outputs of replays whose request is gone. -/
  lateOutputs : Nat := 0
deriving DecidableEq, Repr

/-- 08 R223: the module's power budget. -/
structure Budget where
  /-- 08_signal_box R223 (Table 8-1). -/
  powerLimit : Nat := 27000
  /-- 08_signal_box R223 (Table 8-1). -/
  arrayLimit : Nat := 12000
  /-- 08_signal_box R223 (Table 8-1). -/
  rhoPlan : Nat := 15
  /-- 08_signal_box R223. -/
  red : Nat := 0
  /-- 08_signal_box R228. -/
  overAt : Option U64 := none
  /-- 08_signal_box R228. -/
  lowAt : Option U64 := none
  /-- 08_signal_box R228. -/
  restoreAt : Option U64 := none
  /-- 16_electrical R428. -/
  feedLow : Bool := false
deriving DecidableEq, Repr

/-- 11 R323: a command still owed its final reply. -/
structure Outst where
  /-- 11_alaok R325. -/
  op : Nat := 0
  /-- 11_alaok R321. -/
  cmdTag : Word := 0
  /-- 11_alaok R321. -/
  partition : Nat := 0
  /-- 11_alaok R321. -/
  reqTag : Word := 0xFFFFFFFF
  /-- 11_alaok R321. -/
  stamp : U64 := 0
  /-- 11_alaok R337. -/
  conn : Nat := 0
deriving DecidableEq, Repr

/-- 11 R318, 12 R345: a session. -/
structure Session where
  /-- 11_alaok R318. -/
  isOpen : Bool := false
  /-- 11_alaok R337. -/
  standby : Bool := false
  /-- 11_alaok R327. -/
  id : U64 := 0
  /-- 12_partitions R345. -/
  level : Option Nat := none
  /-- 12_partitions R347. -/
  keyDigest : Nat := 0
  /-- 11_alaok R319. -/
  cmdSet : BitVec 16 := 0
  /-- 12_partitions R347. -/
  nonce : Option Nat := none
  /-- 12_partitions R347. -/
  nonceAt : U64 := 0
  /-- 12_partitions R347. -/
  authLevel : Nat := 0
  /-- 12_partitions R347. -/
  authKey : Nat := 0
  /-- 12_partitions R347. -/
  authTag : Word := 0
  /-- 12_partitions R347 (Table 12-2). -/
  authRsa : List Byte := []
  /-- 12_partitions R347 (Table 12-2). -/
  authSlh : List Byte := []
  /-- 12_partitions R347. -/
  fails : Nat := 0
  /-- 11_alaok R323. -/
  outst : List Outst := []
  /-- 11_alaok R321. -/
  reportSeq : Word := 0
  /-- 11_alaok R334. -/
  filter : List Nat := []
  /-- 11_alaok R338. -/
  resumeBy : Option U64 := none
deriving DecidableEq, Repr

/-- 11 R321 Table 11-6: a packet the module originates. -/
structure OutPkt where
  /-- 11_alaok R321. -/
  op : Nat := 0
  /-- 11_alaok R321. -/
  final : Bool := false
  /-- 11_alaok R321. -/
  report : Bool := false
  /-- 11_alaok R321. -/
  partition : Nat := 0
  /-- 11_alaok R321. -/
  cmdTag : Word := 0
  /-- 11_alaok R321. -/
  reqTag : Word := 0xFFFFFFFF
  /-- 11_alaok R321. -/
  stamp : U64 := 0
  /-- 11_alaok R321. -/
  status : Nat := 0
  /-- 11_alaok R321. -/
  cause : Nat := 0
  /-- 11_alaok R321. -/
  detail : Nat := 0
  /-- 11_alaok R321. -/
  body : List Byte := []
deriving DecidableEq, Repr

/-- 11 R315 R316: one receiving stream. -/
structure RxStream where
  /-- 11_alaok R315. -/
  next : Word := 0
  /-- 11_alaok R316. -/
  credits : Nat := 0
  /-- 11_alaok R314. -/
  asm : List Byte := []
  /-- 11_alaok R315. -/
  skipping : Bool := false
  /-- 11_alaok R316. -/
  dropped : Nat := 0
deriving DecidableEq, Repr

/-- 11 R315 R316: one sending stream. -/
structure TxStream where
  /-- 11_alaok R315. -/
  next : Word := 0
  /-- 11_alaok R316. -/
  credits : Nat := 0
  /-- 11_alaok R316. -/
  queue : List OutPkt := []
  /-- 11_alaok R315. -/
  unacked : List (Word × OutPkt) := []
  /-- 11_alaok R315. -/
  acked : Word := 0
deriving DecidableEq, Repr

/-- 11 R314 Table 11-1: the header of a frame that the module sent, and its CRC-32C. -/
structure FrameHead where
  /-- 11_alaok R314. -/
  ftype : Nat := 1
  /-- 11_alaok R314. -/
  stream : Nat := 0
  /-- 11_alaok R314. -/
  length : Nat := 0
  /-- 11_alaok R314. -/
  seq : Word := 0
  /-- 11_alaok R314. -/
  ack : Word := 0
  /-- 11_alaok R314. -/
  ackStream : Nat := 0
  /-- 11_alaok R314. -/
  creditStream : Nat := 0
  /-- 11_alaok R314. -/
  credit : Nat := 0
  /-- 11_alaok R314. -/
  crc : Word := 0
deriving DecidableEq, Repr

/-- 11 R313: an Alaok connector. -/
structure Connector where
  /-- 11_alaok R317. -/
  up : Bool := false
  /-- 11_alaok R318. -/
  trained : Bool := false
  /-- 11_alaok R318. -/
  hello : Bool := false
  /-- 11_alaok R313. -/
  lanes : BitVec 4 := 0xF
  /-- 11_alaok R317. -/
  width : Nat := 4
  /-- 11_alaok R319. -/
  link : BitVec 16 := 0
  /-- 11_alaok R314. -/
  rx : Map RxStream := .empty
  /-- 11_alaok R314. -/
  tx : Map TxStream := .empty
  /-- 11_alaok R317. -/
  lastRx : U64 := 0
  /-- 11_alaok R317. -/
  lastTx : U64 := 0
  /-- 11_alaok R319. -/
  helloAt : U64 := 0
  /-- 11_alaok R319. -/
  helloSent : Nat := 0
  /-- 11_alaok R315. -/
  naksSent : List (Nat × Word) := []
  /-- 11_alaok R317. -/
  ctlSent : Nat := 0
  /-- 11_alaok R314. -/
  heads : List FrameHead := []
  /-- 11_alaok R314. -/
  heard : Nat := 0
  /-- 12_partitions R347. -/
  lockUntil : Option U64 := none
  /-- 11_alaok R318. -/
  sess : Session := {}
  /-- 15_observability R407. -/
  clkValid : Bool := false
  /-- 15_observability R407. -/
  clkOffset : Int := 0
  /-- 15_observability R407. -/
  clkDrift : Int := 0
  /-- 15_observability R407. -/
  clkAt : U64 := 0
  /-- 15_observability R407. -/
  clkAsym : Nat := 0
deriving DecidableEq, Repr

/-- 11 R336: an outstanding assist. -/
structure Assist where
  /-- 11_alaok R336. -/
  id : Word := 0
  /-- 11_alaok R336. -/
  fn : Nat := 0
  /-- 11_alaok R336. -/
  sub : Nat := 0
  /-- 11_alaok R336. -/
  partition : Nat := 0
  /-- 11_alaok R336. -/
  deadline : U64 := 0
  /-- 11_alaok R336. -/
  req : Nat := 0
  /-- 11_alaok R336. -/
  slot : Nat := 0
  /-- 07_serving R212, 06_array R170. -/
  kept : List Nat := []
  /-- 07_serving R215. -/
  state : Word := 0
  /-- 07_serving R215. -/
  token : Nat := 0
  /-- 08_signal_box R233. -/
  entries : List (Nat × Nat × Nat) := []
  /-- 11_alaok R335. -/
  desc : Option (Desc × Hdr) := none
  /-- 07_serving R222 (Table 7-16). -/
  cls : ClassRec := {}
  /-- 11_alaok R335. -/
  verdict : Nat := 0
deriving DecidableEq, Repr

/-- 11: the control link and its sessions. -/
structure Alaok where
  /-- 11_alaok R313. -/
  conns : Map Connector := .empty
  /-- 11_alaok R313. -/
  active : Nat := 0
  /-- 11_alaok R336. -/
  assists : List Assist := []
  /-- 13_bringup R374: what stood on the streams of replies and final entries when the last reset retrained the link: (connector,
  stream, packet), sent before the link went down. -/
  parting : List (Nat × Nat × OutPkt) := []
  /-- 06_array R163: a wall time supplied before the ledger was read. -/
  wallGiven : Option U64 := none
  /-- 11_alaok R336: the assists, with their partitions, whose deadline passed without an answer (log 174). -/
  expired : List (Word × Nat) := []
  /-- 11_alaok R336. -/
  nextAssist : Word := 0
  /-- 11_alaok R322. -/
  accepted : List (Nat × List Byte) := []
  /-- 06_array R163. -/
  wall : Option U64 := none
  /-- 11_alaok R327. -/
  nextSession : U64 := 1
  /-- 11_alaok R338. -/
  discards : Nat := 0
deriving DecidableEq, Repr

/-- 06 R176 R178: a ledger change waiting for its commit. -/
structure JournalChange where
  /-- 06_array R176 (Table 6-8). -/
  kind : Nat := 0
  /-- 06_array R176 (Table 6-8). -/
  key : Nat := 0
  /-- 06_array R178. -/
  what : Nat := 0
  /-- 06_array R178. -/
  val : Nat := 0
  /-- 06_array R178. -/
  vals : List Nat := []
deriving DecidableEq, Repr

/-- 06 Table 6-8: a journal entry. -/
structure JournalRec where
  /-- 06_array R176 (Table 6-8). -/
  seq : Nat := 0
  /-- 06_array R176 (Table 6-8). -/
  kind : Nat := 0
  /-- 06_array R176 (Table 6-8): record index and new contents. -/
  payload : List Byte := []
  /-- 06_array R176 (Table 6-8). -/
  mac : List Byte := []
deriving DecidableEq, Repr

/-- 06 Table 6-6: a snapshot slot: its bytes that are not zero, as runs from an offset, up to the signatures. -/
structure LedgerSlot where
  /-- 06_array R176 (Table 6-6). -/
  seq : Nat := 0
  /-- 06_array R176 (Table 6-6): last journal sequence included. -/
  last : Nat := 0
  /-- 06_array R176 (Table 6-6). -/
  body : List (Nat × List Byte) := []
  /-- 06_array R179, 12_partitions R355: the block at the start of the signature area. -/
  signatures : List Byte := []
  /-- 12_partitions R348: the owner area up to the end of its block. -/
  owner : List Byte := []
  /-- (the model's own): as Koravo left it, its signatures standing. -/
  made : Bool := true
deriving DecidableEq, Repr

/-- 12 R357: a firmware image. -/
structure FwImage where
  /-- 12_partitions R357. -/
  svn : Nat := 0
  /-- 12_partitions R357. -/
  bytes : List Byte := []
  /-- (the model's own): as Koravo left it, its block standing. -/
  made : Bool := true
deriving DecidableEq, Repr

/-- 06 R176-R180, 12 R348: the ledger's own state. -/
structure Ledger where
  /-- 06_array R176. -/
  copyA : Option Nat := none
  /-- 06_array R176. -/
  copyB : Option Nat := none
  /-- 06_array R180. -/
  lostA : Bool := false
  /-- 06_array R180. -/
  lostB : Bool := false
  /-- 06_array R176. -/
  seqA : Nat := 0
  /-- 06_array R176. -/
  seqB : Nat := 0
  /-- 06_array R180. -/
  okA : Bool := true
  /-- 06_array R180. -/
  okB : Bool := true
  /-- 06_array R178. -/
  waiting : List JournalChange := []
  /-- 16_electrical R423: of the changes that wait, those whose commit had started when the power failed. -/
  inHand : Nat := 0
  /-- 06_array R179. -/
  journal : Nat := 0
  /-- 06_array R179. -/
  snapSeq : Nat := 0
  /-- 06_array R179. -/
  slot : Nat := 0
  /-- 06_array R179. -/
  snapAt : U64 := 0
  /-- 06_array R179. -/
  snapping : Bool := false
  /-- 06_array R176 (Table 6-5): slots 0 and 1. -/
  slots : List LedgerSlot := [{}, {}]
  /-- 06_array R179: the contents of the snapshot being written. -/
  snapNext : LedgerSlot := {}
  /-- 06_array R176 (Table 6-5): the journal since the older slot. -/
  entries : List JournalRec := []
  /-- 06_array R163: every array is due, those too that hold no record. -/
  allDue : Bool := false
  /-- (the model's own). -/
  nextJob : Nat := 1
  /-- 06_array R178. -/
  counterAt : U64 := 0
  /-- 06_array R163. -/
  wallCommit : U64 := 0
  /-- 06_array R176 (Table 6-6). -/
  powerCycles : Nat := 0
  /-- 06_array R176 (Table 6-6). -/
  poweredS : Nat := 0
  /-- 00_scope R11, 06_array R176. -/
  relocation : Map Nat := .empty
  /-- 06_array R178. -/
  relocNext : List (Nat × Nat) := []
  /-- 06_array R178. -/
  emapNext : List (Nat × List Nat) := []
  /-- 06_array R173. -/
  stuckCount : Nat := 0
  /-- 06_array R176. -/
  stuckList : List (Nat × Nat × Nat) := []
  /-- 12_partitions R348. -/
  ownerSeq : Nat := 0
  /-- 12_partitions R348. -/
  owner : Nat := 0
  /-- 12_partitions R348. -/
  minSvn : Nat := 0
  /-- 12_partitions R348. -/
  ownerNext : Option (Nat × Nat × Word) := none
  /-- 12_partitions R357. -/
  fw : List FwImage := [{}, {}]
  /-- 12_partitions R358. -/
  fwFrag : List Byte := []
  /-- 12_partitions R358. -/
  fwNext : Option (FwImage × Bool × Nat × Word) := none
  /-- 12_partitions R357. -/
  fwSvn : Nat := 0
  /-- 12_partitions R360. -/
  fwBytes : List Byte := []
  /-- 06_array R180. -/
  rebuildA : Option Nat := none
  /-- 06_array R180. -/
  rebuildB : Option Nat := none
deriving DecidableEq, Repr

/-- 15 R405 Table 15-3. -/
structure PortTime where
  /-- 15_observability R405. -/
  peer : Nat := 0
  /-- 15_observability R405. -/
  valid : Bool := false
  /-- 15_observability R405. -/
  drift : Int := 0
  /-- 15_observability R405. -/
  offset : Int := 0
  /-- 15_observability R405. -/
  tMeas : U64 := 0
  /-- 15_observability R405. -/
  asym : Nat := 0
deriving DecidableEq, Repr

/-- 10: one fabric port. -/
structure Port where
  /-- 10_fabric R281 (Table 10-2). -/
  record : PortRec := {}
  /-- 10_fabric R309. -/
  up : Bool := false
  /-- 10_fabric R309. -/
  version : Nat := 0
  /-- 10_fabric R283. -/
  bad : BitVec 8 := 0
  /-- 10_fabric R282. -/
  width : Nat := 0
  /-- 10_fabric R282. -/
  lanes : BitVec 8 := 0
  /-- 10_fabric R283. -/
  retrain : Bool := false
  /-- 10_fabric R309. -/
  peer : Nat := 0
  /-- 15_observability R405. -/
  time : PortTime := {}
  /-- 10_fabric R287. -/
  retry : List FabPkt := []
  /-- 15_observability R403. -/
  ctr : Map Nat := .empty
deriving DecidableEq, Repr

/-- 10 R295 R297: a barrier of a job. -/
structure Barrier where
  /-- 10_fabric R295. -/
  number : Nat := 0
  /-- 10_fabric R295. -/
  arrived : List Nat := []
  /-- 10_fabric R297. -/
  first : U64 := 0
  /-- 10_fabric R297. -/
  timeout : Nat := 0
  /-- 10_fabric R295. -/
  cmd : Option (Nat × Word) := none
  /-- 10_fabric R297. -/
  sentAt : U64 := 0
deriving DecidableEq, Repr

/-- 10 R301: a collective under way. -/
structure Reduce where
  /-- 10_fabric R301. -/
  op : Nat := 0
  /-- 10_fabric R301. -/
  fmt : Nat := 0
  /-- 10_fabric R301. -/
  count : Nat := 0
  /-- 10_fabric R301. -/
  src : Nat := 0
  /-- 10_fabric R301. -/
  dst : Nat := 0
  /-- 10_fabric R301. -/
  all : Bool := false
  /-- 10_fabric R294. -/
  planned : Bool := false
  /-- 10_fabric R302. -/
  acc : List Word := []
  /-- 10_fabric R302. -/
  bad : List Nat := []
  /-- 10_fabric R302. -/
  got : List Nat := []
  /-- 10_fabric R302. -/
  parts : Map (List (Nat × List Byte)) := .empty
  /-- 10_fabric R302. -/
  result : List (Nat × List Byte) := []
  /-- 10_fabric R302. -/
  sent : Bool := false
  /-- 10_fabric R303. -/
  failed : Option Nat := none
  /-- 10_fabric R301. -/
  cmd : Option (Nat × Word) := none
deriving DecidableEq, Repr

/-- 10 R304 R305: a multicast under way at its origin. -/
structure Mcast where
  /-- 10_fabric R304. -/
  targets : List Nat := []
  /-- 10_fabric R305. -/
  results : Map Nat := .empty
  /-- 10_fabric R304. -/
  length : Nat := 0
  /-- 10_fabric R305. -/
  recAddr : Nat := 0
  /-- 10_fabric R305. -/
  deadline : U64 := 0
  /-- 10_fabric R285. -/
  seq : Nat := 0
  /-- 10_fabric R304. -/
  cmd : Option (Nat × Word) := none
deriving DecidableEq, Repr

/-- 10 R304: a multicast being received. -/
structure McastRx where
  /-- 10_fabric R304. -/
  origin : Nat := 0
  /-- 10_fabric R285. -/
  seq : Nat := 0
  /-- 10_fabric R305: the module that sent it here. -/
  sender : Nat := 0
  /-- 10_fabric R304. -/
  got : List (Nat × List Byte) := []
  /-- 10_fabric R305. -/
  result : Option Nat := none
  /-- 10_fabric R305. -/
  bad : List Nat := []
deriving DecidableEq, Repr

/-- 10 R288 R310: a job record. -/
structure Job where
  /-- 10_fabric R288. -/
  id : Nat := 0
  /-- 10_fabric R288. -/
  epoch : BitVec 8 := 0
  /-- 10_fabric R311. -/
  partition : Nat := 0
  /-- 10_fabric R295. -/
  members : List Nat := []
  /-- 10_fabric R295. -/
  rank : Nat := 0
  /-- 10_fabric R310. -/
  floor : Nat := 1
  /-- 10_fabric R310. -/
  version : Nat := 1
  /-- 10_fabric R312: the member of the lowest version when the job was created. -/
  slow : Nat := 0
  /-- 10_fabric R296. -/
  tbar : Nat := 0
  /-- 10_fabric R295. -/
  barrier : Option Barrier := none
  /-- 10_fabric R295. -/
  roots : List Barrier := []
  /-- 10_fabric R297. -/
  done : List Nat := []
  /-- 10_fabric R302. -/
  reduceNo : Nat := 0
  /-- 10_fabric R301. -/
  reduce : Option Reduce := none
  /-- 10_fabric R302. -/
  early : List FabPkt := []
  /-- 10_fabric R304. -/
  mcast : Option Mcast := none
  /-- 10_fabric R304. -/
  rx : List McastRx := []
deriving DecidableEq, Repr

/-- 10 R307: an end-to-end probe whose reply is awaited. -/
structure FabProbe where
  /-- 10_fabric R307. -/
  dst : Nat := 0
  /-- 10_fabric R285. -/
  seq : Nat := 0
  /-- 10_fabric R307. -/
  t1 : U64 := 0
  /-- 11_alaok R323. -/
  cmd : Nat × Word := (0, 0)
deriving DecidableEq, Repr

/-- 10: ports, routes, jobs. -/
structure Fabric where
  /-- 10_fabric R279. -/
  ports : Map Port := .empty
  /-- 10_fabric R289 (Table 10-8). -/
  route : RouteRec := {}
  /-- 10_fabric R309. -/
  peers : Map Nat := .empty
  /-- 10_fabric R288. -/
  jobs : List Job := []
  /-- 10_fabric R290. -/
  out : List FabPkt := []
  /-- 10_fabric R285. -/
  inbox : List FabPkt := []
  /-- 10_fabric R285. -/
  seqs : Map Nat := .empty
  /-- 10_fabric R307. -/
  exch : List (Nat × U64 × U64 × U64 × U64) := []
  /-- 10_fabric R307. -/
  probes : List FabProbe := []
deriving DecidableEq, Repr

/-- 14 R401 Table 14-5: a fault signature record. -/
structure FaultRec where
  /-- 14_faults R401. -/
  kind : Nat := 0
  /-- 14_faults R401. -/
  seq : Nat := 0
  /-- 14_faults R401. -/
  stamp : U64 := 0
  /-- 14_faults R401. -/
  window : Nat := 0
  /-- 14_faults R401. -/
  unit : Nat := 0
  /-- 14_faults R401. -/
  place : Nat := 0
  /-- 14_faults R401. -/
  unitKind : UnitKind := .module
  /-- 14_faults R401. -/
  partition : Nat := 255
  /-- 14_faults R401. -/
  sect : Nat := 255
  /-- 14_faults R401. -/
  action : Nat := 0
  /-- 14_faults R401. -/
  tag : Word := 0xFFFFFFFF
  /-- 14_faults R401. -/
  layer : Nat := 0xFFFF
  /-- 14_faults R401. -/
  edition : Nat := 0
  /-- 14_faults R401. -/
  marks : Nat := 0
  /-- 14_faults R401. -/
  replays : Nat := 0
  /-- 14_faults R401. -/
  setpointMv : Nat := 0
  /-- 14_faults R401. -/
  temp : Int := 0
  /-- 14_faults R401. -/
  pace : Nat := 0
  /-- 14_faults R401. -/
  floor : Nat := 0
  /-- 14_faults R401. -/
  wear : Nat := 0
  /-- 14_faults R401. -/
  ageS : Nat := 0
  /-- 14_faults R401. -/
  data : List Byte := []
deriving DecidableEq, Repr

/-- 15 R413 R416: stops. -/
structure Stop where
  /-- 15_observability R413. -/
  kind : StopKind := .none
  /-- 15_observability R413. -/
  cmds : List (Nat × Word) := []
  /-- 15_observability R413 (Table 15-8). -/
  stamp : U64 := 0
  /-- 15_observability R413. -/
  replays : Nat := 0
  /-- 15_observability R417. -/
  nowBase : StopKind := .none
deriving DecidableEq, Repr

/-- 15 R410: the gate field's digest collector. -/
structure Collector where
  /-- 15_observability R410. -/
  recs : List (Nat × Nat × List Byte) := []
  /-- 15_observability R410. -/
  waiting : List (Nat × Nat × List Byte) := []
  /-- 15_observability R410. -/
  index : Map Nat := .empty
deriving DecidableEq, Repr

/-- 13 R375: a self-test in progress. -/
structure SelfTest where
  /-- 13_bringup R375. -/
  conn : Nat := 0
  /-- 13_bringup R375. -/
  cmdTag : Word := 0
  /-- 13_bringup R375. -/
  units : List Nat := []
  /-- 13_bringup R375. -/
  scope : Nat := 0
  /-- 13_bringup R375. -/
  tests : BitVec 16 := 0
  /-- 13_bringup R375. -/
  idleOnly : Bool := false
  /-- 13_bringup R375. -/
  stopAt : U64 := 0
  /-- 13_bringup R376: the credits already drawn for the firings of this pass, by field. -/
  paid : List (Nat × Nat) := []
  /-- 06_array R164, 13_bringup R376: the second pass of its trim samples is due. -/
  second : Bool := false
  /-- 13_bringup R376: the (unit, test) pairs that have had a window with room for them. -/
  fit : List (Nat × Nat) := []
  /-- 13_bringup R378 (Table 13-8): the swaps of engines since it began: (core, engine out of service, engine in service). -/
  swaps : List (Nat × Nat × Nat) := []
deriving DecidableEq, Repr

/-- 13 R374: an accepted MG_RESET. -/
structure ResetReq where
  /-- 13_bringup R374. -/
  fast : Bool := false
  /-- 13_bringup R374. -/
  skipFill : Bool := false
deriving DecidableEq, Repr

/-- 12 R360: an attestation in progress: where its reply goes, and its report. -/
structure Attest where
  /-- 12_partitions R360. -/
  conn : Nat := 0
  /-- 12_partitions R360. -/
  cmdTag : Word := 0
  /-- 12_partitions R360. -/
  report : List Byte := []
deriving DecidableEq, Repr

/-- 13: power-up and module state. -/
structure ModStatus where
  /-- 13_bringup R361. -/
  state : ModState := .noPower
  /-- 13_bringup R362 (Table 13-2). -/
  phase : Nat := 0
  /-- 13_bringup R361. -/
  failure : Option BringFail := none
  /-- 13_bringup R374. -/
  skipFill : Bool := false
  /-- 13_bringup R374. -/
  fast : Bool := false
  /-- 16_electrical R428. -/
  pwrGood : Bool := false
  /-- 13_bringup R362. -/
  feedOk : Bool := false
  /-- 16_electrical R423. -/
  powerFail : Bool := false
  /-- 11_alaok R324. -/
  deferred : List Deferred := []
  /-- 13_bringup R375. -/
  tests : List SelfTest := []
  /-- 12_partitions R360. -/
  attests : List Attest := []
  /-- 13_bringup R368. -/
  serviceSet : List Nat := []
  /-- 12_partitions R341. -/
  coreMap : Map Nat := .empty
  /-- 04_control R113. -/
  signal : List (Nat × List Byte) := []
  /-- 04_control R113. -/
  sampler : List (Nat × List Byte) := []
  /-- 14_faults R401. -/
  faults : List FaultRec := []
  /-- 14_faults R401. -/
  faultSeq : Nat := 0
  /-- 15_observability R403. -/
  ctr : Map Nat := .empty
  /-- 06_array R181. -/
  eventsSeen : List Nat := []
  /-- 14_faults R399: the ledger that this power-up read records the gate field's isolation. -/
  gateIsolated : Bool := false
deriving DecidableEq, Repr

/-- 13 R362 R363: the timebase. -/
structure Clock where
  /-- 00_scope R15, 13_bringup R362. -/
  tb : U64 := 0
  /-- 13_bringup R363. -/
  running : Bool := false
  /-- 13_bringup R363. -/
  loop : Loop := .none
deriving DecidableEq, Repr

/-- the whole module, and the queue of waiting commands. -/
structure State where
  /-- 13_bringup R362: as Clock. -/
  clock : Clock := {}
  /-- 13_bringup R361: as ModStatus. -/
  mod : ModStatus := {}
  /-- 08_signal_box R223: as Budget. -/
  budget : Budget := {}
  /-- 01_token_path R20: as Plan. -/
  plan : Plan := {}
  /-- 00_scope R7: by field number, as Field. -/
  fields : Map Field := .empty
  /-- 00_scope R5: by field*68 + core, as Core. -/
  cores : Map Core := .empty
  /-- 09_stacks R256: stacks 0-23, as Stack. -/
  stackSet : Map Stack := .empty
  /-- 12_partitions R340: partitions 0-63, as Partition. -/
  parts : Map Partition := .empty
  /-- 05_weights R130: by edition ID, as Edition. -/
  editions : Map Edition := .empty
  /-- 07_serving R182: by index, 131,072 entries, as Req. -/
  reqs : Map Req := .empty
  /-- 11_alaok R313: as Alaok. -/
  alaok : Alaok := {}
  /-- 06_array R176: as Ledger. -/
  ledger : Ledger := {}
  /-- 10_fabric R279: as Fabric. -/
  fabric : Fabric := {}
  /-- 15_observability R413: as Stop. -/
  stop : Stop := {}
  /-- 15_observability R410: as Collector. -/
  collector : Collector := {}
  /-- (the model's own): the MODEL's own counter of free values read; DESIGN CHOICE 0, log 2. -/
  free : Nat := 0
  /-- (the block's queue): commands waiting, first in first out; empty. -/
  pending : List Instr := []
deriving DecidableEq, Repr

/-- The module with no power applied (Table 13-1, first row): every field at the value INVENTORY.md gives for reset. -/
def State.reset : State := {}

end Sys2Proof.Machine
end

