-- ==== Sys2Proof/Machine/Codes.lean ====
section
/-! DEFINITION. The codes of the tables: statuses (Table 11-8), opcodes and rights (Table 11-7), counters (Table 15-2), health
events, core fault causes (Table 4-5) and completion results. -/

namespace Sys2Proof.Machine

/-! Table 11-8: status codes. -/
def stOk : Nat := 0x00
def stAccepted : Nat := 0x01
def stPending : Nat := 0x02
def stIncomplete : Nat := 0x03
def stFinished : Nat := 0x10
def stDeadline : Nat := 0x11
def stCancelled : Nat := 0x12
def stEditionGone : Nat := 0x13
def stGrammarError : Nat := 0x14
def stMaskEmpty : Nat := 0x15
def stEvent : Nat := 0x20
def stLate : Nat := 0x21
def stHalted : Nat := 0x22
def stReady : Nat := 0x23
def stStopped : Nat := 0x24
def stSided : Nat := 0x25
def stRefusedCapacity : Nat := 0x30
def stRefusedBound : Nat := 0x31
def stBusy : Nat := 0x32
def stTimeout : Nat := 0x33
def stFailed : Nat := 0x34
def stAborted : Nat := 0x35
def stBadParam : Nat := 0x40
def stStaleTag : Nat := 0x41
def stBadOpcode : Nat := 0x42
def stDenied : Nat := 0x43
def stNoSuch : Nat := 0x44
def stBadState : Nat := 0x45
def stBadImage : Nat := 0x46
def stBadSignature : Nat := 0x47
def stBadLength : Nat := 0x48
def stFault : Nat := 0x50
def stNotInService : Nat := 0x51
def stPoisoned : Nat := 0x52
def stVersion : Nat := 0x60

/-- Table 11-7, the Right column: what a session needs for an opcode. -/
inductive Right where
  /-- Session-class: an unauthenticated session may send it too (R345). -/
  | session
  /-- Any authenticated session. -/
  | any
  /-- `MG_INFO`: any authenticated session, and in bring-up every session (R361). -/
  | info
  /-- Level 0. -/
  | level0
  /-- Firmware fragments: level 0, or the boot ROM's session (R358). -/
  | firmware
  /-- A right bit of the partition named in the header (0 weights, 1 serve, 2 memory, 3 debug, 4 fabric). -/
  | part (bit : Nat)
  /-- The command acts for the partition, which must be the session's own (R340). -/
  | own
  /-- Level 0, or limited to the session's partitions by its own rule (R354); `reads` marks the health commands that read. -/
  | seen (reads : Bool)
deriving DecidableEq, Repr

/-- A row of Table 11-7: opcode, right, first command set. -/
structure CmdRow where
  op    : Nat
  right : Right
  since : Nat := 0x0300
deriving DecidableEq, Repr

def rowSsOpen : CmdRow := { op := 0x0101, right := .session }
def rowSsClose : CmdRow := { op := 0x0102, right := .session }
def rowSsTakeover : CmdRow := { op := 0x0103, right := .level0 }
def rowSsEcho : CmdRow := { op := 0x0104, right := .session }
def rowSsAuth : CmdRow := { op := 0x0105, right := .session }
def rowMgInfo : CmdRow := { op := 0x0201, right := .info }
def rowMgPowerSet : CmdRow := { op := 0x0202, right := .level0 }
def rowMgPowerGet : CmdRow := { op := 0x0203, right := .any }
def rowMgPolicySet : CmdRow := { op := 0x0204, right := .own }
def rowMgSelftest : CmdRow := { op := 0x0205, right := .level0 }
def rowMgReset : CmdRow := { op := 0x0206, right := .level0 }
def rowPrSet : CmdRow := { op := 0x0301, right := .level0 }
def rowPrFirmware : CmdRow := { op := 0x0301, right := .firmware }
def rowPrGet : CmdRow := { op := 0x0302, right := .seen false }
def rowPrAttest : CmdRow := { op := 0x0303, right := .any }
def rowWtOpen : CmdRow := { op := 0x0401, right := .part 0 }
def rowWtShard : CmdRow := { op := 0x0402, right := .part 0 }
def rowWtClose : CmdRow := { op := 0x0403, right := .part 0 }
def rowWtSwitch : CmdRow := { op := 0x0404, right := .part 0 }
def rowWtRetire : CmdRow := { op := 0x0405, right := .part 0 }
def rowWtAbort : CmdRow := { op := 0x0406, right := .part 0 }
def rowWtStatus : CmdRow := { op := 0x0407, right := .part 0 }
def rowSvAdmit : CmdRow := { op := 0x0501, right := .part 1 }
def rowSvKvOpen : CmdRow := { op := 0x0502, right := .part 1, since := 0x0500 }
def rowSvCancel : CmdRow := { op := 0x0503, right := .part 1 }
def rowSvFinish : CmdRow := { op := 0x0504, right := .part 1 }
def rowSvPause : CmdRow := { op := 0x0505, right := .part 1 }
def rowSvResume : CmdRow := { op := 0x0506, right := .part 1 }
def rowSvStatus : CmdRow := { op := 0x0507, right := .part 1 }
def rowSvRingAck : CmdRow := { op := 0x0508, right := .part 1 }
def rowSvClassSet : CmdRow := { op := 0x0509, right := .part 1 }
def rowSvRole : CmdRow := { op := 0x050A, right := .part 1, since := 0x0500 }
def rowSvGrammarLoad : CmdRow := { op := 0x050B, right := .part 1, since := 0x0400 }
def rowSvSteerLoad : CmdRow := { op := 0x050C, right := .part 1, since := 0x0301 }
def rowSvKvResend : CmdRow := { op := 0x050D, right := .part 1, since := 0x0501 }
def rowMmCreate : CmdRow := { op := 0x0601, right := .part 2 }
def rowMmDelete : CmdRow := { op := 0x0602, right := .part 2 }
def rowMmInfo : CmdRow := { op := 0x0603, right := .part 2 }
def rowMmWrite : CmdRow := { op := 0x0604, right := .part 2 }
def rowMmRead : CmdRow := { op := 0x0605, right := .part 2 }
def rowMmMarkInit : CmdRow := { op := 0x0606, right := .part 2, since := 0x0501 }
def rowDbStop : CmdRow := { op := 0x0701, right := .level0 }
def rowDbStopNow : CmdRow := { op := 0x0702, right := .level0 }
def rowDbGo : CmdRow := { op := 0x0703, right := .level0 }
def rowDbWatchSet : CmdRow := { op := 0x0704, right := .part 3 }
def rowDbCoreRead : CmdRow := { op := 0x0705, right := .part 3 }
def rowDbCoreGo : CmdRow := { op := 0x0706, right := .part 3 }
def rowDbTrace : CmdRow := { op := 0x0707, right := .part 3 }
def rowDbDigest : CmdRow := { op := 0x0708, right := .part 3 }
def rowHlConfig : CmdRow := { op := 0x0801, right := .seen false }
def rowHlCounters : CmdRow := { op := 0x0802, right := .seen true }
def rowHlRepairMap : CmdRow := { op := 0x0803, right := .seen true }
def rowHlLedgerRead : CmdRow := { op := 0x0804, right := .level0 }
def rowHlFaults : CmdRow := { op := 0x0805, right := .seen true }
def rowHlBelfry : CmdRow := { op := 0x0806, right := .seen true }
def rowHlBelfryWrite : CmdRow := { op := 0x0806, right := .level0 }
def rowFbPortSet : CmdRow := { op := 0x0901, right := .level0 }
def rowFbRouteSet : CmdRow := { op := 0x0902, right := .level0 }
def rowFbJob : CmdRow := { op := 0x0903, right := .part 4 }
def rowFbBarrier : CmdRow := { op := 0x0904, right := .part 4 }
def rowFbReduce : CmdRow := { op := 0x0905, right := .part 4 }
def rowFbMcast : CmdRow := { op := 0x0906, right := .part 4, since := 0x0500 }
def rowFbStatus : CmdRow := { op := 0x0907, right := .part 4 }
def rowFbTime : CmdRow := { op := 0x0908, right := .part 4 }
def rowAsModeSet : CmdRow := { op := 0x0A01, right := .own, since := 0x0400 }
def rowAsAnswer : CmdRow := { op := 0x0A02, right := .own, since := 0x0400 }

/-! Table 11-7: opcodes of the packets only the module sends. -/
def opWeightsReport : Nat := 0x0480
def opTerminus : Nat := 0x0580
def opServingReport : Nat := 0x0581
def opDebugReport : Nat := 0x0780
def opHealthReport : Nat := 0x0880
def opAssist : Nat := 0x0A80

/-- The opcodes that are commands. -/
def commandOpcodes : List Nat :=
  [0x0101, 0x0102, 0x0103, 0x0104, 0x0105, 0x0201, 0x0202, 0x0203, 0x0204, 0x0205, 0x0206, 0x0301, 0x0302, 0x0303]
  ++ [0x0401, 0x0402, 0x0403, 0x0404, 0x0405, 0x0406, 0x0407]
  ++ [0x0501, 0x0502, 0x0503, 0x0504, 0x0505, 0x0506, 0x0507, 0x0508, 0x0509, 0x050A, 0x050B, 0x050C, 0x050D]
  ++ [0x0601, 0x0602, 0x0603, 0x0604, 0x0605, 0x0606]
  ++ [0x0701, 0x0702, 0x0703, 0x0704, 0x0705, 0x0706, 0x0707, 0x0708]
  ++ [0x0801, 0x0802, 0x0803, 0x0804, 0x0805, 0x0806]
  ++ [0x0901, 0x0902, 0x0903, 0x0904, 0x0905, 0x0906, 0x0907, 0x0908, 0x0A01, 0x0A02]

/-! Table 15-2: partition counters. -/
def pcTokens : Nat := 0x00
def pcSlots : Nat := 0x01
def pcAdmitted : Nat := 0x02
def pcRefused : Nat := 0x03
def pcLate : Nat := 0x04
def pcBoundBroken : Nat := 0x05
def pcSided : Nat := 0x06
def pcReplays : Nat := 0x07
def pcFaultReports : Nat := 0x08
def pcSegEvals : Nat := 0x09
def pcSpireMacs : Nat := 0x0A
def pcClips : Nat := 0x0B
def pcStackRd : Nat := 0x0C
def pcStackWr : Nat := 0x0D
def pcPortTx : Nat := 0x0E
def pcPortRx : Nat := 0x0F
def pcStaleTag : Nat := 0x10
def pcStaleJob : Nat := 0x11
def pcSteerMismatch : Nat := 0x12
def pcPoisonSet : Nat := 0x13
def pcPoisonDelivered : Nat := 0x14
def pcPoisonCleared : Nat := 0x15
def pcShardDiscards : Nat := 0x16
def pcAssistLate : Nat := 0x17
def pcDigestDrops : Nat := 0x18

/-! Table 15-2: field counters. -/
def fcSegEvals : Nat := 0x00
def fcStallWaits : Nat := 0x01
def fcBusyWindows : Nat := 0x02
def fcSleepNs : Nat := 0x03
def fcClips : Nat := 0x08
def fcRefDev : Nat := 0x09
def fcSpCorrected : Nat := 0x0A
def fcSpPoison : Nat := 0x0B
def fcTraceRecords : Nat := 0x0C
def fcTraceDrops : Nat := 0x0D
def fcTransportParity : Nat := 0x0E
def fcCtlRetries : Nat := 0x0F
def fcGatedWrites : Nat := 0x10
def fcGateRefusals : Nat := 0x11
def fcBelfryDiscards : Nat := 0x12
def fcAgentDiscards : Nat := 0x13
def fcPlatformHigh : Nat := 0x14

/-! Table 15-2: stack, port and module counters. -/
def scReadCb : Nat := 0x00
def scWriteCb : Nat := 0x01
def scParityOnly : Nat := 0x02
def scStrong : Nat := 0x03
def scUncorrectable : Nat := 0x04
def scOverrun : Nat := 0x05
def scPoisonSet : Nat := 0x06
def scPoisonDelivered : Nat := 0x07
def scPoisonCleared : Nat := 0x08
def scPatrolCb : Nat := 0x09
def scRemaps : Nat := 0x0A
def tcTxFlits : Nat := 0x00
def tcRxFlits : Nat := 0x01
def tcCrcRetries : Nat := 0x02
def tcFec : Nat := 0x03
def tcLanesDown : Nat := 0x04
def tcDiscards : Nat := 0x05
def mcWindows : Nat := 0x00
def mcHolds : Nat := 0x01
def mcHoldNs : Nat := 0x02
def mcStops : Nat := 0x03
def mcAccepted : Nat := 0x04
def mcRefused : Nat := 0x05
def mcAssists : Nat := 0x06

/-! Health event codes (Tables 6-9, 8-13, 9-8, 10-11). -/
def evWearNear : Nat := 0x10
def evWearOut : Nat := 0x11
def evTrimLimit : Nat := 0x12
def evDriftEarly : Nat := 0x13
def evRefreshOpen : Nat := 0x14
def evRefreshDue : Nat := 0x15
def evRefreshOverdue : Nat := 0x16
def evSpareLow : Nat := 0x17
def evRegionShort : Nat := 0x18
def evStuckListFull : Nat := 0x19
def evGoldenPoison : Nat := 0x1A
def evLedgerCopyLost : Nat := 0x1B
def evPowerStep : Nat := 0x20
def evThermalWarn : Nat := 0x21
def evThermalPark : Nat := 0x22
def evSensorBroken : Nat := 0x23
def evFieldIsolated : Nat := 0x24
def evShortTransient : Nat := 0x25
def evFeedLow : Nat := 0x26
def evGatedWrite : Nat := 0x27
def evStackFailover : Nat := 0x30
def evStackLost : Nat := 0x31
def evStackRemap : Nat := 0x32
def evStackRemapFull : Nat := 0x33
def evStackPoison : Nat := 0x34
def evTransportParity : Nat := 0x35
def evDecodeOverrun : Nat := 0x36
def evLaneDown : Nat := 0x40
def evPortDown : Nat := 0x41
def evPortUp : Nat := 0x42
def evLinkRetry : Nat := 0x43
def evTimeStep : Nat := 0x44
def evReduceFault : Nat := 0x45
def evVersionLimit : Nat := 0x46

/-- Table 14-5: the unit kind byte. -/
def UnitKind.code : UnitKind → Nat
  | .module => 0 | .field => 1 | .core => 2 | .engine => 3 | .array => 4 | .controlCore => 5
  | .spire => 6 | .dma => 7 | .station => 8 | .stack => 9 | .port => 10 | .converter => 11

end Sys2Proof.Machine
end

