-- ==== Sys2Proof/Machine/Ops.lean ====
section
/-! DEFINITION. The named operations over the state: its tables, the counters, fault records and reports, and the reply rules
of the command interface. -/

namespace Sys2Proof.Machine

/-- What every meaning answers. -/
abbrev Out := Host.Outcome State Fault Refusal

/-! The tables of the state: a record never written is the default record. -/

def State.field (s : State) (f : Nat) : Field := s.fields.find f {}
def State.setField (s : State) (f : Nat) (v : Field) : State := { s with fields := s.fields.put f v }
def State.updField (s : State) (f : Nat) (g : Field → Field) : State := s.setField f (g (s.field f))

def State.power (s : State) (f : Nat) : FieldPower := (s.field f).power
def State.updPower (s : State) (f : Nat) (g : FieldPower → FieldPower) : State :=
  s.updField f (fun v => { v with power := g v.power })

def State.core (s : State) (k : Nat) : Core := s.cores.find k {}
def State.setCore (s : State) (k : Nat) (v : Core) : State := { s with cores := s.cores.put k v }
def State.updCore (s : State) (k : Nat) (g : Core → Core) : State := s.setCore k (g (s.core k))

def Core.engine (c : Core) (e : Nat) : Engine := c.engines.find e {}
def Core.updEngine (c : Core) (e : Nat) (g : Engine → Engine) : Core :=
  { c with engines := c.engines.put e (g (c.engine e)) }
def Engine.array (e : Engine) (a : Nat) : Array := e.arrays.find a {}
def Engine.updArray (e : Engine) (a : Nat) (g : Array → Array) : Engine :=
  { e with arrays := e.arrays.put a (g (e.array a)) }
def State.updEngine (s : State) (k e : Nat) (g : Engine → Engine) : State :=
  s.updCore k (fun c => c.updEngine e g)
def State.updArray (s : State) (k e a : Nat) (g : Array → Array) : State :=
  s.updEngine k e (fun v => v.updArray a g)
def State.engine (s : State) (k e : Nat) : Engine := (s.core k).engine e
def State.array (s : State) (k e a : Nat) : Array := (s.engine k e).array a
/-- R65: the column map that a row program follows: the loaded shadow copy where one waits, else the map in force (log 26). -/
def Array.progMap (a : Array) : List (BitVec 16) := (a.shadow.map Prod.snd).getD a.colMap

/-- R60, R65: a trim record and column map in the shadow copy; under another map than before, every row's spares are still to be
programmed. -/
def Array.shadowed (a : Array) (w : Word) (map : List (BitVec 16)) : Array :=
  { a with shadow := some (w, map), mapRows := if map = a.progMap then a.mapRows else [] }

def State.updSp (s : State) (k : Nat) (g : Scratch → Scratch) : State :=
  s.updCore k (fun c => { c with sp := g c.sp })

def State.stack (s : State) (k : Nat) : Stack := s.stackSet.find k {}
def State.updStack (s : State) (k : Nat) (g : Stack → Stack) : State :=
  { s with stackSet := s.stackSet.put k (g (s.stack k)) }

def State.part (s : State) (p : Nat) : Partition := s.parts.find p {}
def State.updPart (s : State) (p : Nat) (g : Partition → Partition) : State :=
  { s with parts := s.parts.put p (g (s.part p)) }

def State.edition (s : State) (e : Nat) : Edition := s.editions.find e {}
def State.updEdition (s : State) (e : Nat) (g : Edition → Edition) : State :=
  { s with editions := s.editions.put e (g (s.edition e)) }

def State.req (s : State) (i : Nat) : Req := s.reqs.find i {}
def State.updReq (s : State) (i : Nat) (g : Req → Req) : State :=
  { s with reqs := s.reqs.put i (g (s.req i)) }

def State.conn (s : State) (c : Nat) : Connector := s.alaok.conns.find c {}
def State.updConn (s : State) (c : Nat) (g : Connector → Connector) : State :=
  { s with alaok := { s.alaok with conns := s.alaok.conns.put c (g (s.conn c)) } }
def State.updSess (s : State) (c : Nat) (g : Session → Session) : State :=
  s.updConn c (fun v => { v with sess := g v.sess })

def State.port (s : State) (p : Nat) : Port := s.fabric.ports.find p {}
def State.updPort (s : State) (p : Nat) (g : Port → Port) : State :=
  { s with fabric := { s.fabric with ports := s.fabric.ports.put p (g (s.port p)) } }

/-- R246: whether a field can take work now. -/
def Field.awake (f : Field) : Bool := decide (f.sleep = .lit ∨ f.sleep = .idle) && f.sleepTo.isNone && f.wakeAt.isNone

/-- The value of the timebase. -/
def State.now (s : State) : Nat := s.clock.tb.toNat

/-- The timebase, as the stamps of records hold it. -/
def State.stamp (s : State) : U64 := s.clock.tb

/-- Whether `n` nanoseconds have gone by since a stamp. -/
def State.since (s : State) (t : U64) : Nat := s.now - t.toNat

/-- The state after one free value has been read (log 2). -/
def State.drawn (s : State) : State := { s with free := s.free + 1 }

/-- Whether the module is powered. -/
def State.powered (s : State) : Bool := decide (s.mod.state ≠ .noPower)

/-- R361: whether the module is in service, or stopped. -/
def State.inService (s : State) : Bool := decide (s.mod.state = .inService)
def State.serving (s : State) : Bool := decide (s.mod.state = .inService ∨ s.mod.state = .stopped)

/-- R413 to R416: whether a stop has taken hold: no core runs and no boundary is declared. -/
def State.stopHolds (s : State) : Bool :=
  decide (s.mod.state = .stopped ∨ s.stop.kind = .settling ∨ s.stop.kind = .nowSpreading)

/-- R416: whether messages to the gate field are held: an immediate stop has reached its station. In a global stop the signal box and the
digest collector keep serving (R414). -/
def State.gateStopped (s : State) : Bool := (s.field gateField).stopArrived

/-! Counters (R403): they run from the end of phase 3, are 64-bit and wrap. -/

/-- A counter table with counter `k` raised by `n`. -/
def bump (m : Map Nat) (k n : Nat) : Map Nat := m.put k ((m.find k 0 + n) % 2 ^ 64)

/-- R403: whether the counters run. -/
def State.counting (s : State) : Bool := decide (3 ≤ s.mod.phase)

def State.countModule (s : State) (k n : Nat) : State :=
  if s.counting then { s with mod := { s.mod with ctr := bump s.mod.ctr k n } } else s
def State.countField (s : State) (f k n : Nat) : State :=
  if s.counting then s.updField f (fun v => { v with ctr := bump v.ctr k n }) else s
def State.countStack (s : State) (t k n : Nat) : State :=
  if s.counting then s.updStack t (fun v => { v with ctr := bump v.ctr k n }) else s
def State.countPart (s : State) (p k n : Nat) : State :=
  if s.counting ∧ p < partitionCount then s.updPart p (fun v => { v with ctr := bump v.ctr k n }) else s
def State.countPort (s : State) (p k n : Nat) : State :=
  if s.counting then s.updPort p (fun v => { v with ctr := bump v.ctr k n }) else s

/-- R403: an array counter, 32-bit and saturating. -/
def satCount (v n : Nat) : Nat := Nat.min (v + n) (2 ^ 32 - 1)

/-! Sessions and their partitions (R345). -/

/-- R345: whether a level-1 session of a key holds a partition. -/
def State.keyOwns (s : State) (key p : Nat) : Bool :=
  decide (key ≠ 0) && (s.part p).entry.valid && decide ((s.part p).entry.tenantKey.toNat = key)

/-- R345: whether a session may act for partition `p`, its validity aside at level 0. -/
def State.sessOwns (s : State) (c p : Nat) : Bool :=
  match (s.conn c).sess.level with
  | some 0 => decide (p < partitionCount)
  | some _ => s.keyOwns (s.conn c).sess.keyDigest p
  | none => false

/-- R345: the partitions of a session. -/
def State.sessParts (s : State) (c : Nat) : List Nat :=
  (List.range partitionCount).filter (fun p => s.sessOwns c p)

/-- Whether a session is at level 0. -/
def State.isLevel0 (s : State) (c : Nat) : Bool := decide ((s.conn c).sess.level = some 0)

/-! Packets to the control node (R314 to R316, R321). -/

/-- Table 11-6: the most parameter bytes of a packet. -/
def maxBody : Nat := 65536

/-- R321: bytes of a packet, its header included. -/
def OutPkt.size (p : OutPkt) : Nat := 32 + p.body.length

/-- R314, Table 11-1: the greatest payload of a frame on a link version. -/
def maxPayload (link : BitVec 16) : Nat := if link.toNat < 0x0200 then 2048 else 4096

/-- Frames and credit units that a packet takes on a link version (a packet starts its own frame, log 20). -/
def OutPkt.frames (p : OutPkt) (link : BitVec 16) : Nat := ceilDiv p.size (maxPayload link)
def OutPkt.units (p : OutPkt) : Nat := ceilDiv p.size 64

/-- R315: bytes of a retry buffer. -/
def retryBytes (l : List (Word × OutPkt)) : Nat := (l.map (fun e => e.2.size)).sum

/-- R315, R316: sends from the head of a stream's queue what credits and the retry buffer allow, of which the other streams
fill `held` bytes. -/
def pumpQueue (link : BitVec 16) (held : Nat) : List OutPkt → TxStream → TxStream
  | [], t => { t with queue := [] }
  | p :: rest, t =>
    if p.units ≤ t.credits ∧ held + retryBytes t.unacked + p.size ≤ 2 ^ 20 then
      pumpQueue link held rest
        { t with
          next := t.next + BitVec.ofNat 32 (p.frames link)
          credits := t.credits - p.units
          unacked := t.unacked ++ [(t.next + BitVec.ofNat 32 (p.frames link) - 1, p)] }
    else { t with queue := p :: rest }

/-- R318: whether a connector carries frames. -/
def Connector.carries (c : Connector) : Bool := c.up && c.hello

/-- R14, Table 7-1: a request tag as the module writes it: its reserved bits 0, unless it names no request. -/
def wireTag (t : Word) : Word := if t = 0xFFFFFFFF then t else t &&& 0x00FFFFFF

/-- R321, Table 11-6: the bytes of a packet. -/
def OutPkt.bytes (p : OutPkt) : List Byte :=
  leBytes 2 p.op ++ leBytes 1 ((if p.final then 1 else 0) + (if p.report then 2 else 0)) ++ leBytes 1 p.partition
    ++ leBytes 4 p.body.length ++ leBytes 4 p.cmdTag.toNat ++ leBytes 4 (wireTag p.reqTag).toNat ++ leBytes 8 p.stamp.toNat
    ++ leBytes 1 p.status ++ leBytes 1 p.cause ++ leBytes 2 p.detail ++ leBytes 4 0 ++ p.body

/-- R314, Table 11-1: the header bytes of a frame. -/
def FrameHead.bytes (x : FrameHead) : List Byte :=
  leBytes 1 x.ftype ++ leBytes 1 x.stream ++ leBytes 2 x.length ++ leBytes 4 x.seq.toNat ++ leBytes 4 x.ack.toNat
    ++ leBytes 1 x.ackStream ++ leBytes 1 x.creditStream ++ leBytes 2 x.credit

/-- R314: the frames that a connector sent, with one more: its header acknowledges what came on the stream heard last (log 182),
and its CRC-32C covers header and payload. -/
def Connector.framed (c : Connector) (ftype stream : Nat) (seq : Word) (credit : Nat) (payload : List Byte) : List FrameHead :=
  let x : FrameHead := { ftype := ftype, stream := stream, length := payload.length, seq := seq
                         ack := (c.rx.find c.heard {}).next - 1, ackStream := c.heard, creditStream := c.heard, credit := credit }
  c.heads ++ [{ x with crc := crc32c (x.bytes ++ payload) }]

/-- R314, R315: the frames of a packet whose last frame has number `last`: their numbers and payloads. -/
def OutPkt.cut (p : OutPkt) (link : BitVec 16) (last : Word) : List (Word × List Byte) :=
  let n := p.frames link
  (List.range n).map (fun i =>
    (last - BitVec.ofNat 32 (n - 1 - i), (p.bytes.drop (i * maxPayload link)).take (maxPayload link)))

/-- R314: data frames of a stream go out. -/
def Connector.sendFrames (c : Connector) (stream : Nat) (frames : List (Word × List Byte)) : Connector :=
  frames.foldl (fun v f => { v with heads := v.framed 1 stream f.1 0 f.2 }) c

/-- R315: bytes that the retry buffer holds of the other streams. -/
def Connector.heldOther (c : Connector) (stream : Nat) : Nat :=
  (([2, 3, 4].filter (· ≠ stream)).map (fun k => retryBytes (c.tx.find k {}).unacked)).sum

/-- R338: whether the session of a connector waits to be resumed. -/
def Session.suspended (v : Session) : Bool := v.isOpen && v.resumeBy.isSome

/-- A session that stands and is not suspended. -/
def Session.live (v : Session) : Bool := v.isOpen && v.resumeBy.isNone

/-- Sends packets on a stream of a connector that carries frames, ahead of those in `rest`, as far as credits and the retry
buffer allow, and notes when a frame last went (R317). -/
def Connector.push (c : Connector) (stream : Nat) (ps rest : List OutPkt) (now : U64) : Connector :=
  let t := c.tx.find stream {}
  let u := pumpQueue c.link (c.heldOther stream) ps t
  let new := u.unacked.drop t.unacked.length
  let w := ({ c with lastTx := if new.isEmpty then c.lastTx else now } : Connector).sendFrames stream
    (new.map (fun e => e.2.cut c.link e.1)).flatten
  { w with tx := c.tx.put stream { u with queue := u.queue ++ rest } }

/-- Sends what a connector's stream may send; terminus entries and assists wait for a session (R333, R339), and all waits for one
that is to be resumed (R338). -/
def Connector.pump (c : Connector) (stream : Nat) (now : U64) : Connector :=
  if c.carries && ((decide (stream = 2) && !c.sess.suspended) || c.sess.live) then
    c.push stream (c.tx.find stream {}).queue [] now
  else c

/-- R338: a waiting queue held to 1 MiB by discarding the oldest reports, and how many went. -/
def trimReports : Nat → List OutPkt → List OutPkt × Nat
  | 0, q => (q, 0)
  | n + 1, q =>
    if 2 ^ 20 < (q.map OutPkt.size).sum then
      match q.findIdx? (fun p => p.report) with
      | some i => let r := trimReports n (q.eraseIdx i); (r.1, r.2 + 1)
      | none => (q, 0)
    else (q, 0)

/-- Table 11-2: the stream of an opcode the module sends. -/
def streamOf (op : Nat) : Nat := if op = opAssist then 4 else if op = opTerminus then 3 else 2

/-- Sends what stream `k` of connector `c` may send. -/
def State.pumpOn (s : State) (c k : Nat) : State := s.updConn c (fun v => v.pump k s.stamp)

/-- R314, Table 11-2: sends what streams 2 to 4 of a connector may send, in the order of their priorities. -/
def State.pumpAll (s : State) (c : Nat) : State := ((s.pumpOn c 4).pumpOn c 2).pumpOn c 3

/-- Puts a packet on its stream of connector `c` and sends what may go (R316, R338). -/
def State.sendOn (s : State) (c : Nat) (p : OutPkt) : State :=
  let v := s.conn c
  let k := streamOf p.op
  let t := v.tx.find k {}
  let q := t.queue ++ [p]
  let tr := if (v.up ∧ v.sess.suspended = false) ∨ k ≠ 2 then (q, 0) else trimReports q.length q
  let s1 := (s.updConn c (fun v => { v with tx := v.tx.put k { t with queue := tr.1 } })).pumpAll c
  { s1 with alaok := { s1.alaok with discards := s1.alaok.discards + tr.2 } }

/-- Sends a packet past what waits on its stream for a session to be resumed (R338, log 182). -/
def State.sendPast (s : State) (c : Nat) (p : OutPkt) : State :=
  s.updConn c (fun v => v.push (streamOf p.op) [p] (v.tx.find (streamOf p.op) {}).queue s.stamp)

/-- R322: sends a packet that is no part of a session's traffic: a refusal. -/
def State.sendRefusal (s : State) (c : Nat) (p : OutPkt) : State :=
  if (s.conn c).sess.suspended then s.sendPast c p else s.sendOn c p

/-- R323, R337: whether an outstanding command is the one that came by connector `c` with tag `tag`. -/
def Outst.is (o : Outst) (c : Nat) (tag : Word) : Bool := decide (o.cmdTag = tag) && decide (o.conn = c)

/-- The connector whose session holds an outstanding command: the one it came by, or after a takeover the other (R337). -/
def State.owedOn (s : State) (c : Nat) (tag : Word) : Option Nat :=
  if (s.conn c).sess.outst.any (fun o => o.is c tag) then some c
  else if (s.conn (1 - c)).sess.outst.any (fun o => o.is c tag) then some (1 - c)
  else none

/-- R323: a reply to an accepted command; a final one ends it. A reply whose session has ended is discarded and counted
(R338). -/
def State.answer (s : State) (c : Nat) (tag : Word) (final : Bool) (status : Nat) (detail : Nat := 0)
    (req : Option Word := none) (body : List Byte := []) : State :=
  match s.owedOn c tag with
  | none => { s with alaok := { s.alaok with discards := s.alaok.discards + 1 } }
  | some d =>
    match (s.conn d).sess.outst.find? (fun o => o.is c tag) with
    | none => s
    | some o =>
      let s1 := if final then
          s.updSess d (fun v => { v with outst := v.outst.filter (fun x => !x.is c tag) })
        else s
      s1.sendOn d { op := o.op, final := final, partition := o.partition, cmdTag := tag,
                    reqTag := req.getD o.reqTag, stamp := o.stamp, status := status, detail := detail, body := body }

/-- R323: the final reply to an accepted command. -/
def State.finish (s : State) (c : Nat) (tag : Word) (status : Nat) (detail : Nat := 0)
    (req : Option Word := none) (body : List Byte := []) : State :=
  s.answer c tag true status detail req body

/-- R334, Table 12-5a: whether a session sees reports of a partition (none: a module-wide report). -/
def State.sees (s : State) (c : Nat) (part : Option Nat) : Bool :=
  match (s.conn c).sess.level with
  | none => false
  | some 0 => true
  | some _ => match part with
    | none => false
    | some p => s.sessOwns c p

/-- R334: a report to the session of connector `c`, under its report sequence. -/
def State.reportOn (s : State) (c : Nat) (op : Nat) (part : Option Nat) (tag : Word) (status cause detail : Nat)
    (body : List Byte) : State :=
  let seq := (s.conn c).sess.reportSeq
  (s.updSess c (fun v => { v with reportSeq := seq + 1 })).sendOn c
    { op := op, report := true, partition := part.getD 0, cmdTag := seq, reqTag := tag, stamp := s.stamp,
      status := status, cause := cause, detail := detail, body := body }

/-- R334: a report to the active session, if it may see it (log 21). -/
def State.report (s : State) (op : Nat) (part : Option Nat) (tag : Word) (status cause detail : Nat)
    (body : List Byte) : State :=
  if s.sees s.alaok.active part then s.reportOn s.alaok.active op part tag status cause detail body else s

/-- R334: a health report, past the filters of `HL_CONFIG`. -/
def State.event (s : State) (code addr : Nat) (part : Option Nat := none) (data : Nat := 0) : State :=
  if (s.conn s.alaok.active).sess.filter.contains code then s
  else s.report opHealthReport part 0xFFFFFFFF stEvent code 0
    (leBytes 4 addr ++ leBytes 1 (part.getD 255) ++ leBytes 3 0 ++ leBytes 8 data)

/-! Fault signature records (R401). -/

/-- R401: the newest 4,096 records, with one more. -/
def addFault (l : List FaultRec) (r : FaultRec) : List FaultRec := (l ++ [r]).drop (l.length + 1 - 4096)

/-- The state with another module record. -/
def State.setMod (s : State) (m : ModStatus) : State := { s with mod := m }

/-- A fault record as it is kept: its sequence, stamp and window. -/
def State.faultRec (s : State) (r : FaultRec) : FaultRec :=
  { r with seq := s.mod.faultSeq, stamp := s.stamp, window := s.plan.window, data := r.data.take 24 }

/-- Records a fault, the newest 4,096 kept. -/
def State.fault (s : State) (r : FaultRec) : State :=
  s.setMod { s.mod with faultSeq := s.mod.faultSeq + 1, faults := addFault s.mod.faults (s.faultRec r) }

/-! Units taken out (R396); the rest is done at the boundary. -/

/-- R396: a unit is to be taken out of service at the next boundary. -/
def State.takeOut (s : State) (unit : Nat) (kind : UnitKind) : State :=
  if s.plan.outUnits.any (fun u => u.unit = unit ∧ !u.serves) then s
  else { s with plan := { s.plan with outUnits := s.plan.outUnits.filter (fun u => u.unit ≠ unit) ++ [{ unit := unit, kind := kind }] } }

/-! The checks of R322. -/

/-- R357: whether the boot ROM serves the sessions (no firmware image passed, or the factory region failed). -/
def State.romSession (s : State) : Bool :=
  decide (s.mod.state = .bringUp) && (decide (s.mod.failure = some .firmware) || decide (s.mod.failure = some .factory))

/-- R340: whether a command acts for the partition its header names. -/
def Right.actsFor : Right → Bool
  | .part _ => true
  | .own => true
  | _ => false

/-- R322 step 4: the session's privilege and partition rights allow the command (R318, R337, R340, R345); the boot ROM's session
may send `SS_OPEN`, `SS_ECHO`, `MG_INFO` and `PR_SET` operation 3, and nothing else (R357, log 200). -/
def State.permits (s : State) (h : Hdr) (r : CmdRow) : Bool :=
  let v := (s.conn h.conn).sess
  let p := h.partition.toNat
  match r.right with
  | .session => !s.romSession || decide (r = rowSsOpen) || decide (r = rowSsEcho)
  | .info => decide (s.mod.state = .bringUp) || (v.level.isSome && !v.standby && (s.isLevel0 h.conn || !(s.sessParts h.conn).isEmpty))
  | .any => v.level.isSome && !v.standby && (s.isLevel0 h.conn || !(s.sessParts h.conn).isEmpty)
  | .level0 => decide (v.level = some 0) && (!v.standby || decide (r = rowSsTakeover) || decide (r = rowHlLedgerRead))
  | .firmware => s.romSession || (decide (v.level = some 0) && !v.standby)
  | .part bit => !v.standby && (s.part p).entry.valid && s.sessOwns h.conn p
      && (s.isLevel0 h.conn || (s.part p).entry.rights.getLsbD bit)
  | .own => !v.standby && (s.part p).entry.valid && s.sessOwns h.conn p
  | .seen reads => v.level.isSome && (!v.standby || reads) && (s.isLevel0 h.conn || !(s.sessParts h.conn).isEmpty)

/-- Table 13-1: the health and debug commands that read, and `MG_RESET`. -/
def allowedOutOfService (r : CmdRow) : Bool :=
  r.right = .session || r = rowHlCounters || r = rowHlRepairMap || r = rowHlLedgerRead || r = rowHlFaults
  || r = rowHlBelfry || r = rowDbCoreRead || r = rowDbTrace || r = rowMgReset || r = rowSsTakeover

/-- R322 step 5: the module's state allows the command (R361, R414); `MG_SELFTEST` has a check of its own (R375). -/
def State.stateAllows (s : State) (r : CmdRow) : Bool :=
  decide (r = rowMgSelftest) || match s.mod.state with
  | .noPower => false
  | .bringUp => decide (r.right = .session) || decide (r.right = .info) || decide (r = rowSsTakeover)
      || (s.romSession && decide (r = rowPrFirmware))
  | .inService => true
  | .stopped => !(r.op / 256 = 4 || r.op / 256 = 5 || r.op / 256 = 9)
  | .outOfService => allowedOutOfService r

/-- R322 steps 1 to 6, in order: the status of the first check that fails. `lenOk` says whether the length agrees with the
layout, `fields` is the command set that the highest of the field values needs, `link` the link version. A session that waits to
be resumed takes no command but `SS_OPEN` (R338). -/
def State.checks (s : State) (h : Hdr) (r : CmdRow) (lenOk : Bool) (fields link : Nat) : Option Nat :=
  let v := (s.conn h.conn).sess
  if !lenOk then some stBadLength
  else if v.live && (decide (v.cmdSet.toNat < Nat.max r.since fields) || decide ((s.conn h.conn).link.toNat < link)) then
    some stVersion
  else if !v.live && decide (r = rowSsAuth) then some stBadState
  else if !v.live && !decide (r = rowSsOpen) then some stDenied
  else if !s.permits h r then some stDenied
  else if !s.stateAllows r then some stNotInService
  else if v.outst.any (fun o => o.cmdTag = h.cmdTag) || decide (4096 ≤ v.outst.length) then some stBusy
  else none

/-- What the checks of a command after step 6 decide: a refusal with its status, detail and body, or the command's effect. -/
inductive Verdict where
  | refuse (status : Nat) (detail : Nat) (body : List Byte)
  | run (s : State)

/-- R322: a refused command has no effect but its reply and the counters of refusals (Table 15-2). -/
def State.refuse (s : State) (h : Hdr) (r : CmdRow) (status detail : Nat) (body : List Byte) : State :=
  let p := h.partition.toNat
  let s1 := s.countModule mcRefused 1
  let s2 := if status = stRefusedCapacity ∨ status = stRefusedBound then s1.countPart p pcRefused 1
    else if status = stStaleTag then s1.countPart p pcStaleTag 1 else s1
  s2.sendRefusal h.conn { op := r.op, final := true, partition := p, cmdTag := h.cmdTag, reqTag := h.reqTag, stamp := s.stamp,
                          status := status, detail := detail, body := body }

/-- R322, R323: an accepted command is outstanding until its final reply. -/
def State.owe (s : State) (h : Hdr) (r : CmdRow) : State :=
  (s.countModule mcAccepted 1).updSess h.conn (fun v => { v with outst := v.outst ++
    [{ op := r.op, cmdTag := h.cmdTag, partition := h.partition.toNat, reqTag := h.reqTag, stamp := s.stamp, conn := h.conn }] })

/-- R322: takes a command's packet off those that left reassembly, where its bytes were seen there. -/
def State.takePacket (s : State) (h : Hdr) : State :=
  let mine := fun (x : Nat × List Byte) => decide (x.1 = h.conn) && decide (natAt x.2 8 4 = h.cmdTag.toNat)
  match s.alaok.accepted.findIdx? mine with
  | some i => { s with alaok := { s.alaok with accepted := s.alaok.accepted.eraseIdx i } }
  | none => s

/-- R322: a command's acceptance: the checks in order, then `act`, which sees the state with the command outstanding. A
packet that arrives by a connector that carries no frames, or with no power, is not accepted at all. `body` is that of a refusal at steps
2 to 6, where the command's parameters stand (R328). -/
def State.command (s : State) (h : Hdr) (r : CmdRow) (lenOk : Bool) (act : State → Verdict) (fields : Nat := 0)
    (link : Nat := 0) (body : State → List Byte := fun _ => []) : State :=
  if !s.powered || !(s.conn h.conn).carries then s
  else
    let s := s.takePacket h
    match s.checks h r lenOk fields link with
    | some st => s.refuse h r st 0 (if lenOk then body s else [])
    | none => match act (s.owe h r) with
      | .refuse st d b => s.refuse h r st d b
      | .run s' => s'

/-- The final reply to the command in hand. -/
def State.ok (s : State) (h : Hdr) (status : Nat := stOk) (detail : Nat := 0) (body : List Byte := []) : State :=
  s.finish h.conn h.cmdTag status detail none body

/-- R323: the first reply, `ACCEPTED` or `PENDING`, with `final` clear. -/
def State.interim (s : State) (h : Hdr) (status : Nat) (detail : Nat := 0) (body : List Byte := []) : State :=
  s.answer h.conn h.cmdTag false status detail none body

/-- R360: the oldest attestation in progress is signed, and its final `OK` goes out (log 129). -/
def State.attestDone (s : State) : State :=
  match s.mod.attests with
  | [] => s
  | x :: rest => ({ s with mod := { s.mod with attests := rest } } : State).finish x.conn x.cmdTag stOk 0 none x.report

/-- The attestations in progress end with a status, since the module leaves service. -/
def State.attestsEnd (s : State) : State :=
  s.mod.attests.foldl (fun (t : State) x => t.finish x.conn x.cmdTag stNotInService) { s with mod := { s.mod with attests := [] } }

/-- R324: holds a command until the next boundary. -/
def State.defer (s : State) (d : Deferred) : State :=
  { s with mod := { s.mod with deferred := s.mod.deferred ++ [d] } }

/-! Assists (R335, R336). -/

/-- R335: whether a partition decides function `f` with assists; below link 2.0 or command set 4.0 no (R320). -/
def State.assisted (s : State) (p f : Nat) : Bool :=
  let c := s.conn s.alaok.active
  (s.part p).modes.getLsbD (f - 1) && decide (0x0200 ≤ c.link.toNat) && decide (0x0400 ≤ c.sess.cmdSet.toNat)
    && c.sess.isOpen

/-- R336: whether a partition may have one more assist outstanding. -/
def State.assistRoom (s : State) (p : Nat) : Bool :=
  decide ((s.alaok.assists.filter (fun a => a.partition = p)).length < 4096)

/-- R336: sends an assist request; its ID is the next one. -/
def State.sendAssist (s : State) (a : Assist) (tag : Word) (body : List Byte) : State :=
  let id := s.alaok.nextAssist
  let s1 := { s with alaok := { s.alaok with
    assists := s.alaok.assists ++ [{ a with id := id }], nextAssist := id + 1 } }
  (s1.countModule mcAssists 1).sendOn s.alaok.active
    { op := opAssist, report := true, partition := a.partition, cmdTag := id, reqTag := tag, stamp := s.stamp,
      body := leBytes 4 id.toNat ++ leBytes 1 a.fn ++ leBytes 1 a.sub ++ leBytes 2 0 ++ leBytes 8 a.deadline.toNat ++ body }

/-- Takes an assist off the outstanding ones. -/
def State.dropAssist (s : State) (id : Word) : State :=
  { s with alaok := { s.alaok with assists := s.alaok.assists.filter (fun a => a.id ≠ id) } }

/-- R336: an assist's deadline passes: it is outstanding no longer, and a later answer to it is known to be late. -/
def State.expireAssist (s : State) (a : Assist) : State :=
  let t := s.dropAssist a.id
  { t with alaok := { t.alaok with expired := t.alaok.expired ++ [(a.id, a.partition)] } }

/-! Changes put to the ledger (R178). -/

/-- The ledger's key of an array: its core's key, engine and array in one number (Table 6-6, with the field number for its
rank). -/
def arrayKey (k e a : Nat) : Nat := (k * enginesPerCore + e) * arraysPerEngine + a
def arrayKeyCore (n : Nat) : Nat := n / (enginesPerCore * arraysPerEngine)
def arrayKeyEngine (n : Nat) : Nat := n / arraysPerEngine % enginesPerCore
def arrayKeyArray (n : Nat) : Nat := n % arraysPerEngine

/-! Table 6-8: record kinds, and which part of a record a change writes. -/
def jkField : Nat := 1
def jkCore : Nat := 2
def jkRelocation : Nat := 3
def jkStuck : Nat := 4
def jkArray : Nat := 5
def jkHeader : Nat := 6
/-- Field: an isolation, a broken sensor. -/
def jwIsolated : Nat := 1
def jwSensor : Nat := 2
/-- Array: the first and the second wear raise of a job (R159), the state, the column map, `stamp`, the trims. -/
def jwRaise : Nat := 1
def jwRaise2 : Nat := 2
def jwState : Nat := 3
def jwMap : Nat := 4
def jwStamp : Nat := 5
def jwTrim : Nat := 6
/-- Array: a program cycle of a core's own `PROG_ROW`, which no job counts (R42, log 140). -/
def jwCycle : Nat := 7
/-- Core: the engine map, a row remap entry, the state. -/
def jwEmap : Nat := 1
def jwRemap : Nat := 2
def jwCoreState : Nat := 3

/-- R178: a change to the ledger waits for its commit. -/
def State.journal (s : State) (c : JournalChange) : State :=
  { s with ledger := { s.ledger with waiting := s.ledger.waiting ++ [c] } }

/-- Whether a change waits for its commit. -/
def Ledger.waits (l : Ledger) (kind key what : Nat) : Bool :=
  l.waiting.any (fun c => decide (c.kind = kind) && decide (c.key = key) && decide (c.what = what))

/-- A change to an array's record. -/
def State.journalArray (s : State) (k e a what val : Nat) (vals : List Nat := []) : State :=
  s.journal { kind := jkArray, key := arrayKey k e a, what := what, val := val, vals := vals }

/-- Whether one waits. -/
def State.arrayWaits (s : State) (k e a what : Nat) : Bool := s.ledger.waits jkArray (arrayKey k e a) what

end Sys2Proof.Machine
end

