-- ==== Sys2Proof/Machine/Pace.lean ====
section
/-! DEFINITION. Pace, temperature and power figures: floors and setpoints (R29 to R35), the firing allowance (R36), throttle
steps (R225) and the belfry's temperature codes (R234). -/

namespace Sys2Proof.Machine

/-- Table 1-3: the setpoints, in millivolts, by index 0 to 4. -/
def setpointMv (i : Nat) : Nat := [650, 700, 750, 800, 850].getD i 850

/-- Table 1-3: the guaranteed pace floor, in hundredths of a stage per nanosecond, by setpoint and band; band 5 has none. -/
def paceFloor (setpoint band : Nat) : Nat :=
  (([[130, 124, 118, 114, 110], [156, 149, 142, 137, 132], [188, 180, 172, 166, 160],
    [212, 204, 196, 190, 184], [232, 224, 216, 210, 204]] : List (List Nat)).getD setpoint []).getD band 0

/-- R234, Table 8-6: the 12-bit code of a temperature in degrees. -/
def degCode (t : Nat) : Nat := (t + 50) * 16

/-- R234: a temperature code in tenths of a degree, rounded down. -/
def codeTenths (c : Nat) : Int := (c * 5 / 8 : Nat) - 500

/-- R234: a temperature code in whole degrees, rounded down. -/
def codeDeg (c : Nat) : Int := (c / 16 : Nat) - 50

/-- R30, R31 step 3: the band of a planning temperature code. -/
def bandOf (c : Nat) : Nat :=
  if c ≤ degCode 45 then 0 else if c ≤ degCode 60 then 1 else if c ≤ degCode 75 then 2
  else if c ≤ degCode 85 then 3 else if c ≤ degCode 95 then 4 else 5

/-- The sensors of a field, 0 to 7. -/
def Field.sensorList (f : Field) : List Sensor := (List.range 8).map (fun i => f.sensors.find i {})

/-- R228: the working sensors, and the hottest code among them. -/
def Field.working (f : Field) : List Sensor := f.sensorList.filter (fun x => !x.broken)
def Field.hottest (f : Field) : Nat := f.working.foldl (fun m x => Nat.max m x.code) 0

/-- R240: the largest rise permitted over a horizon of 2 ms, in code steps, rounded up. -/
def permittedRise (rho : Nat) : Nat := ceilDiv (rho * 2 * 16) 10

/-- R31, R242: the planning temperature code of a field. -/
def planningCode (rho : Nat) (f : Field) : Nat :=
  let w := f.hottest + permittedRise rho
  if f.sensorList.any (fun x => x.broken) then Nat.max w (degCode 95) else w

/-- R32: the floor of a field: while its rail slews, the lower of the old and the new setpoint's. -/
def FieldPower.floor (p : FieldPower) : Nat :=
  let n := paceFloor p.setpoint p.band
  match p.oldSetpoint with
  | some o => Nat.min n (paceFloor o p.band)
  | none => n

/-- Table 8-2: planned limit, hard limit, highest setpoint and grant cap of a step. -/
def stepPlanned (i : Nat) : Nat := [560, 500, 440, 380, 320, 260, 200, 60].getD i 60
def stepHard (i : Nat) : Nat := [700, 625, 550, 475, 400, 325, 250, 75].getD i 75
def stepSetpoint (i : Nat) : Nat := [4, 4, 3, 3, 2, 1, 0, 0].getD i 0
def stepCap (i : Nat) : Nat := [300, 250, 200, 150, 120, 100, 75, 0].getD i 0

/-- R225: the highest-numbered step whose cap is at least a share. -/
def baseStep (share : Nat) : Nat := ((List.range 8).filter (fun i => share ≤ stepCap i)).foldl Nat.max 0

/-- R30, R33, Table 8-2: whether the timetable may give a field work: it has a pace floor, is not parked at step 7 and is not
replanned without work. -/
def FieldPower.takesWork (p : FieldPower) : Bool := decide (p.floor ≠ 0) && decide (p.step ≠ 7) && !p.noWork

/-- The limits of a field in force. -/
def FieldPower.limits (p : FieldPower) : Limits := { step := p.step, grant := p.grant, setpoint := p.setpoint, band := p.band }

/-- The limits a field will have once all that is decided is applied. -/
def FieldPower.nextLimits (p : FieldPower) : Limits := ((p.drops.getLast?).map Drop.limits).getD p.limits

/-- R36: the firing allowance of a granted power in watts, in segment evaluations per microsecond. -/
def allowanceOf (watts : Nat) : Nat := watts * 10 ^ 9 / 131072

/-- The state with decided limits in force at once, to measure a proposal or a plan by. -/
def State.withLimits (s : State) (l : List (Nat × Limits)) : State :=
  l.foldl (fun (t : State) (x : Nat × Limits) => t.updPower x.1 (fun p => { p with
    step := x.2.step, grant := x.2.grant, setpoint := x.2.setpoint, band := x.2.band, allowNext := allowanceOf x.2.grant })) s

/-- R34: a stage count at a pace in hundredths, in picoseconds, rounded up; pace 0 has no figure and answers 0. -/
def stagesToPs (n p : Nat) : Nat := (n * 100000 + p - 1) / p

/-- R26: the fields whose stations no packet may enter. -/
def State.closedFields (s : State) : List Nat := allFields.filter (fun x => (s.field x).detour)

/-- R371, Table 13-5: whether the link between two neighbours is up: both ends found wires enough in each byte lane. -/
def State.linkOpen (s : State) (f g : Nat) : Bool := !(s.field f).linksDown.contains g && !(s.field g).linksDown.contains f

/-- Whether every link on a way is up. -/
def State.linksOpen (s : State) (way : List Nat) : Bool := (way.zip (way.drop 1)).all (fun x => s.linkOpen x.1 x.2)

/-- R26: a detour of at most 4 hops more than the route of R25; one that is longer is none. -/
def cappedDetour (ok : Nat → Nat → Bool) (f g : Nat) : List Nat :=
  let way := detourRoute ok f g
  if gridDistance f g + 4 < way.length - 1 then [] else way

/-- R26, R371: the detour entries of a station: the routes of R25 that cross a closed field or a link that is down, by destination,
around it. -/
def State.detoursOf (s : State) (f : Nat) : Map (List Nat) :=
  let closed := s.closedFields
  if closed.isEmpty && allFields.all (fun x => (s.field x).linksDown.isEmpty) then .empty
  else
    let far := allFields.filter (fun g => !closed.contains g
      && ((gridRoute f g).any (fun x => closed.contains x) || !s.linksOpen (gridRoute f g)))
    { entries := far.map (fun g => (g, cappedDetour (fun a b => !closed.contains b && s.linkOpen a b) f g)) }

/-- R26: the signal box loads the detour entries of every station. -/
def State.loadDetours (s : State) : State :=
  allFields.foldl (fun (t : State) f => t.updField f (fun v => { v with detours := s.detoursOf f })) s

/-- R25, R26: the fields on the way of a packet from `f` to `g`: along the grid, or by the detour entry of its station. -/
def State.route (s : State) (f g : Nat) : List Nat := ((s.field f).detours.find? g).getD (gridRoute f g)

/-- R11, R120: the physical core that serves a placement index. -/
def State.physOf (s : State) (place : Nat) : Nat := s.ledger.relocation.find place place

/-- R25, R81: the fields on the way of a hand-off or reduction packet. -/
def State.edgeRoute (s : State) (e : Edge) : List Nat := s.route (e.src / coresPerField) (s.physOf e.dest / coresPerField)

/-- R25, R26: hops between two fields; where no way is left, 4 more than the grid's, the most a detour adds (log 119). -/
def State.hops (s : State) (f g : Nat) : Nat :=
  match (s.field f).detours.find? g with
  | none => gridDistance f g
  | some [] => gridDistance f g + 4
  | some l => l.length - 1

/-- R223: the array budget in force. -/
def Budget.inForce (b : Budget) : Nat := Nat.min b.arrayLimit (b.powerLimit - 15000) - b.red

/-- R368, R398: whether a field is in reserve, neither lost nor isolated. -/
def State.inReserve (s : State) (f : Nat) : Bool :=
  let v := s.field f
  decide (v.role = .roundhouse) && !v.lost && !v.fenced && decide (v.power.iso = .none)

/-- R396: whether a core of a field serves a placement core. -/
def State.servesIn (s : State) (f : Nat) : Bool :=
  (List.range coresPerField).any (fun c => decide ((s.core (coreKey f c)).edition ≠ 0) && (s.core (coreKey f c)).placeId.isSome)

/-- R368, R396: the service fields, and a reserve field from when it serves work of a failed core (log 184). -/
def State.serviceFields (s : State) : List Nat :=
  s.mod.serviceSet ++ allFields.filter (fun f => s.inReserve f && !s.mod.serviceSet.contains f && s.servesIn f)

/-- R31, R33: whether a field's limits are decided: a service field or one in reserve. -/
def State.limited (s : State) (f : Nat) : Bool := s.serviceFields.contains f || s.inReserve f

/-- R224, R36: the default share. -/
def State.defaultShare (s : State) : Nat :=
  if s.serviceFields.length = 0 then 0 else s.budget.inForce / s.serviceFields.length

/-! Fault signature records about units (R401). -/

/-- R11, R341: the owner of a physical core: of the placement core it serves. -/
def State.ownerOf (s : State) (place : Nat) : Nat := s.mod.coreMap.find place 255

/-- R401: the fields of a record that a field's state gives. -/
def State.fieldRec (s : State) (f : Nat) (r : FaultRec) : FaultRec :=
  let v := s.field f
  { r with setpointMv := setpointMv v.power.setpoint, temp := codeTenths v.hottest, pace := v.power.pace,
           floor := v.power.floor }

/-- R401: a record against a field. -/
def State.faultField (s : State) (f kind action : Nat) (unitKind : UnitKind) (data : List Byte) : State :=
  s.fault (s.fieldRec f { kind := kind, unit := f * 2 ^ 15, unitKind := unitKind, action := action, data := data })

/-- R401: a record against a core, or a unit of it at packed address `unit`; that of an array gives its wear and age. -/
def State.faultCore (s : State) (k unit kind action : Nat) (unitKind : UnitKind) (data : List Byte)
    (tag : Word := 0xFFFFFFFF) (layer : Nat := 0xFFFF) (marks : Nat := 0) : State :=
  let c := s.core k
  let place := c.placeId.getD k
  let a := s.array k (unpackEngine unit) (unpackArray unit)
  let onArray := decide (unitKind = .array)
  s.fault (s.fieldRec (k / coresPerField)
    { kind := kind, unit := unit, unitKind := unitKind, action := action, data := data, tag := tag, layer := layer,
      marks := marks, place := match c.placeId with | some p => packedCore p | none => 0
      partition := s.ownerOf place, sect := if c.placeId.isSome then c.entry.sect else 255
      edition := c.edition, wear := if onArray then a.wear else 0
      ageS := if onArray then (s.field (k / coresPerField)).ageAcc / 2 ^ 16 - a.stamp else 0 })

end Sys2Proof.Machine
end

