-- ==== Sys2Proof/Machine/Scratchpad.lean ====
section
/-! DEFINITION. The scratchpad: its Hamming code (R95), the row remap (R99), gated banks (R248, R249), unfilled bytes (R101),
and the read and write that every unit of a core uses. -/

namespace Sys2Proof.Machine

/-- R92: bytes of the addressed scratchpad, bytes of a line and of a power bank. -/
def spBytes : Nat := 2 ^ 23
def spLine : Nat := 256
def spBank : Nat := 2 ^ 20

/-- R95: the check bits c0 to c4 of a data byte. -/
def eccC0 (d : Byte) : Bool := d.getLsbD 0 ^^ d.getLsbD 1 ^^ d.getLsbD 3 ^^ d.getLsbD 4 ^^ d.getLsbD 6
def eccC1 (d : Byte) : Bool := d.getLsbD 0 ^^ d.getLsbD 2 ^^ d.getLsbD 3 ^^ d.getLsbD 5 ^^ d.getLsbD 6
def eccC2 (d : Byte) : Bool := d.getLsbD 1 ^^ d.getLsbD 2 ^^ d.getLsbD 3 ^^ d.getLsbD 7
def eccC3 (d : Byte) : Bool := d.getLsbD 4 ^^ d.getLsbD 5 ^^ d.getLsbD 6 ^^ d.getLsbD 7
def eccC4 (d : Byte) : Bool :=
  d.getLsbD 0 ^^ d.getLsbD 1 ^^ d.getLsbD 2 ^^ d.getLsbD 3 ^^ d.getLsbD 4 ^^ d.getLsbD 5 ^^ d.getLsbD 6 ^^ d.getLsbD 7
  ^^ eccC0 d ^^ eccC1 d ^^ eccC2 d ^^ eccC3 d

/-- R95: the 13 stored bits of a clean byte: the data in bits 0 to 7, c0 to c4 in bits 8 to 12. -/
def eccWord (d : Byte) : BitVec 13 :=
  BitVec.ofBool (eccC4 d) ++ BitVec.ofBool (eccC3 d) ++ BitVec.ofBool (eccC2 d) ++ BitVec.ofBool (eccC1 d)
    ++ BitVec.ofBool (eccC0 d) ++ d

/-- R95: what makes a clean word a poisoned one: c0 and c1 inverted. -/
def eccPoison : BitVec 13 := 0x300

/-- R95: the data byte of a stored word. -/
def eccData (w : BitVec 13) : Byte := w.extractLsb' 0 8

/-- R95: the syndrome S of a stored word. -/
def eccSyndrome (w : BitVec 13) : Nat :=
  let d := eccData w
  (eccC0 d ^^ w.getLsbD 8).toNat + 2 * (eccC1 d ^^ w.getLsbD 9).toNat + 4 * (eccC2 d ^^ w.getLsbD 10).toNat
    + 8 * (eccC3 d ^^ w.getLsbD 11).toNat

/-- R95: whether the parity over the 13 stored bits is odd. -/
def eccOdd (w : BitVec 13) : Bool := ((List.range 13).map (fun i => w.getLsbD i)).foldl (· ^^ ·) false

/-- R95: the data bit at a Hamming position, none for a check bit. -/
def eccDataBit (pos : Nat) : Option Nat :=
  if pos = 3 then some 0 else if pos = 5 then some 1 else if pos = 6 then some 2 else if pos = 7 then some 3
  else if 9 ≤ pos ∧ pos ≤ 12 then some (pos - 5) else none

/-- A byte as read: its value, its poison mark, and the position corrected (13 for c4). -/
structure SpByte where
  byte   : Byte
  poison : Bool
  fixed  : Option Nat
deriving DecidableEq, Repr

/-- R95: a read of a stored word. -/
def eccDecode (w : BitVec 13) : SpByte :=
  let pos := eccSyndrome w
  let d := eccData w
  if pos = 0 ∧ !eccOdd w then { byte := d, poison := false, fixed := none }
  else if pos = 0 then { byte := d, poison := false, fixed := some 13 }
  else if eccOdd w ∧ pos ≤ 12 then
    match eccDataBit pos with
    | some i => { byte := d ^^^ (BitVec.twoPow 8 i), poison := false, fixed := some pos }
    | none => { byte := d, poison := false, fixed := some pos }
  else { byte := d, poison := true, fixed := none }

/-- R99: the line that serves an addressed line: a spare line where an entry is in force. -/
def Scratch.physLine (p : Scratch) (line : Nat) : Nat :=
  match p.remap.find? (fun r => r.line = line) with
  | some r => 32768 + r.spare
  | none => line

/-- R99: the spare lines that take a copy of the writes to a line. -/
def Scratch.copyLines (p : Scratch) (line : Nat) : List Nat :=
  ((p.copying ++ p.waiting).filter (fun r => r.line = line)).map (fun r => 32768 + r.spare)

/-- The storage address of a byte address. -/
def Scratch.phys (p : Scratch) (a : Nat) : Nat := p.physLine (a / spLine) * spLine + a % spLine

/-- R247: whether an address lies in a gated power bank. -/
def Scratch.isGated (p : Scratch) (a : Nat) : Bool := p.gated.getLsbD (a / spBank)

/-- R101, R249: whether a line's bytes are not what was written: no fill ran, or its bank was ungated, and nothing has been
written to the line since. -/
def Scratch.unwritten (p : Scratch) (line : Nat) : Bool :=
  (!p.filled || p.voidBanks.getLsbD (line * spLine / spBank)) && !p.written.contains line

/-- The stored word at a byte address. -/
def Scratch.word (p : Scratch) (a : Nat) : BitVec 13 :=
  eccWord (p.mem.read (p.phys a)) ^^^ p.errs.find (p.phys a) 0

/-- A byte as core `key` reads it: poisoned from a gated or ungated and unwritten bank (R249), a free value where no fill ran
(R101), else decoded from what is stored (R95). -/
def Scratch.readByte (p : Scratch) (key a : Nat) : SpByte :=
  if p.isGated a || (p.voidBanks.getLsbD (a / spBank) && p.unwritten (a / spLine)) then
    { byte := eccData (Config.unfilledByte key a), poison := true, fixed := none }
  else if p.unwritten (a / spLine) then eccDecode (Config.unfilledByte key a)
  else eccDecode (p.word a)

/-- The bytes that a read of `n` bytes from `a` on returns. -/
def Scratch.view (p : Scratch) (key a n : Nat) : List SpByte := (List.range n).map (fun i => p.readByte key (a + i))

/-- Stores a 13-bit word at a storage address, as its data byte and its difference from a clean word. -/
def Scratch.store (p : Scratch) (a : Nat) (w : BitVec 13) : Scratch :=
  let e := eccWord (eccData w) ^^^ w
  { p with mem := p.mem.write a (eccData w), errs := if e = 0 then p.errs.erase a else p.errs.put a e }

/-- R101, R249: at the first write to an unwritten line its other bytes become stored words: free values, or poisoned in an
ungated bank. -/
def Scratch.settleLine (p : Scratch) (key line : Nat) : Scratch :=
  if p.unwritten line then
    let void := p.voidBanks.getLsbD (line * spLine / spBank)
    let q := (List.range spLine).foldl (fun q i =>
      let a := line * spLine + i
      let w := Config.unfilledByte key a
      q.store (p.phys a) (if void then eccWord (eccData w) ^^^ eccPoison else w)) p
    { q with written := insertNat line q.written }
  else p

/-- R95, R99: a write of one byte, its copies to spare lines with it. -/
def Scratch.put (p : Scratch) (key a : Nat) (b : Byte) (poison : Bool) : Scratch :=
  let q := p.settleLine key (a / spLine)
  let w := if poison then eccWord b ^^^ eccPoison else eccWord b
  (q.copyLines (a / spLine)).foldl (fun r l => r.store (l * spLine + a % spLine) w) (q.store (q.phys a) w)

/-- R248: a write of bytes from `a` on; those of gated banks are not performed. -/
def Scratch.putAll (key : Nat) : Nat → List (Byte × Bool) → Scratch → Scratch
  | _, [], p => p
  | a, (b, x) :: t, p => Scratch.putAll key (a + 1) t (if p.isGated a then p else p.put key a b x)

/-- The bytes read, with their poison marks. -/
def State.spRead (s : State) (k a n : Nat) : List (Byte × Bool) :=
  ((s.core k).sp.view k a n).map (fun b => (b.byte, b.poison))

/-- R99: a hard-failed line takes a spare line and the copy begins, unless it has one already (log 187); with no spare that passed its march free it stays in service under
correction and the event is raised. -/
def State.allocLine (s : State) (k line : Nat) : State :=
  let p := (s.core k).sp
  let used := p.remap ++ p.copying ++ p.waiting
  if used.any (fun r => r.line = line) then s
  else match (List.range 16).find? (fun i => !p.badSpares.contains i && !used.any (fun r => r.spare = i)) with
    | some i => s.updSp k (fun q => { q with copying := q.copying ++ [{ line := line, spare := i }] })
    | none => (s.updSp k (fun q => { q with hard := insertNat line q.hard })).event Config.remapExhausted (packedCore k)

/-- R98: the lines that a read of `n` bytes from `a` on marks hard-failed: a correction at the bit of a byte rewritten and
not read since. -/
def Scratch.failing (p : Scratch) (key a n : Nat) : List Nat :=
  ((List.range n).filter (fun i => match (p.readByte key (a + i)).fixed with
    | some pos => p.rewrote.contains (a + i, pos)
    | none => false)).map (fun i => (a + i) / spLine)

/-- R95, R98: what a read leaves behind: the counts of corrected and uncorrectable bytes, the end of the watch on the bytes
read, and the lines it marks hard-failed. -/
def State.spTouched (s : State) (k a n : Nat) : State :=
  let p := (s.core k).sp
  let v := p.view k a n
  let fixed := (v.filter (fun b => b.fixed.isSome)).length
  let bad := (v.filter (fun b => b.poison)).length
  let f := k / coresPerField
  let s1 := if fixed = 0 then s else s.countField f fcSpCorrected fixed
  let s2 := if bad = 0 then s1 else s1.countField f fcSpPoison bad
  if p.rewrote.isEmpty then s2
  else (p.failing k a n).foldl (fun (t : State) l => t.allocLine k l)
    (s2.updSp k (fun q => { q with rewrote := q.rewrote.filter (fun r => !(decide (a ≤ r.1) && decide (r.1 < a + n))) }))

/-- What reads of several ranges (address, length) leave behind. -/
def State.touchRanges (s : State) (k : Nat) (l : List (Nat × Nat)) : State :=
  l.foldl (fun (t : State) r => t.spTouched k r.1 r.2) s

/-- R248: a write of bytes to a core's scratchpad; one that reaches a gated bank is acknowledged, counted and reported. -/
def State.spWrite (s : State) (k a : Nat) (bytes : List (Byte × Bool)) : State :=
  let p := (s.core k).sp
  let s1 := s.updSp k (Scratch.putAll k a bytes)
  if (List.range bytes.length).any (fun i => p.isGated (a + i)) then
    (s1.countField (k / coresPerField) fcGatedWrites 1).event evGatedWrite (packedCore k)
  else s1

/-- Clean bytes, for a write. -/
def cleanBytes (l : List Byte) : List (Byte × Bool) := l.map (fun b => (b, false))

/-- The little-endian value of bytes read, and whether any of them is poisoned. -/
def spValue (l : List (Byte × Bool)) : Nat := leNat (l.map Prod.fst)
def spPoison (l : List (Byte × Bool)) : Bool := l.any (fun b => b.2)

/-- R118: the hand-off buffer that fills in this window: the one `hoff_rd` does not name. -/
def Core.hoffFilling (c : Core) : Nat := if c.hoffRd.toNat = c.entry.hoff0 then c.entry.hoff1 else c.entry.hoff0

/-- Whether two address ranges (start, length) meet. -/
def rangesMeet (a n b m : Nat) : Bool := decide (a < b + m) && decide (b < a + n) && decide (0 < n) && decide (0 < m)

/-- Table 4-5, `WRITE_GUARD`: whether a write meets the hand-off buffer being filled or a window record copy. -/
def Core.guarded (c : Core) (a n : Nat) : Bool :=
  c.placeId.isSome && (rangesMeet a n c.hoffFilling c.entry.hoffLen || rangesMeet a n c.entry.wrecBase 0x2200)

end Sys2Proof.Machine
end

