-- ==== Sys2Proof/Machine/Operands.lean ====
section
/-! DEFINITION. The operand forms of the control core: its registers with their poison flags (R102, R104), its control
registers (R105), its command store (R103) and the overrides of a unit issue (R112). -/

namespace Sys2Proof.Machine

/-- R102: a register's value; `g0` reads 0. -/
def Core.reg (c : Core) (r : BitVec 5) : Word := if r = 0 then 0 else c.regs[r.toNat]
/-- R102, R104: a register's poison flag; `g0` has none. -/
def Core.bad (c : Core) (r : BitVec 5) : Bool := r ≠ 0 && c.poison.getLsbD r.toNat
/-- R102, R104: a write to a register with its flag; writes to `g0` are discarded. -/
def Core.setReg (c : Core) (r : BitVec 5) (v : Word) (bad : Bool) : Core :=
  if r = 0 then c
  else { c with regs := c.regs.set r.toNat v
                poison := if bad then c.poison ||| BitVec.twoPow 32 r.toNat
                  else c.poison &&& ~~~ (BitVec.twoPow 32 r.toNat) }

/-- R103, R123: the instruction word at a program address. -/
def Core.instrAt (c : Core) (pc : Nat) : Word := c.prog.find (pc / 4) c.progFill

/-- R103: a word of the command store. -/
def Core.csWord (c : Core) (i : Nat) : Word := c.cmds.find i 0

/-- R112: the 32 bytes of command store entry `cs`. -/
def Core.csEntry (c : Core) (cs : Nat) : List Byte :=
  (List.range 8).flatMap (fun i => leBytes 4 (c.csWord (cs * 8 + i)).toNat)

/-- A byte list with `n` little-endian bytes of `v` put at offset `o`. -/
def spliceLe (l : List Byte) (o n v : Nat) : List Byte := l.take o ++ leBytes n v ++ l.drop (o + n)

/-- R115: the unit byte of a unit issue. -/
def unitByte (k : BitVec 2) (unit : Nat) : Nat := if k = 0 then unit else if k = 1 then 0x20 else 0x30

/-- R112: the count override of a unit issue (0 `eng`, 1 `spr`, 2 `dma`, 3 `post`). -/
def overrideCount (k : BitVec 2) (l : List Byte) (v : Nat) : List Byte :=
  if k = 0 then spliceLe l 8 2 v else if k = 1 then spliceLe l 16 2 v else spliceLe l 4 4 v

/-- R112: the address override; for `dma` the scratchpad-side address: the source of `STORE`, the destination of the others
(log 22). -/
def overrideAddr (k : BitVec 2) (l : List Byte) (v : Nat) : List Byte :=
  if k = 0 then spliceLe l 12 4 v
  else if k = 1 then spliceLe l 4 4 v
  else if k = 2 then (if natAt l 0 1 = 0x23 then spliceLe l 8 8 v else spliceLe l 16 8 v)
  else spliceLe l 8 4 v

/-- R112: the command that a unit issue sends. -/
def Core.issued (c : Core) (k : BitVec 2) (ra rb : BitVec 5) (cs : BitVec 9) : List Byte :=
  let l := c.csEntry cs.toNat
  let l1 := if ra = 0 then l else overrideCount k l (c.reg ra).toNat
  if rb = 0 then l1 else overrideAddr k l1 (c.reg rb).toNat

/-- R105: bit 1 of `events`: the timer event is pending. -/
def timerPending (now cmp : Word) : Bool := decide (0 ≤ (now - cmp).toInt)

/-- R105: the `events` register. -/
def State.events (s : State) (c : Core) : BitVec 2 :=
  BitVec.ofBool (timerPending (s.clock.tb.extractLsb' 0 32) c.tbCmp) ++ BitVec.ofBool (!c.cpl.isEmpty)

/-- R105, Table 4-1: the value of a control register of core `k`; none for a number the table does not list. -/
def State.readCr (s : State) (k : Nat) (n : Nat) : Option Word :=
  let c := s.core k
  if n = 0x00 then some (BitVec.ofNat 32 (packedCore k))
  else if n = 0x01 then some (BitVec.ofNat 32 (packedCore (c.placeId.getD 0)))
  else if n = 0x02 then some (c.window.extractLsb' 0 32)
  else if n = 0x03 then some (c.window.extractLsb' 32 32)
  else if n = 0x04 then some c.wrec
  else if n = 0x05 then some c.hoffRd
  else if n = 0x06 then some (s.clock.tb.extractLsb' 0 32)
  else if n = 0x07 then some c.tbHi
  else if n = 0x08 then some c.tbCmp
  else if n = 0x09 then some ((s.events c).setWidth 32)
  else if n = 0x0A then some c.sig
  else if n = 0x0B then some (c.traceCtl.setWidth 32)
  else if n = 0x0C then some c.faultCause
  else if n = 0x0D then some c.faultPc
  else if 0x10 ≤ n ∧ n ≤ 0x13 then c.bp.toList[n - 0x10]?
  else if n = 0x14 then some c.wpLo
  else if n = 0x15 then some c.wpHi
  else if n = 0x16 then some (c.wpCtl.setWidth 32)
  else if 0x18 ≤ n ∧ n ≤ 0x1B then
    some (BitVec.ofNat 32 (leNat ((List.range 4).map (fun i => BitVec.ofNat 8 (c.emap.getD ((n - 0x18) * 4 + i) 0)))))
  else none

/-- R107: the address of a load or store. -/
def Core.address (c : Core) (ra : BitVec 5) (imm : BitVec 16) : Nat := (c.reg ra + imm.signExtend 32).toNat

end Sys2Proof.Machine
end

