-- ==== Sys2Proof/Machine/Flags.lean ====
section
/-! DEFINITION. The results of the control core's arithmetic and its branch conditions (Table 4-3). -/

namespace Sys2Proof.Machine

/-- Table 4-3: the A-format operations, by `func`. -/
def aluResult (f : BitVec 4) (a b : Word) : Word :=
  if f = 0 then a + b
  else if f = 1 then a - b
  else if f = 2 then a &&& b
  else if f = 3 then a ||| b
  else if f = 4 then a ^^^ b
  else if f = 5 then a <<< (b.extractLsb' 0 5).toNat
  else if f = 6 then a >>> (b.extractLsb' 0 5).toNat
  else if f = 7 then a.sshiftRight (b.extractLsb' 0 5).toNat
  else if f = 8 then (if a.toInt < b.toInt then 1 else 0)
  else if f = 9 then (if a.toNat < b.toNat then 1 else 0)
  else if f = 10 then a * b
  else if f = 11 then BitVec.ofInt 32 (a.toInt * b.toInt / 2 ^ 32)
  else if f = 12 then BitVec.ofNat 32 (a.toNat * b.toNat / 2 ^ 32)
  else if f = 13 then (if a.toInt ≤ b.toInt then a else b)
  else (if a.toInt ≤ b.toInt then b else a)

/-- Table 4-3, `shi`: the shift that imm[6:5] selects; none where it is 3. -/
def shiResult (imm : BitVec 16) (a : Word) : Option Word :=
  let n := (imm.extractLsb' 0 5).toNat
  let k := (imm.extractLsb' 5 2).toNat
  if k = 0 then some (a <<< n)
  else if k = 1 then some (a >>> n)
  else if k = 2 then some (a.sshiftRight n)
  else none

/-- Table 4-3: the branch conditions `beq bne blt bge bltu bgeu`. -/
def branchTaken (k : BitVec 3) (a b : Word) : Bool :=
  if k = 0 then decide (a = b)
  else if k = 1 then decide (a ≠ b)
  else if k = 2 then decide (a.toInt < b.toInt)
  else if k = 3 then decide (b.toInt ≤ a.toInt)
  else if k = 4 then decide (a.toNat < b.toNat)
  else decide (b.toNat ≤ a.toNat)

/-- Table 4-3: bytes of a load, `lb lbu lh lhu lw`, and of a store, `sb sh sw`. -/
def loadSize (k : BitVec 3) : Nat := if k = 0 ∨ k = 1 then 1 else if k = 2 ∨ k = 3 then 2 else 4
def storeSize (k : BitVec 2) : Nat := if k = 0 then 1 else if k = 1 then 2 else 4

/-- Table 4-3: a loaded value, sign- or zero-extended. -/
def loadExtend (k : BitVec 3) (v : Nat) : Word :=
  if k = 0 then (BitVec.ofNat 8 v).signExtend 32
  else if k = 2 then (BitVec.ofNat 16 v).signExtend 32
  else BitVec.ofNat 32 v

end Sys2Proof.Machine
end

