-- ==== Sys2Proof/Machine/CoreRun.lean ====
section
/-! DEFINITION. How a control core runs one instruction: breakpoints and watches (R126 to R129), trace records (R125, R411),
faults (R116), and what each instruction of Table 4-3 does. -/

namespace Sys2Proof.Machine

/-- Table 4-5: the fault causes. -/
def fcBadInstr : Nat := 1
def fcMisalign : Nat := 2
def fcRange : Nat := 3
def fcPoisonReg : Nat := 4
def fcBadUnit : Nat := 5
def fcCplOverflow : Nat := 6
def fcBadCr : Nat := 7
def fcWriteGuard : Nat := 8

/-! Trace (R125, R411). -/

/-- R411: whether a field's buffer can take a record. -/
def TraceBuf.canTake (b : TraceBuf) : Bool := !b.frozen && (!b.fill || decide (b.recs.length < 4096))

/-- R411: a record put into the buffer; in `wrap` mode the oldest goes. -/
def TraceBuf.take (b : TraceBuf) (r : TraceRec) : TraceBuf :=
  let past := decide (4096 ≤ b.recs.length)
  { b with
    recs := if past then b.recs.drop 1 ++ [r] else b.recs ++ [r]
    written := b.written + 1
    oldest := if past then b.oldest + 1 else b.oldest
    frozen := b.freezeFault && decide (r.kind = 0x06) }

/-- R411: moves records from a core's queue into the buffer while it can take them. -/
def drainTrace : List TraceRec → TraceBuf → List TraceRec × TraceBuf
  | [], b => ([], b)
  | r :: t, b => if b.canTake then drainTrace t (b.take r) else (r :: t, b)

/-- R125: whether `trace_ctl` selects records of a kind; mode 3 is not listed and records nothing (log 23). -/
def Core.traces (c : Core) (kind : Nat) : Bool :=
  let m := (c.traceCtl.extractLsb' 0 2).toNat
  decide (m = 2) || (decide (m = 1) && decide (kind ≠ 0x03))

/-- R125: writes a trace record of core `k`; when the core's queue is full it is dropped and counted, or with `stall` set it waits there
and the core with it. -/
def State.trace (s : State) (k kind pc : Nat) (data : Word) : State :=
  let c := s.core k
  if c.traces kind then
    let f := k / coresPerField
    if 4 ≤ c.traceQ.length ∧ !c.traceCtl.getLsbD 2 ∧ !(s.field f).trace.canTake then s.countField f fcTraceDrops 1
    else
      let r : TraceRec := { stamp := s.stamp, core := k % coresPerField, kind := kind, pc := pc / 4, data := data }
      let d := drainTrace (c.traceQ ++ [r]) (s.field f).trace
      ((s.updCore k (fun v => { v with traceQ := d.1 })).updField f (fun v => { v with trace := d.2 })).countField f
        fcTraceRecords 1
  else s

/-- R125: with `stall` set, whether an instruction of core `k` that writes `n` records waits for the buffer. -/
def State.traceStalls (s : State) (k n : Nat) : Bool :=
  let c := s.core k
  c.traceCtl.getLsbD 2 && decide (0 < n) && !(s.field (k / coresPerField)).trace.canTake
    && decide (4 < c.traceQ.length + n)

/-! Faults and halts. -/

/-- R116, R394: raises a fault in core `k`: it stops before the instruction takes effect, writes `fault_cause` and `fault_pc`,
and the module records a fault signature; a second fault within 86,400 s takes the core out of service. A halt ends with it (log 189). -/
def State.coreFault (s : State) (k cause : Nat) : State :=
  let c := s.core k
  let s1 := s.updCore k (fun v => { v with
    mode := .faulted, faultCause := BitVec.ofNat 32 cause, faultPc := c.pc.setWidth 32, faultedWin := true,
    faultAt := some s.stamp, waitMask := none, stepping := false, passBp := false })
  let s2 := s1.trace k 0x06 c.pc.toNat (BitVec.ofNat 32 cause)
  let again := match c.faultAt with
    | some t => decide (s.since t ≤ 86400 * 10 ^ 9)
    | none => false
  let s3 := if again then s2.takeOut (packedCore k) .core else s2
  s3.faultCore k (packedCore k) 0x06 0 .controlCore
    (leBytes 1 cause ++ leBytes 4 c.pc.toNat ++ leBytes 4 c.sig.toNat)

/-- R128: a halting match stops core `k` before the instruction takes effect; the drain begins. -/
def State.coreHalt (s : State) (k : Nat) : State :=
  (s.updCore k (fun v => { v with mode := .halting, stepping := false })).updField
    (k / coresPerField) (fun v => { v with trace := { v.trace with frozen := v.trace.frozen || v.trace.freezeHalt } })

/-- R127: whether the partition that owns core `k` grants debug. -/
def State.grantsDebug (s : State) (k : Nat) : Bool :=
  let p := s.ownerOf ((s.core k).placeId.getD k)
  decide (p < partitionCount) && (s.part p).entry.valid && (s.part p).entry.rights.getLsbD 3

/-- R126: the armed breakpoints at the program counter, by number. -/
def Core.matches (c : Core) : List (Nat × Word) :=
  ((List.range 4).zip c.bp.toList).filter (fun b => b.2.getLsbD 31 && decide (b.2.extractLsb' 2 14 = c.pc.extractLsb' 2 14))

/-- R126: whether an access of `n` bytes at `a` meets the armed watch. -/
def Core.watches (c : Core) (a n : Nat) (store : Bool) : Bool :=
  c.wpCtl.getLsbD 0 && (if store then c.wpCtl.getLsbD 3 else c.wpCtl.getLsbD 2)
    && decide (c.wpLo.toNat ≤ c.wpHi.toNat) && decide (a ≤ c.wpHi.toNat) && decide (c.wpLo.toNat < a + n)

/-- R126, R127: whether the watch halts core `k`: its halt bit acts only where debug is granted. -/
def State.watchHalts (s : State) (k : Nat) : Bool := (s.core k).wpCtl.getLsbD 1 && s.grantsDebug k

/-- What an instruction whose operands are checked does: it waits, raises a fault, halts, or retires with the state it
leaves, the next program counter and the records it writes (kind, data). -/
inductive CoreRes where
  | wait
  | waitEvent (mask : BitVec 2) (rd : BitVec 5)
  | fault (cause : Nat)
  | halt
  | retire (s : State) (pc : Nat) (recs : List (Nat × Word))

/-- R107: the instruction after this one. -/
def Core.nextPc (c : Core) : Nat := c.pc.toNat + 4

/-- A register result, the program going on. -/
def State.retireReg (s : State) (k : Nat) (rd : BitVec 5) (v : Word) (bad : Bool) : CoreRes :=
  .retire (s.updCore k (fun c => c.setReg rd v bad)) (s.core k).nextPc []

/-- R106: the target of a branch or jump of `off` words from the next instruction. -/
def Core.target (c : Core) (off : Int) : Int := (c.nextPc : Int) + 4 * off

/-- R107, R124: a taken branch or jump to `t`: beyond the program store it raises `RANGE`; else `sig` takes the target. -/
def State.jump (s : State) (k : Nat) (t : Int) : CoreRes :=
  if t < 0 ∨ 65536 ≤ t then .fault fcRange
  else .retire (s.updCore k (fun c => { c with sig := crcRun c.sig (leBytes 4 t.toNat) })) t.toNat
    [(0x01, BitVec.ofInt 32 t)]

/-- Table 4-3: the loads. -/
def State.coreLoad (s : State) (k : Nat) (sz : BitVec 3) (rd ra : BitVec 5) (imm : BitVec 16) : CoreRes :=
  let c := s.core k
  let a := c.address ra imm
  let n := loadSize sz
  if c.bad ra then .fault fcPoisonReg
  else if a % n ≠ 0 then .fault fcMisalign
  else if spBytes < a + n then .fault fcRange
  else if c.watches a n false ∧ s.watchHalts k ∧ !c.passBp then .halt
  else if c.stores.any (fun st => rangesMeet a n st.1 st.2) then .wait
  else
    let v := s.spRead k a n
    let s1 := (s.spTouched k a n).updCore k (fun c => c.setReg rd (loadExtend sz (spValue v)) (spPoison v))
    .retire s1 c.nextPc (if c.watches a n false ∧ !s.watchHalts k then [(0x05, BitVec.ofNat 32 a)] else [])

/-- Table 4-3: the stores. -/
def State.coreStore (s : State) (k : Nat) (sz : BitVec 2) (rs ra : BitVec 5) (imm : BitVec 16) : CoreRes :=
  let c := s.core k
  let a := c.address ra imm
  let n := storeSize sz
  if c.bad ra then .fault fcPoisonReg
  else if a % n ≠ 0 then .fault fcMisalign
  else if spBytes < a + n then .fault fcRange
  else if c.guarded a n then .fault fcWriteGuard
  else if c.watches a n true ∧ s.watchHalts k ∧ !c.passBp then .halt
  else
    let s1 := s.spWrite k a ((leBytes n (c.reg rs).toNat).map (fun b => (b, c.bad rs)))
    let s2 := s1.updCore k (fun v => { v with stores := v.stores ++ [(a, n)] })
    .retire s2 c.nextPc (if c.watches a n true ∧ !s.watchHalts k then [(0x05, BitVec.ofNat 32 a)] else [])

/-- R112: sends a command to an engine, the spire or the DMA/fill unit of core `k`. -/
def Core.enqueue (c : Core) (k : BitVec 2) (unit : Nat) (m : Cmd) : Core :=
  if k = 0 then c.updEngine (c.emap.getD unit 0) (fun e => { e with queue := e.queue ++ [m] })
  else if k = 1 then { c with spireQ := c.spireQ ++ [m] }
  else { c with dmaQ := c.dmaQ ++ [m] }

/-- R82, R90, R114: whether a unit's queue is full. -/
def Core.queueFull (c : Core) (k : BitVec 2) (unit : Nat) : Bool :=
  if k = 0 then decide (4 ≤ (c.engine (c.emap.getD unit 0)).queue.length)
  else if k = 1 then decide (4 ≤ c.spireQ.length)
  else decide (8 ≤ c.dmaQ.length)

/-- R250: the kinds of message agent 0x00 accepts. -/
def signalKinds : List Nat := [0x10, 0x11, 0x12]

/-- R113, R250: hands a posted message to its agent: the signal box, the sampler or the field's belfry. -/
def State.postTo (s : State) (k agent : Nat) (m : List Byte) : State :=
  if agent = 0 then
    if signalKinds.contains (natAt m 0 1) then { s with mod := { s.mod with signal := s.mod.signal ++ [(k, m)] } }
    else (s.countField (k / coresPerField) fcAgentDiscards 1).faultCore k (packedCore k) 0x0F 0 .core
      (leBytes 1 (natAt m 0 1))
  else if agent = 1 then { s with mod := { s.mod with sampler := s.mod.sampler ++ [(k, m)] } }
  else s.updField (k / coresPerField) (fun v => { v with blfInbox := v.blfInbox ++ [(k, m)] })

/-- R109 to R113, R115, R124: the unit issues (0 `eng`, 1 `spr`, 2 `dma`, 3 `post`). -/
def State.coreIssue (s : State) (k : Nat) (w : Word) (u : BitVec 2) (ra rb unit : BitVec 5) (cs : BitVec 9) : CoreRes :=
  let c := s.core k
  if c.bad ra ∨ c.bad rb then .fault fcPoisonReg
  else if (u = 0 ∧ 15 < unit.toNat) ∨ (u = 3 ∧ 2 < unit.toNat) then .fault fcBadUnit
  else if u ≠ 3 ∧ 128 ≤ c.unpopped then .fault fcCplOverflow
  else if !c.stores.isEmpty then .wait
  else
    let m := c.issued u ra rb cs
    let signed := fun (v : Core) => { v with sig := crcRun v.sig (leBytes 4 w.toNat) }
    if u = 3 then .retire ((s.updCore k signed).postTo k unit.toNat m) c.nextPc [(0x02, w)]
    else if c.queueFull u unit.toNat then .wait
    else
      let b := unitByte u unit.toNat
      let n := c.unitSeq.find b 0
      .retire (s.updCore k (fun v => signed
        { v.enqueue u unit.toNat { bytes := m, seq := some n, unit := b, word := w } with
          unpopped := v.unpopped + 1, unitSeq := v.unitSeq.put b ((n + 1) % 65536) })) c.nextPc [(0x02, w)]

/-- Table 4-3: what an instruction does. Where `cpop` names one register for both words, the source word stands (log 147). -/
def State.coreExec (s : State) (k : Nat) (w : Word) : CoreOp → CoreRes
  | .alu f rd ra rb =>
    let c := s.core k
    s.retireReg k rd (aluResult f (c.reg ra) (c.reg rb)) (c.bad ra || c.bad rb)
  | .addi rd ra imm => s.retireReg k rd ((s.core k).reg ra + imm.signExtend 32) ((s.core k).bad ra)
  | .andi rd ra imm => s.retireReg k rd ((s.core k).reg ra &&& imm.setWidth 32) ((s.core k).bad ra)
  | .ori rd ra imm => s.retireReg k rd ((s.core k).reg ra ||| imm.setWidth 32) ((s.core k).bad ra)
  | .xori rd ra imm => s.retireReg k rd ((s.core k).reg ra ^^^ imm.setWidth 32) ((s.core k).bad ra)
  | .shi rd ra imm =>
    match shiResult imm ((s.core k).reg ra) with
    | some v => s.retireReg k rd v ((s.core k).bad ra)
    | none => .fault fcBadInstr
  | .lui rd imm => s.retireReg k rd (imm.setWidth 32 <<< 16) false
  | .slti rd ra imm =>
    s.retireReg k rd (if ((s.core k).reg ra).toInt < imm.toInt then 1 else 0) ((s.core k).bad ra)
  | .load sz rd ra imm => s.coreLoad k sz rd ra imm
  | .store sz rs ra imm => s.coreStore k sz rs ra imm
  | .branch c ra rb off =>
    let v := s.core k
    if v.bad ra ∨ v.bad rb then .fault fcPoisonReg
    else if branchTaken c (v.reg ra) (v.reg rb) then s.jump k (v.target off.toInt)
    else .retire s v.nextPc []
  | .jal off =>
    let c := s.core k
    (s.updCore k (fun v => v.setReg 31 (BitVec.ofNat 32 c.nextPc) false)).jump k (c.target off.toInt)
  | .jalr rd ra imm =>
    let c := s.core k
    if c.bad ra then .fault fcPoisonReg
    else (s.updCore k (fun v => v.setReg rd (BitVec.ofNat 32 c.nextPc) false)).jump k
      (((c.reg ra + imm.signExtend 32) &&& ~~~ 3).toNat : Int)
  | .crd rd imm =>
    match s.readCr k imm.toNat with
    | none => .fault fcBadCr
    | some v =>
      let s1 := if imm = 0x06 then s.updCore k (fun c => { c with tbHi := s.clock.tb.extractLsb' 32 32 }) else s
      s1.retireReg k rd v false
  | .cwr ra imm =>
    let c := s.core k
    if imm ≠ 0x08 ∧ imm ≠ 0x0B then .fault fcBadCr
    else if c.bad ra then .fault fcPoisonReg
    else .retire (s.updCore k (fun v =>
      if imm = 0x08 then { v with tbCmp := c.reg ra } else { v with traceCtl := (c.reg ra).extractLsb' 0 3 })) c.nextPc []
  | .cst rd ra imm =>
    let c := s.core k
    let a := c.address ra imm
    if c.bad ra ∨ c.bad rd then .fault fcPoisonReg
    else if a % 4 ≠ 0 then .fault fcMisalign
    else if 16384 ≤ a then .fault fcRange
    else .retire (s.updCore k (fun v => { v with cmds := v.cmds.put (a / 4) (c.reg rd) })) c.nextPc []
  | .cld rd ra imm =>
    let c := s.core k
    let a := c.address ra imm
    if c.bad ra then .fault fcPoisonReg
    else if a % 4 ≠ 0 then .fault fcMisalign
    else if 16384 ≤ a then .fault fcRange
    else s.retireReg k rd (c.csWord (a / 4)) false
  | .issue u ra rb unit cs => s.coreIssue k w u ra rb unit cs
  | .cpop rd ra =>
    match (s.core k).cpl with
    | [] => .wait
    | (word, src) :: rest =>
      .retire (s.updCore k (fun v => (({ v with cpl := rest, unpopped := v.unpopped - 1 } : Core).setReg rd word false).setReg
        ra src false)) (s.core k).nextPc []
  | .wait rd imm =>
    let m := imm.extractLsb' 0 2
    let ev := s.events (s.core k)
    if m = 0 then .fault fcBadInstr
    else if m &&& ev = 0 then .waitEvent m rd
    else (s.updCore k (fun v => { v with waitMask := none })).retireReg k rd (ev.setWidth 32) false
  | .fence => if (s.core k).stores.isEmpty then .retire s (s.core k).nextPc [] else .wait
  | .wend =>
    let g := ~~~ (s.core k).sig
    .retire (s.updCore k (fun v => { v with mode := .ended, sig := g })) (s.core k).nextPc [(0x08, g)]
  | .brk =>
    if s.grantsDebug k ∧ !(s.core k).passBp then .halt
    else .retire s (s.core k).nextPc
      (if s.grantsDebug k then [] else [(0x04, Config.brkNumber)])

/-- R125, R129: the retirement of an instruction: its records, the next program counter, and the halt after a single step, which is no
halting match (R411). -/
def State.coreRetire (s : State) (k : Nat) (w : Word) (pc : Nat) (recs : List (Nat × Word)) (at' : Nat) : State :=
  let s1 := List.foldl (fun (t : State) (r : Nat × Word) => t.trace k r.1 at' r.2) s (recs ++ [(0x03, w)])
  let s2 := s1.updCore k (fun v => { v with pc := BitVec.ofNat 16 pc, passBp := false, stepping := false })
  if (s.core k).stepping ∧ (s.core k).mode = .running then
    s2.updCore k (fun v => { v with mode := .halting, stepping := false })
  else s2

/-- Whether core `k` can execute an instruction now; a core of a field that is not awake waits (R245), and one with `stall` set whose
records wait for the buffer (R125). -/
def State.coreReady (s : State) (c : CoreRef) : Bool :=
  c.ok && decide ((s.core c.key).traceQ.length ≤ 4) && decide ((s.core c.key).mode = .running) && !(s.core c.key).stopped && (s.field c.field).awake

/-- R126, R127: whether a breakpoint at the program counter halts core `k`: its halt bit acts only where debug is granted. -/
def State.haltsAt (s : State) (k : Nat) : Bool :=
  s.grantsDebug k && (s.core k).matches.any (fun b => b.2.getLsbD 30)

/-- R126, R127: the records of the matches at the program counter that do not halt. -/
def State.matchRecs (s : State) (k : Nat) : List (Nat × Word) :=
  ((s.core k).matches.filter (fun b => !(b.2.getLsbD 30 && s.grantsDebug k))).map (fun b => (0x04, BitVec.ofNat 32 b.1))

/-- How many of some records `trace_ctl` selects. -/
def Core.traced (c : Core) (recs : List (Nat × Word)) : Nat := (recs.filter (fun r => c.traces r.1)).length

/-- R116, R126: an instruction of core `k` raises a fault; what matched at its address is recorded before. -/
def State.faultAt (s : State) (k cause : Nat) : State :=
  let recs := s.matchRecs k
  if s.traceStalls k ((s.core k).traced (recs ++ [(0x06, 0)])) then s
  else (recs.foldl (fun (t : State) r => t.trace k r.1 (s.core k).pc.toNat r.2) s).coreFault k cause

/-- R125: an instruction of core `k` retires with its records, unless it waits for the trace buffer. -/
def State.retireAt (s s1 : State) (k : Nat) (w : Word) (pc : Nat) (recs : List (Nat × Word)) : State :=
  let all := s.matchRecs k ++ recs
  if s.traceStalls k ((s.core k).traced (all ++ [(0x03, w)])) then s else s1.coreRetire k w pc all (s.core k).pc.toNat

/-- One instruction of core `c`: the row of Table 4-3 is the one that the word at the program counter encodes. An undefined
word raises `BAD_INSTR` whichever row is commanded; a row that is not the core's next instruction does not happen (log 1). -/
def State.runCore (s : State) (c : CoreRef) (o : CoreOp) : State :=
  let k := c.key
  let v := s.core k
  if !s.coreReady c then s
  else if s.haltsAt k ∧ !v.passBp then s.coreHalt k
  else
    let w := v.instrAt v.pc.toNat
    match decodeCore w with
    | none => s.faultAt k fcBadInstr
    | some d =>
      if d ≠ o then s
      else match s.coreExec k w d with
        | .wait => s
        | .waitEvent m rd => s.updCore k (fun v => { v with waitMask := some (m, rd) })
        | .halt => s.coreHalt k
        | .fault cause => s.faultAt k cause
        | .retire s1 pc recs => s.retireAt s1 k w pc recs

/-- R107: a core that waits for an event goes on when one in its mask is pending. -/
def State.wakeCore (s : State) (k : Nat) : State :=
  let c := s.core k
  match c.waitMask with
  | none => s
  | some (m, rd) =>
    if c.mode = .running ∧ !c.stopped ∧ m &&& s.events c ≠ 0 then
      s.retireAt (s.updCore k (fun v => ({ v with waitMask := none } : Core).setReg rd ((s.events c).setWidth 32) false)) k
        (c.instrAt c.pc.toNat) c.nextPc []
    else s

end Sys2Proof.Machine
end

