-- ==== Sys2Proof/Machine/Flt.lean ====
section
/-! DEFINITION. The spire's number formats (R86) and its arithmetic (R87, R88): exact dyadic values, rounded once. -/

namespace Sys2Proof

/-- R86, Table 3-6: a binary format: exponent bits, fraction bits, bias, and whether it has infinities (E4M3 has none and one
NaN pattern). -/
structure FltFmt where
  ebits  : Nat
  mbits  : Nat
  bias   : Nat
  hasInf : Bool
deriving DecidableEq, Repr

def fmtE4M3 : FltFmt := { ebits := 4, mbits := 3, bias := 7, hasInf := false }
def fmtE5M2 : FltFmt := { ebits := 5, mbits := 2, bias := 15, hasInf := true }
def fmtBF16 : FltFmt := { ebits := 8, mbits := 7, bias := 127, hasInf := true }
def fmtFP32 : FltFmt := { ebits := 8, mbits := 23, bias := 127, hasInf := true }
def fmtFP64 : FltFmt := { ebits := 11, mbits := 52, bias := 1023, hasInf := true }

/-- A value: NaN, an infinity, or the signed dyadic number `m * 2^e`. -/
inductive FVal where
  | nan
  | inf (neg : Bool)
  | fin (neg : Bool) (m : Nat) (e : Int)
deriving DecidableEq, Repr

/-- Bits of a format. -/
def FltFmt.bits (f : FltFmt) : Nat := 1 + f.ebits + f.mbits

/-- The value of a bit pattern; subnormals are honoured. -/
def FltFmt.value (f : FltFmt) (w : Nat) : FVal :=
  let neg := bitAt w (f.ebits + f.mbits)
  let ex := bitsAt w f.mbits f.ebits
  let fr := bitsAt w 0 f.mbits
  if ex = 2 ^ f.ebits - 1 ∧ f.hasInf then (if fr = 0 then .inf neg else .nan)
  else if ex = 2 ^ f.ebits - 1 ∧ fr = 2 ^ f.mbits - 1 then .nan
  else if ex = 0 then .fin neg fr (1 - (f.bias : Int) - f.mbits)
  else .fin neg (2 ^ f.mbits + fr) ((ex : Int) - f.bias - f.mbits)

/-- A pattern of a sign, an exponent field and a fraction field. -/
def FltFmt.pack (f : FltFmt) (neg : Bool) (ex fr : Nat) : Nat :=
  neg.toNat * 2 ^ (f.ebits + f.mbits) + ex * 2 ^ f.mbits + fr

/-- R88: the NaN an operation returns; its sign and the bits below the quiet bit are open (log 9). -/
def FltFmt.nan (f : FltFmt) : Nat :=
  let p := Config.nanPayload.toNat
  let neg := bitAt p 31
  if f.hasInf then f.pack neg (2 ^ f.ebits - 1) (2 ^ (f.mbits - 1) + p % 2 ^ (f.mbits - 1))
  else f.pack neg (2 ^ f.ebits - 1) (2 ^ f.mbits - 1)

/-- The greatest finite magnitude's exponent and fraction fields. -/
def FltFmt.maxFields (f : FltFmt) : Nat × Nat :=
  if f.hasInf then (2 ^ f.ebits - 2, 2 ^ f.mbits - 1) else (2 ^ f.ebits - 1, 2 ^ f.mbits - 2)

/-- A natural number shifted right and rounded to nearest, ties to even. -/
def shiftRne (m s : Nat) : Nat :=
  let hi := m / 2 ^ s
  let lo := m % 2 ^ s
  if s = 0 then m
  else if lo * 2 > 2 ^ s ∨ (lo * 2 = 2 ^ s ∧ hi % 2 = 1) then hi + 1 else hi

/-- R87: `m * 2^e` rounded to nearest even. The second part says that it exceeds the largest finite value; the pattern is
then the largest finite value when `sat` is set, else an infinity. -/
def FltFmt.roundFin (f : FltFmt) (sat neg : Bool) (m : Nat) (e : Int) : Nat × Bool :=
  if m = 0 then (f.pack neg 0 0, false)
  else
    let top : Int := e + Nat.log2 m
    let q : Int := max (top - f.mbits) (1 - (f.bias : Int) - f.mbits)
    let r := if q ≤ e then m * 2 ^ (e - q).toNat else shiftRne m (q - e).toNat
    let r2 := if r = 2 ^ (f.mbits + 1) then 2 ^ f.mbits else r
    let q2 := if r = 2 ^ (f.mbits + 1) then q + 1 else q
    let ex : Nat := if r2 < 2 ^ f.mbits then 0 else (q2 + f.mbits + f.bias).toNat
    let fr := r2 % 2 ^ f.mbits
    let big := f.maxFields
    if big.1 < ex ∨ (big.1 = ex ∧ big.2 < fr) then
      (if sat ∨ !f.hasInf then f.pack neg big.1 big.2 else f.pack neg (2 ^ f.ebits - 1) 0, true)
    else (f.pack neg ex fr, false)

/-- R87: a value as a pattern, and whether it was saturated; an infinity given to a format without one becomes the
largest finite value (log 9). -/
def FltFmt.ofVal (f : FltFmt) (sat : Bool) : FVal → Nat × Bool
  | .nan => (f.nan, false)
  | .inf neg => if f.hasInf then (f.pack neg (2 ^ f.ebits - 1) 0, false)
      else (f.pack neg f.maxFields.1 f.maxFields.2, true)
  | .fin neg m e => f.roundFin sat neg m e

/-- A signed dyadic number from an integer mantissa; an exact zero is +0 (log 9). -/
def FVal.ofInt (v : Int) (e : Int) : FVal := .fin (decide (v < 0)) v.natAbs e

/-- The signed mantissa. -/
def signedMant (neg : Bool) (m : Nat) : Int := if neg then -(m : Int) else m

/-- The exact product. -/
def FVal.mul : FVal → FVal → FVal
  | .nan, _ => .nan
  | _, .nan => .nan
  | .inf a, .inf b => .inf (a != b)
  | .inf a, .fin b m _ => if m = 0 then .nan else .inf (a != b)
  | .fin a m _, .inf b => if m = 0 then .nan else .inf (a != b)
  | .fin a m e, .fin b n g => .fin (a != b) (m * n) (e + g)

/-- The exact sum. -/
def FVal.add : FVal → FVal → FVal
  | .nan, _ => .nan
  | _, .nan => .nan
  | .inf a, .inf b => if a = b then .inf a else .nan
  | .inf a, .fin _ _ _ => .inf a
  | .fin _ _ _, .inf b => .inf b
  | .fin a m e, .fin b n g =>
    let lo := min e g
    FVal.ofInt (signedMant a m * 2 ^ (e - lo).toNat + signedMant b n * 2 ^ (g - lo).toNat) lo

/-- Negation. -/
def FVal.neg : FVal → FVal
  | .nan => .nan
  | .inf a => .inf (!a)
  | .fin a m e => .fin (!a) m e

/-- Whether `a ≤ b`; false with a NaN. -/
def FVal.le : FVal → FVal → Bool
  | .nan, _ => false
  | _, .nan => false
  | .inf a, .inf b => a || !b
  | .inf a, .fin _ _ _ => a
  | .fin _ _ _, .inf b => !b
  | .fin a m e, .fin b n g =>
    let lo := min e g
    decide (signedMant a m * 2 ^ (e - lo).toNat ≤ signedMant b n * 2 ^ (g - lo).toNat)

/-- The value of an FP32 pattern, and an exact value rounded to FP32 (overflow gives an infinity). -/
def f32 (w : Nat) : FVal := fmtFP32.value w
def toF32 (v : FVal) : Nat := (fmtFP32.ofVal false v).1

/-- FP32 sum and product, one rounding each. -/
def f32Add (a b : Nat) : Nat := toF32 ((f32 a).add (f32 b))
def f32Mul (a b : Nat) : Nat := toF32 ((f32 a).mul (f32 b))

/-- R87: a value rounded to nearest even to an integer. -/
def FVal.toIntRne : FVal → Int
  | .nan => 0
  | .inf neg => if neg then -(2 ^ 200) else 2 ^ 200
  | .fin neg m e =>
    let v := if 0 ≤ e then m * 2 ^ e.toNat else shiftRne m (-e).toNat
    signedMant neg v

/-- The quotient of two values, as a value that rounds as the exact one does: 80 bits of it and a sticky bit. -/
def FVal.div : FVal → FVal → FVal
  | .nan, _ => .nan
  | _, .nan => .nan
  | .inf _, .inf _ => .nan
  | .inf a, .fin b _ _ => .inf (a != b)
  | .fin a _ _, .inf b => .fin (a != b) 0 0
  | .fin a m e, .fin b n g =>
    if n = 0 then (if m = 0 then .nan else .inf (a != b))
    else
      let q := m * 2 ^ 80 / n
      .fin (a != b) (2 * q + (if m * 2 ^ 80 % n = 0 then 0 else 1)) (e - g - 81)

def f32Div (a b : Nat) : Nat := toF32 (FVal.div (f32 a) (f32 b))
def f32Sub (a b : Nat) : Nat := toF32 ((f32 a).add (f32 b).neg)

/-! The vector unit's functions (R87): each the exact value rounded to nearest and moved by at most 2 ULP. -/

/-- The integer square root of a number below 4^`fuel`. -/
def isqrt : Nat → Nat → Nat
  | 0, _ => 0
  | fuel + 1, n =>
    let r := 2 * isqrt fuel (n / 4)
    if (r + 1) * (r + 1) ≤ n then r + 1 else r

/-- 2^(2^-i) in units of 2^-64. -/
def exp2Root : Nat → Nat
  | 0 => 2 ^ 65
  | i + 1 => isqrt 66 (exp2Root i * 2 ^ 64)

/-- 2^(f / 2^40) in units of 2^-64, from the bits of `f` below bit 40. -/
def exp2Frac (f : Nat) : Nat :=
  (List.range 40).foldl (fun p i => if bitAt f (39 - i) then p * exp2Root (i + 1) / 2 ^ 64 else p) (2 ^ 64)

/-- A value in units of 2^-40, rounded down. -/
def fixed40 (neg : Bool) (m : Nat) (e : Int) : Int :=
  signedMant neg m * 2 ^ (e + 40).toNat / 2 ^ (-(e + 40)).toNat

/-- 2^x to more than 36 bits: past 2^8 and below -2^8 it rounds to an infinity and to zero. -/
def FVal.exp2 : FVal → FVal
  | .nan => .nan
  | .inf neg => if neg then .fin false 0 0 else .inf false
  | .fin neg m e =>
    if m = 0 then .fin false 1 0
    else if 8 ≤ e + Nat.log2 m then (if neg then .fin false 0 0 else .inf false)
    else
      let x := fixed40 neg m e
      .fin false (exp2Frac (x % 2 ^ 40).toNat) (x / 2 ^ 40 - 64)

/-- 1 / sqrt x; NaN below zero. -/
def FVal.rsqrt : FVal → FVal
  | .nan => .nan
  | .inf neg => if neg then .nan else .fin false 0 0
  | .fin neg m e =>
    if m = 0 then .inf neg
    else if neg then .nan
    else
      let odd := e % 2
      (FVal.fin false (2 ^ 160) (-160)).div (.fin false (isqrt 100 (m * 2 ^ (120 + odd.toNat))) ((e - odd) / 2 - 60))

/-- An FP32 pattern of a finite value moved by a number of ULP, its sign kept and no infinity reached; zero and special values
stay. -/
def ulpMoved (w : Nat) (d : Int) : Nat :=
  let mag : Nat := w % 2 ^ 31
  if mag = 0 ∨ 0x7F7FFFFF < mag then w
  else w / 2 ^ 31 * 2 ^ 31 + (max 0 (min 0x7F7FFFFF (Int.ofNat mag + d))).toNat

/-- R87: one of the three functions: the exact value of operand `w` rounded to nearest, moved by at most 2 ULP. -/
def vecFn (n w : Nat) (v : FVal) : Nat := ulpMoved (toF32 v) (max (-2) (min 2 (Config.ulpOff n w)))
def f32Exp2 (w : Nat) : Nat := vecFn 0 w (f32 w).exp2
def f32Recip (w : Nat) : Nat := vecFn 1 w ((FVal.fin false 1 0).div (f32 w))
def f32Rsqrt (w : Nat) : Nat := vecFn 2 w (f32 w).rsqrt

/-- R209, R210: 1.442695 in FP32. -/
def f32Log2e : Nat := 0x3FB8AA3B

/-- exp of an FP32 pattern: exp2 of its product with log2 e. -/
def f32Exp (w : Nat) : Nat := f32Exp2 (f32Mul w f32Log2e)

/-- The logistic function 1 / (1 + exp (-x)). -/
def f32Sigmoid (w : Nat) : Nat := f32Recip (f32Add 0x3F800000 (f32Exp (toF32 (f32 w).neg)))

/-- R91: SiLU, x times the logistic function of x. -/
def f32Silu (w : Nat) : Nat := f32Mul w (f32Sigmoid w)

/-- R91: GELU in its tanh form, x (1 + tanh u) / 2 with u = sqrt (2 / pi) (x + 0.044715 x^3), which is x times the logistic
function of 2 u; 0x3FCC422A is 2 sqrt (2 / pi). -/
def f32Gelu (w : Nat) : Nat :=
  let cube := f32Mul (f32Mul w w) w
  f32Mul w (f32Sigmoid (f32Mul 0x3FCC422A (f32Add w (f32Mul 0x3D372713 cube))))

/-- Whether a value is a NaN or an infinity. -/
def FVal.special : FVal → Bool
  | .fin _ _ _ => false
  | _ => true

end Sys2Proof
end

