-- ==== Sys2Proof/Machine/Digest.lean ====
section
/-! DEFINITION. The tensor digests of probes (R408 to R410) and the digests of paired cores (R390). -/

namespace Sys2Proof.Machine

/-- Table 7-1: the tag of a request entry. -/
def tagOf (i : Nat) (gen : BitVec 7) : Word := BitVec.ofNat 32 (i + gen.toNat * 2 ^ 17)

/-- The slot of batch index `i` that a core's section runs in this window. -/
def State.slotAt (s : State) (k i : Nat) : Option Slot :=
  let c := s.core k
  s.plan.slots.find? (fun x => x.sect = c.entry.sect ∧ x.edition = c.edition ∧ x.index = i ∧ x.wait = 0)

/-- The tag of that slot's request, 0xFFFF_FFFF where the record has none. -/
def State.slotTag (s : State) (k i : Nat) : Word :=
  match s.slotAt k i with
  | some x => tagOf x.req x.gen
  | none => 0xFFFFFFFF

/-- The partition that owns a physical core. -/
def State.corePart (s : State) (k : Nat) : Nat := s.ownerOf ((s.core k).placeId.getD k)

/-- R409: integer statistics of the elements: zeros, least, greatest, sum and sum of squares. -/
structure DigestStats where
  zeros : Nat
  min   : Nat
  max   : Nat
  sum   : Nat
  sumsq : Nat
deriving DecidableEq, Repr

/-- R409: over integer elements, modulo 2^64. -/
def intStats (ys : List Int) : DigestStats :=
  { zeros := (ys.filter (fun y => y = 0)).length
    min := bitsOf 32 (ys.foldl min (ys.headD 0)), max := bitsOf 32 (ys.foldl max (ys.headD 0))
    sum := bitsOf 64 (ys.foldl (· + ·) 0), sumsq := bitsOf 64 ((ys.map (fun y => y * y)).foldl (· + ·) 0) }

/-- R409: over floating-point elements, in element order; each addition to a binary64 sum is rounded once (log 9). -/
def fltStats (ys : List FVal) : DigestStats :=
  let add64 := fun (a : Nat) (v : FVal) => (fmtFP64.ofVal false ((fmtFP64.value a).add v)).1
  { zeros := (ys.filter (fun y => match y with | .fin _ m _ => m = 0 | _ => false)).length
    min := toF32 (ys.foldl (fun a y => if a.le y then a else y) (ys.headD (.fin false 0 0)))
    max := toF32 (ys.foldl (fun a y => if a.le y then y else a) (ys.headD (.fin false 0 0)))
    sum := ys.foldl add64 0, sumsq := (ys.map (fun y => y.mul y)).foldl add64 0 }

/-- Table 15-5: a digest record. -/
def digestRecord (window : Nat) (tag : Word) (layer probe kind unit count crc sats clips seq : Nat) (st : DigestStats) :
    List Byte :=
  leBytes 8 window ++ leBytes 4 tag.toNat ++ leBytes 2 layer ++ leBytes 1 probe ++ leBytes 1 kind ++ leBytes 4 unit
    ++ leBytes 4 count ++ leBytes 4 st.zeros ++ leBytes 4 crc ++ leBytes 2 sats ++ leBytes 2 clips ++ leBytes 4 st.min
    ++ leBytes 4 st.max ++ leBytes 8 st.sum ++ leBytes 8 st.sumsq ++ leBytes 4 seq

/-- R409, R410: sends one record of a probe towards the collector, under the partition's record sequence. -/
def State.sendDigest (s : State) (p n : Nat) (pr : Probe) (tag : Word) (layer unit count : Nat) (bytes : List Byte)
    (sats clips : Nat) (st : DigestStats) : State :=
  let seq := (s.part p).digestSeq
  let crc := if pr.flags.getLsbD 0 then (crc32c bytes).toNat else 0
  let st1 := if pr.flags.getLsbD 1 then st else { zeros := 0, min := 0, max := 0, sum := 0, sumsq := 0 }
  let r := digestRecord s.plan.window tag layer n pr.kind unit count crc sats clips seq.toNat st1
  let s1 := s.updPart p (fun v => { v with digestSeq := seq + 1 })
  { s1 with collector := { s1.collector with waiting := s1.collector.waiting ++ [(p, n, r)] } }

/-- R409, kind 0: the records of one vector of a `FIRE` with `final` set. -/
def State.probeFire (s : State) (k e layer slot : Nat) (bytes : List Byte) (ys : List Int) (sats clips : Nat) : State :=
  let p := s.corePart k
  let tag := s.slotTag k slot
  (s.part p).probes.entries.foldl (fun s pr =>
    if pr.2.kind = 0 ∧ pr.2.layer = layer ∧ (pr.2.flags.getLsbD 2 ∨ pr.2.tag = tag) then
      s.sendDigest p pr.1 pr.2 tag layer (packedEngine k e) ys.length bytes sats clips (intStats ys)
    else s) s

/-- R409, kind 1: the record of one spire command whose output address is the probe's. -/
def State.probeSpire (s : State) (k cAddr count : Nat) (bytes : List Byte) (sats : Nat) (st : DigestStats) : State :=
  let p := s.corePart k
  match (s.core k).placeId with
  | none => s
  | some place =>
    (s.part p).probes.entries.foldl (fun s pr =>
      if pr.2.kind = 1 ∧ unpackKey pr.2.core = some place ∧ pr.2.cAddr = cAddr then
        s.sendDigest p pr.1 pr.2 0xFFFFFFFF 0xFFFF (packedCore k) count bytes sats 0 st
      else s) s

/-- R388: the pair of a placement core in an edition. -/
def Edition.pairOf (e : Edition) (place : Nat) : Option (Nat × Nat) :=
  e.pairs.find? (fun p => p.1 = place ∨ p.2 = place)

/-- R388: whether a physical core serves copy B of a pair. -/
def State.isCopyB (s : State) (k : Nat) : Bool :=
  match (s.core k).placeId with
  | none => false
  | some place => match (s.edition (s.core k).edition).pairOf place with
    | some p => decide (p.2 = place)
    | none => false

/-- R390: the 16 wrapping group sums of the delivered INT8 outputs, and the elements of each group. -/
def pairGroups (ys : List Int) : List Int × List Nat :=
  let g := (List.range 16).map (fun i => ((List.range ys.length).zip ys).filter (fun p => p.1 % 16 = i))
  (g.map (fun l => wrapSum (l.map Prod.snd)), g.map List.length)
where
  wrapSum (l : List Int) : Int := signedOf 32 (bitsOf 32 (l.foldl (· + ·) 0))

/-- R390: a paired core's digest of one vector, sent to the comparator. -/
def State.pairFire (s : State) (k logical layer slot : Nat) (ys : List Int) : State :=
  match (s.core k).placeId with
  | none => s
  | some place =>
    if ((s.edition (s.core k).edition).pairOf place).isSome then
      let g := pairGroups ys
      { s with plan := { s.plan with digests := s.plan.digests ++
        [{ window := s.plan.window, slot := slot, layer := layer, engine := logical, core := place, groups := g.1,
           counts := g.2 }] } }
    else s

end Sys2Proof.Machine
end

