-- ==== Sys2Proof/Machine/Firing.lean ====
section
/-! DEFINITION. One array evaluation and the engine's arithmetic, bit for bit: input edge (R72), column value (R51), converter
(R54, R55), reference check (R62), promotion (R76), bias and steering (R79) and requantisation (R80). -/

namespace Sys2Proof.Machine

/-- Table 2-4: the fields of an array mode word. -/
structure ModeWord where
  clipLimit  : Nat
  refTol     : Nat
  refCheck   : Bool
  shiftLo    : Nat
  shift      : Nat
  clipAction : Bool
  wide       : Bool
  inMag      : Nat
  width      : Nat
deriving DecidableEq, Repr

/-- R59: reads a mode word; `inMag` is the magnitude width a. -/
def ModeWord.ofNat (w : Nat) : ModeWord :=
  { clipLimit := bitsAt w 24 6, refTol := bitsAt w 17 7, refCheck := bitAt w 16, shiftLo := bitsAt w 12 4,
    shift := bitsAt w 8 4, clipAction := bitAt w 7, wide := bitAt w 6, inMag := bitsAt w 4 2 + 1, width := bitsAt w 0 4 }

/-- R59: the mode words with which the engine does not fire. -/
def ModeWord.bad (m : ModeWord) : Bool :=
  decide (m.width = 0 ∨ 8 < m.width) || (decide (9 < m.shift) && !m.wide)
    || (decide (9 < m.shiftLo) && !m.wide && decide (5 ≤ m.width))

/-- R46: whether weights of the width take two cells. -/
def ModeWord.sliced (m : ModeWord) : Bool := decide (5 ≤ m.width)

/-- Table 2-1: log2 of the high cell's level spacing d, widths 5 to 8. -/
def ModeWord.logD (m : ModeWord) : Nat := 8 - m.width

/-- R55: the converter shift of single and high columns, and of low columns. -/
def ModeWord.k (m : ModeWord) : Nat := if m.wide then 10 else m.shift
def ModeWord.kLo (m : ModeWord) : Nat := if m.wide then 10 else m.shiftLo

/-! The input edge (R72). -/

/-- R72, modes 0 and 1: one slice converted from row to row: the values, and the saturated elements. -/
def inputEdgeFrom (s a : Nat) (feedback : Bool) : Int → List Int → List Int × Nat
  | _, [] => ([], 0)
  | e, u :: t =>
    let x := if feedback then u + e else u
    let v := if s = 0 then x else (x + 2 ^ (s - 1)) / 2 ^ s
    let lim : Int := 2 ^ a - 1
    if lim < v ∨ v < -lim then
      let r := inputEdgeFrom s a feedback 0 t
      ((if 0 < v then lim else -lim) :: r.1, r.2 + 1)
    else
      let r := inputEdgeFrom s a feedback (x - v * 2 ^ s) t
      (v :: r.1, r.2)

/-- R72: the input passes of a slice (one, or two in mode 2), and its saturated elements. -/
def inputEdge (mode s a : Nat) (us : List Int) : List (List Int) × Nat :=
  if mode = 2 then
    let q1 := us.map (fun u => (u + 8) / 16)
    ([q1, (us.zip q1).map (fun p => p.1 - 16 * p.2)], 0)
  else
    let r := inputEdgeFrom s a (mode = 1) 0 us
    ([r.1], r.2)

/-- R38, R50: the 64-row segments of a slice with an input of magnitude above 0. -/
def firedSegments (q : List Int) : List Bool :=
  (List.range 16).map (fun i => ((q.drop (64 * i)).take 64).any (fun x => x ≠ 0))

/-- R38: segment evaluations of a firing. -/
def firedCount (q : List Int) : Nat := ((firedSegments q).filter id).length

/-! The columns (R51, R54, R61, R65). -/

/-- R41: the programmed level of a cell, 8 where it was never programmed (log 5). -/
def Array.level (a : Array) (row col : Nat) : Nat := (a.levels.read (row * arrayColumns + col) ^^^ 8).toNat % 16

/-- R65, Table 2-9: the column that a valid column map entry replaces, 0 to 1031 (log 139). -/
def mapColumn (e : BitVec 16) : Option Nat :=
  let c := (e.extractLsb' 0 11).toNat
  if e.getLsbD 15 && decide (c < 1032) then some c else none

/-- R65: the spare of a map that replaces a column: the first entry that names it (log 139). -/
def spareOf (map : List (BitVec 16)) (col : Nat) : Option Nat := map.findIdx? (fun e => mapColumn e = some col)

/-- R65: the physical column whose code is delivered at a column's position. -/
def deliveredColumn (map : List (BitVec 16)) (col : Nat) : Nat :=
  match spareOf map col with
  | some i => 1032 + i
  | none => col

/-- R51: the column value of inputs against levels; a skipped segment holds only zeros and adds 0. -/
def columnValue (q : List Int) (level : Nat → Nat) : Int :=
  ((List.range q.length).zip q).foldl (fun v p => v + p.2 * ((level p.1 : Int) - 8)) 0

/-- Table 2-5: the level of a reference column in a row. -/
def refLevel (col row : Nat) : Nat :=
  if col = 1024 then 8
  else if col = 1025 then 15
  else if col = 1026 then 0
  else if col = 1027 then 12
  else if col = 1028 then 4
  else if col = 1029 then row / 64
  else if col = 1030 then 15 - row / 64
  else if row % 2 = 0 then 10 else 6

/-- Units of an analog value to one pu: the finest that a gain trim and a zero trim together give (R63). -/
def puUnits : Int := 2 ^ 25

/-- R54: a value in units of 1/2^25 pu divided by 2^k pu, rounded half away from zero. -/
def roundCode (k : Nat) (v : Int) : Int :=
  let u : Int := puUnits * 2 ^ k
  if 0 ≤ v then (v + u / 2) / u else -((-v + u / 2) / u)

/-- R54, R55: the code of a trimmed analog value in 1/2^25 pu, and its clip flag: past 127.5 and -128.5 steps it is limited. -/
def convert (wide : Bool) (k : Nat) (v : Int) : Int × Bool :=
  let half : Int := puUnits / 2 * 2 ^ k
  if 255 * half < v then (127, !wide)
  else if v < -257 * half then (-128, !wide)
  else (max (-128) (min 127 (roundCode k v)), false)

/-- R63, R64: the gain and zero trims of a record. -/
def trimGain (w : Word) : Int := signedOf 16 (w.toNat % 65536)
def trimZero (w : Word) : Int := signedOf 16 (w.toNat / 65536)

/-- R63: the charge that a column's converter measures, in 1/2^25 pu: the chains' charge `raw` (1/256 pu) less an offset pulse of
(8 + zeta 2^-10) X, times 1 + gamma 2^-15. -/
def trimmedCharge (t : Word) (raw x : Int) : Int := (4 * raw - (8192 + trimZero t) * x) * (32768 + trimGain t)

/-- R56: the largest column value of inputs of magnitude `a` or more where one is wider, in pu: 1,024 rows at 8 levels. -/
def columnLimit (a : Nat) (q : List Int) : Int :=
  8192 * (q.foldl (fun n x => Nat.max n x.natAbs) (2 ^ a - 1) : Nat)

/-- R51, R52, R54, R56, R63: the code a column delivers at a firing, from its inputs, levels, trims and mode word; the chains'
analog charge is a free value, and the measured charge stays within the values of Table 2-3 (log 8). -/
def columnCode (ctr : Nat) (a : Array) (m : ModeWord) (k : Nat) (q : List Int) (col : Nat) : Int × Bool :=
  let p := deliveredColumn a.colMap col
  let x := q.foldl (· + ·) 0
  let chain := columnValue q (fun r => a.level r p) + 8 * x
  let lim := columnLimit m.inMag q * puUnits
  convert m.wide k (max (-lim) (min lim (trimmedCharge a.trim (Config.analogColumn ctr p chain) x)))

/-- R62: the reference columns of a firing whose code deviates; one whose expected code the range itself limits is left out. -/
def refDeviations (ctr : Nat) (a : Array) (m : ModeWord) (q : List Int) : Nat :=
  ((List.range 8).filter (fun i =>
    let e := roundCode m.k (puUnits * columnValue q (fun r => refLevel (1024 + i) r))
    let c := (columnCode ctr a m m.k q (1024 + i)).1
    decide (-128 ≤ e ∧ e ≤ 127) && decide ((m.refTol : Int) < (c - e).natAbs))).length

/-- What one firing of one array leaves: contributions to the outputs, clips of weight columns in use, deviations. -/
structure Firing where
  sums  : List Int
  clips : Nat
  devs  : Nat
  segs  : Nat
deriving DecidableEq, Repr

/-- R76: one firing of one array for `n` outputs, its codes promoted; an all-zero input fires nothing (R58). -/
def fireArray (ctr : Nat) (a : Array) (m : ModeWord) (n : Nat) (q : List Int) : Firing :=
  if firedCount q = 0 then { sums := List.replicate n 0, clips := 0, devs := 0, segs := 0 }
  else
    let x := q.foldl (· + ·) 0
    let outs := (List.range n).map (fun j =>
      if m.sliced then
        let hi := columnCode ctr a m m.k q (2 * j)
        let lo := columnCode ctr a m m.kLo q (2 * j + 1)
        (hi.1 * 2 ^ (m.k + 4) + lo.1 * 2 ^ (m.kLo + m.logD) + x * 2 ^ (3 + m.logD), hi.2.toNat + lo.2.toNat)
      else
        let c := columnCode ctr a m m.k q j
        (c.1 * 2 ^ m.k, c.2.toNat))
    { sums := outs.map Prod.fst, clips := (outs.map Prod.snd).sum
      devs := if m.refCheck then refDeviations ctr a m q else 0, segs := firedCount q }

/-! Delivery (R77 to R80). -/

/-- R77: the 32-bit two's-complement value of a sum modulo 2^32. -/
def wrap32 (v : Int) : Int := signedOf 32 (bitsOf 32 v)

/-- R80: an INT8 output of a wide value, and whether it was clamped. -/
def requantise (mul shift : Nat) (v : Int) : Int × Bool :=
  let p := v * mul
  let y := if shift = 0 then p else (p + 2 ^ (shift - 1)) / 2 ^ shift
  if 127 < y then (127, true) else if y < -128 then (-128, true) else (y, false)

/-- R78: the range envelope of a wide value. -/
def beyondEnvelope (v : Int) : Bool := decide (2 ^ 30 < v.natAbs)

/-- The INT8 value of a byte. -/
def int8 (b : Byte) : Int := b.toInt

/-- A signed value as one byte. -/
def byteOf (v : Int) : Byte := BitVec.ofInt 8 v

end Sys2Proof.Machine
end

