-- ==== Sys2Proof/Machine/Engine.lean ====
section
/-! DEFINITION. The engine commands (R81 to R85): `FIRE` and the array maintenance commands, at the head of an engine's queue. -/

namespace Sys2Proof.Machine

/-- Table 3-2: a `FIRE` command. -/
structure FireCmd where
  mask       : Nat
  inMode     : Nat
  inShift    : Nat
  addBias    : Bool
  steer      : Bool
  final      : Bool
  int8Out    : Bool
  dstKind    : Nat
  mode       : ModeWord
  vecs       : Nat
  cols       : Nat
  desc       : Nat
  bias       : Nat
  rqMul      : Nat
  rqShift    : Nat
  steerShift : Nat
  satLimit   : Nat
  layer      : Nat
  dst        : Nat
deriving DecidableEq, Repr

/-- Table 3-2: reads a `FIRE` command. -/
def FireCmd.ofBytes (l : List Byte) : FireCmd :=
  let ctl := natAt l 2 1
  let out := natAt l 3 1
  { mask := natAt l 1 1, inMode := bitsAt ctl 0 2, inShift := bitsAt ctl 2 3, addBias := bitAt ctl 5, steer := bitAt ctl 6
    final := bitAt ctl 7, int8Out := bitAt out 0, dstKind := bitsAt out 2 2, mode := ModeWord.ofNat (natAt l 4 4)
    vecs := natAt l 8 2, cols := natAt l 10 2, desc := natAt l 12 4, bias := natAt l 16 4, rqMul := natAt l 20 2
    rqShift := natAt l 22 1, steerShift := natAt l 23 1, satLimit := natAt l 24 1, layer := natAt l 26 2
    dst := natAt l 28 4 }

/-- R71: the arrays a `FIRE` names, ascending. -/
def FireCmd.arrays (c : FireCmd) : List Nat := (List.range 8).filter (fun i => bitAt c.mask i)

/-- Bytes of the vector's input and of its output. -/
def FireCmd.inBytes (c : FireCmd) : Nat := 1024 * c.arrays.length
def FireCmd.outBytes (c : FireCmd) : Nat := if c.int8Out then c.cols else 4 * c.cols

/-- R85: the causes of `BAD_CMD` that the command itself shows; a field outside its table's range is one (log 25). -/
def FireCmd.bad (c : FireCmd) : Bool :=
  c.mode.bad || decide (c.mask = 0) || decide (c.vecs = 0) || decide (c.cols = 0) || decide (256 < c.vecs)
    || decide (1024 < c.cols) || (c.mode.sliced && decide (512 < c.cols)) || decide (c.inMode = 3)
    || (decide (c.inMode = 2) && decide (c.mode.inMag ≠ 4 ∨ c.inShift ≠ 4))
    || (c.int8Out && (!c.final || decide (c.dstKind = 2))) || decide (c.dstKind = 3)
    || decide (47 < c.rqShift) || decide (23 < c.steerShift)
    || decide (spBytes < c.desc + 16 * c.vecs) || (c.addBias && decide (spBytes < c.bias + 4 * c.cols))
    || (decide (c.dstKind ≠ 0) && (unpackKey c.dst).isNone)

/-- Table 3-5: a vector descriptor. -/
structure VecDesc where
  input  : Nat
  output : Nat
  steer  : Nat
  slot   : Nat
deriving DecidableEq, Repr

/-- Table 3-5: reads a descriptor. -/
def VecDesc.ofBytes (l : List Byte) : VecDesc :=
  { input := natAt l 0 4, output := natAt l 4 4, steer := natAt l 8 4, slot := natAt l 12 2 }

/-- R79: whether steering applies to a vector. -/
def FireCmd.steers (c : FireCmd) (d : VecDesc) : Bool := c.steer && decide (d.steer ≠ 0xFFFFFFFF)

/-- R85: whether a descriptor's ranges leave the scratchpad. -/
def FireCmd.rangeBad (c : FireCmd) (d : VecDesc) : Bool :=
  decide (spBytes < d.input + c.inBytes) || (decide (c.dstKind = 0) && decide (spBytes < d.output + c.outBytes))
    || (c.steers d && decide (spBytes < d.steer + c.cols))

/-- What one vector of a `FIRE` gives. -/
structure VecOut where
  ys       : List Int
  poison   : Bool
  envelope : Bool
  refDev   : Bool
  clipOver : Bool
  sats     : Nat
  clips    : Nat
  segs     : Nat
  arrays   : List (Nat × Firing)
deriving DecidableEq, Repr

/-- R71 to R80: one vector. `ctr` numbers the free analog values of its firings. -/
def fireVector (s : State) (k e : Nat) (c : FireCmd) (d : VecDesc) (ctr : Nat) : VecOut :=
  let input := s.spRead k d.input c.inBytes
  let eng := s.engine k e
  let passes := ((List.range c.arrays.length).zip c.arrays).map (fun ia =>
    let us := ((input.drop (1024 * ia.1)).take 1024).map (fun b => int8 b.1)
    let r := inputEdge c.inMode c.inShift c.mode.inMag us
    (ia.2, r.1, r.2))
  let firings := passes.flatMap (fun p =>
    ((List.range p.2.1.length).zip p.2.1).map (fun iq =>
      (p.1, decide (c.inMode = 2 ∧ iq.1 = 0),
        fireArray (ctr + 2 * p.1 + iq.1) (eng.array p.1) c.mode c.cols iq.2)))
  let sums := (List.range c.cols).map (fun j =>
    wrap32 (firings.foldl (fun t f => t + f.2.2.sums.getD j 0 * (if f.2.1 then 16 else 1)) 0))
  let bias := s.spRead k c.bias (4 * c.cols)
  let steer := s.spRead k d.steer c.cols
  let wide := (List.range c.cols).map (fun j =>
    let b : Int := if c.addBias then signedOf 32 (natAt (bias.map Prod.fst) (4 * j) 4) else 0
    let t : Int := if c.steers d then int8 ((steer.map Prod.fst).getD j 0) * 2 ^ c.steerShift else 0
    wrap32 (sums.getD j 0 + b + t))
  let req := wide.map (requantise c.rqMul c.rqShift)
  let clips := (firings.map (fun f => f.2.2.clips)).sum
  let sats := (passes.map (fun p => p.2.2)).sum + (if c.int8Out then (req.filter Prod.snd).length else 0)
  { ys := if c.int8Out then req.map Prod.fst else wide
    poison := spPoison input || (c.steers d && spPoison steer)
    envelope := c.final && (wide.any beyondEnvelope || decide (c.satLimit < sats))
    refDev := firings.any (fun f => 0 < f.2.2.devs)
    clipOver := c.mode.clipAction && decide (c.mode.clipLimit < clips)
    sats := sats, clips := clips
    segs := (firings.map (fun f => f.2.2.segs)).sum
    arrays := firings.map (fun f => (f.1, f.2.2)) }

/-- R80: a vector's output bytes. -/
def FireCmd.bytesOf (c : FireCmd) (o : VecOut) : List Byte :=
  if c.int8Out then o.ys.map byteOf else o.ys.flatMap (fun y => leBytes 4 (bitsOf 32 y))

/-- Table 3-5: the `marks` byte. -/
def VecOut.marks (o : VecOut) : Nat :=
  o.poison.toNat + 2 * o.envelope.toNat + 4 * o.refDev.toNat + 8 * o.clipOver.toNat

/-- Table 3-4: an engine completion word. -/
def completionWord (status clips sats : Nat) (zero poison envelope refDev clipOver : Bool) : Word :=
  BitVec.ofNat 32 (status * 2 ^ 24 + Nat.min clips 255 * 2 ^ 16 + Nat.min sats 255 * 2 ^ 8 + zero.toNat * 16
    + poison.toNat * 8 + envelope.toNat * 4 + refDev.toNat * 2 + clipOver.toNat)

def csDone : Nat := 0
def csBadCmd : Nat := 1
def csStuck : Nat := 2
def csPoisonIn : Nat := 3

/-- A plain completion. -/
def plainWord (status : Nat) : Word := completionWord status 0 0 false false false false false

/-- R81: the packets of an output for another core, one for each 256 bytes. -/
def edgesOf (dest src e offset window layer slot : Nat) (reduce : Bool) (bytes : List (Byte × Bool)) : List Edge :=
  (List.range (ceilDiv bytes.length 256)).map (fun i =>
    let part := (bytes.drop (256 * i)).take 256
    { dest := dest, src := src, engine := e, offset := offset + 256 * i, bytes := part.map Prod.fst,
      bad := ((List.range part.length).zip part).filterMap (fun p => if p.2.2 then some p.1 else none),
      reduce := reduce, window := window, layer := layer, slot := slot })

/-- R395: the units that a vector's marks name: the arrays that deviated or clipped, the engine for the range envelope, and the
core for poison. -/
def State.nameUnits (s : State) (k e : Nat) (o : VecOut) : State :=
  let arrays := (o.arrays.filter (fun x => 0 < x.2.devs ∨ (o.clipOver ∧ 0 < x.2.clips))).map (fun x =>
    4 * packedArray k e x.1 + 2)
  let units := (if o.poison then [4 * packedCore k] else []) ++ (if o.envelope then [4 * packedEngine k e + 1] else []) ++ arrays
  s.updCore k (fun c => { c with named := units.foldl (fun l u => insertNat u l) c.named })

/-- R80, R81, R84: delivers a vector: its output, poisoned as a whole if the vector is, and then its marks. -/
def State.deliver (s : State) (k e : Nat) (c : FireCmd) (i : Nat) (d : VecDesc) (o : VecOut) : State :=
  let bytes := (c.bytesOf o).map (fun b => (b, o.poison))
  let s1 := if c.dstKind = 0 then s.spWrite k d.output bytes
    else
      let out := edgesOf ((unpackKey c.dst).getD 0) k e d.output s.plan.window c.layer d.slot (c.dstKind = 2) bytes
      { s with plan := { s.plan with edges := s.plan.edges ++ out } }
  let s2 := s1.spWrite k (c.desc + 16 * i + 15) (cleanBytes [BitVec.ofNat 8 o.marks])
  let s2 := if o.marks = 0 then s2 else s2.nameUnits k e o
  let s3 := if c.final then s2.probeFire k e c.layer d.slot (c.bytesOf o) o.ys o.sats o.clips else s2
  if c.final ∧ c.int8Out then s3.pairFire k ((s.core k).emap.findIdx (fun x => x = e)) c.layer d.slot o.ys else s3

/-- R57, R62, R403: what a vector's firings count. -/
def State.countFirings (s : State) (k e : Nat) (o : VecOut) : State :=
  let f := k / coresPerField
  let devs := (o.arrays.map (fun x => x.2.devs)).sum
  let s1 := o.arrays.foldl (fun s x => if x.2.segs = 0 then s else s.updArray k e x.1 (fun a =>
    if s.counting then { a with firings := satCount a.firings 1, refDev := satCount a.refDev x.2.devs
                                clips := satCount a.clips x.2.clips } else a)) s
  let s2 := s1.countField f fcSegEvals o.segs
  let s3 := (s2.countField f fcClips o.clips).countField f fcRefDev devs
  (s3.countPart (s.corePart k) pcSegEvals o.segs).countPart (s.corePart k) pcClips o.clips

/-- R82, R84: completes the command at the head of engine `e`. -/
def State.engineDone (s : State) (k e : Nat) (m : Cmd) (w : Word) : State :=
  s.updEngine k e (fun v => { v with queue := v.queue.drop 1, done := some (w, m) })

/-- R85: completes it with a command fault: a fault signature against the engine, and the step goes to fault report. -/
def State.engineFault (s : State) (k e : Nat) (m : Cmd) (status : Nat) : State :=
  let w := plainWord status
  ((s.engineDone k e m w).updCore k (fun v => { v with commandFault := true })).faultCore k (packedEngine k e) 0x07 0 .engine
    (leBytes 4 w.toNat ++ leBytes 1 (natAt m.bytes 0 1)) 0xFFFFFFFF
    (if natAt m.bytes 0 1 = 1 then natAt m.bytes 26 2 else 0xFFFF)

/-- R82: the command at the head of an engine's queue that may execute now: the completion register is free, the core runs
and the engine is not fenced. -/
def State.engineHead (s : State) (c : CoreRef) (e : Nat) : Option Cmd :=
  let v := s.core c.key
  if c.ok ∧ e < enginesPerCore ∧ !v.stopped ∧ !v.fenced ∧ !(v.engine e).fenced ∧ (v.engine e).done.isNone then
    (v.engine e).queue.head? else none

/-- Tables 3-2, 3-3: the opcodes of engine commands. -/
def engineOpcodes : List Nat := [1, 2, 3, 4, 5]

/-- R83, R85: one engine command: an undefined opcode at the head completes with `BAD_CMD` and a poisoned command with
`POISON_IN`, whichever row is commanded; a row that is not the head's does not happen (log 1). -/
def State.runEngine (s : State) (c : CoreRef) (e op : Nat) (act : Cmd → State) : State :=
  match s.engineHead c e with
  | none => s
  | some m =>
    if m.poison then s.engineFault c.key e m csPoisonIn
    else if !engineOpcodes.contains (natAt m.bytes 0 1) then s.engineFault c.key e m csBadCmd
    else if natAt m.bytes 0 1 ≠ op then s
    else act m

/-- R171: the working spare engines of a core. -/
def Core.spares (c : Core) : List Nat :=
  (List.range enginesPerCore).filter (fun e => !c.emap.contains e && !(c.engine e).failed && !(c.engine e).fenced
    && (c.engine e).arrays.vals.all (fun a => a.state = 0))

/-- R173: the working spare engines of a core that no job holds; a refresh that is only planned holds none. -/
def State.freeSpares (s : State) (k : Nat) : List Nat :=
  let c := s.core k
  c.spares.filter (fun e => (c.engine e).rowsLeft.isEmpty && !(c.engines.vals.any (fun v => match v.refresh with
    | some r => decide (0 < r.phase ∧ r.spare = e)
    | none => false)))

/-- R173: the first of them. -/
def State.freeSpare (s : State) (k : Nat) : Option Nat := (s.freeSpares k).head?

/-- R37: `n` segments' credits for the command at the head of engine `e`, one at a time; where the bucket empties first, what it held is
taken and the engine waits. -/
def State.pay (s : State) (k e n : Nat) : State × Bool :=
  let f := k / coresPerField
  let due := n - (s.engine k e).paid
  let held := (s.power f).bucket
  let take := Nat.min due held
  let s1 := (s.updPower f (fun p => { p with bucket := held - take })).updEngine k e (fun v => { v with
    paid := if due ≤ held then 0 else v.paid + take })
  if due ≤ held then (s1, true) else (s1.countField f fcStallWaits 1, false)

/-- R171: whether `ref_check` is forced on: a due engine of a core without a working spare, under the policy `serve`. -/
def State.refForced (s : State) (k e : Nat) : Bool :=
  (s.engine k e).arrays.vals.any (fun a => a.refDue) && (s.core k).spares.isEmpty
    && decide ((s.part (s.edition (s.core k).edition).partition).refreshPolicy = 1)

/-- The vector descriptors of a command, as bytes read. -/
def State.descBytes (s : State) (k : Nat) (c : FireCmd) : List (List (Byte × Bool)) :=
  (List.range c.vecs).map (fun i => s.spRead k (c.desc + 16 * i) 16)

/-- What a `FIRE` reads before its vectors: descriptors and biases. -/
def FireCmd.heads (c : FireCmd) : List (Nat × Nat) := [(c.desc, 16 * c.vecs)] ++ (if c.addBias then [(c.bias, 4 * c.cols)] else [])

/-- The scratchpad ranges that a `FIRE` reads. -/
def FireCmd.reads (c : FireCmd) (ds : List VecDesc) : List (Nat × Nat) :=
  c.heads ++ ds.flatMap (fun d => (d.input, c.inBytes) :: (if c.steers d then [(d.steer, c.cols)] else []))

/-- FIRE on a checked command: the credits (R37), the vectors, the completion; a poisoned read goes before a bad range (log 25). -/
def State.fire (s : State) (k e : Nat) (m : Cmd) : State :=
  let c0 := FireCmd.ofBytes m.bytes
  let c := { c0 with mode := { c0.mode with refCheck := c0.mode.refCheck || s.refForced k e } }
  if c.bad then s.engineFault k e m csBadCmd
  else
    let descs := s.descBytes k c
    let bias := s.spRead k c.bias (4 * c.cols)
    let ds := descs.map (fun l => VecDesc.ofBytes (l.map Prod.fst))
    if descs.any spPoison ∨ (c.addBias ∧ spPoison bias) then (s.touchRanges k c.heads).engineFault k e m csPoisonIn
    else if ds.any c.rangeBad then (s.touchRanges k c.heads).engineFault k e m csBadCmd
    else
      let outs := ((List.range ds.length).zip ds).map (fun p => (p.1, p.2, fireVector s k e c p.2 (s.free + 16 * p.1)))
      let segs := (outs.map (fun o => o.2.2.segs)).sum
      match s.pay k e segs with
      | (t, false) => t
      | (t, true) =>
        let s1 := outs.foldl (fun (t : State) o => (t.countFirings k e o.2.2).deliver k e c o.1 o.2.1 o.2.2)
          ({ t with free := s.free + 16 * ds.length }.touchRanges k (c.reads ds))
        s1.engineDone k e m (completionWord csDone (outs.map (fun o => o.2.2.clips)).sum
          (outs.map (fun o => o.2.2.sats)).sum (decide (segs = 0)) (outs.any (fun o => o.2.2.poison))
          (outs.any (fun o => o.2.2.envelope)) (outs.any (fun o => o.2.2.refDev)) (outs.any (fun o => o.2.2.clipOver)))

/-- FIRE (R71 to R85). -/
def execFire (c : CoreRef) (e : Nat) (s : State) : Out := .next (s.runEngine c e 1 (s.fire c.key e))

/-! The array maintenance commands (Table 3-3). -/

/-- Table 3-3: array, row, source, result address. -/
def maintArray (l : List Byte) : Nat := natAt l 1 1
def maintRow (l : List Byte) : Nat := natAt l 2 2
def maintSrc (l : List Byte) : Nat := natAt l 4 4
def maintDst (l : List Byte) : Nat := natAt l 8 4

/-- R48, R61, R65, R66, R83: the level that a row program gives a column, from the 512 bytes of weight levels. -/
def rowLevel (map : List (BitVec 16)) (row : Nat) (bytes : List Byte) (col : Nat) : Nat :=
  let want := fun c : Nat =>
    if c < 1024 then (if c % 2 = 0 then bitsAt (natAt bytes (c / 2) 1) 0 4 else bitsAt (natAt bytes (c / 2) 1) 4 4)
    else refLevel c row
  if col < 1032 then (if (spareOf map col).isSome then 8 else want col)
  else match map[col - 1032]? with
    | some e => match mapColumn e with
      | some c => want c
      | none => 8
    | none => 8

/-- R42: programs a row: its levels, and the cells that did not verify; `agent` says that it belongs to a job of the agents. -/
def Array.programRow (a : Array) (row : Nat) (bytes : List Byte) (stuck : List (Nat × Nat)) (now : U64) (agent : Bool) : Array :=
  let levels := (List.range arrayColumns).foldl (fun (m : Memory) c =>
    m.write (row * arrayColumns + c) (BitVec.ofNat 8 (rowLevel a.progMap row bytes c) ^^^ 8)) a.levels
  { a with
    levels := levels
    stuck := stuck.foldl (fun m x => m.put (row * arrayColumns + x.1) (BitVec.ofNat 8 x.2))
      (a.stuck.keep (fun i _ => decide (i / arrayColumns ≠ row)))
    mapRows := insertNat row a.mapRows
    progAt := a.progAt.put row now
    reprog := if agent && a.jobRows.contains row then insertNat row a.reprog else a.reprog
    jobRows := if agent then insertNat row a.jobRows else a.jobRows }

/-- R43: the stuck cells of a row program that are not accepted: the level read is not the target. -/
def unaccepted (map : List (BitVec 16)) (row : Nat) (bytes : List Byte) (stuck : List (Nat × Nat)) : List (Nat × Nat) :=
  stuck.filter (fun x => x.2 ≠ rowLevel map row bytes x.1)

/-- R83: the report of stuck cells. -/
def stuckReport (stuck : List (Nat × Nat)) : List Byte :=
  leBytes 2 stuck.length ++ stuck.flatMap (fun x => leBytes 2 x.1 ++ leBytes 1 x.2 ++ leBytes 1 0)

/-- PROG_ROW on the head command; the programming agent's command carries its row with it (log 27). A source that reads poisoned is
programmed as it reads, and marks the completion word; the range of `dst` is that of the report written (log 137). No row program
starts after a power failure (R423). -/
def State.progRow (s : State) (k e : Nat) (stuck : List (Nat × Nat)) (m : Cmd) : State :=
  let l := m.bytes
  let own := m.seq.isSome
  let bytes := s.spRead k (maintSrc l) 512
  if 7 < maintArray l ∨ 1023 < maintRow l
      ∨ (own ∧ (spBytes < maintSrc l + 512 ∨ spBytes < maintDst l + 2 + 4 * stuck.length)) then
    s.engineFault k e m csBadCmd
  else if s.mod.powerFail then s
  else
    let row := if own then bytes.map Prod.fst else m.rows
    let a := s.array k e (maintArray l)
    let s0 := if own then s.spTouched k (maintSrc l) 512 else s
    let s1 := s0.updArray k e (maintArray l) (fun a => a.programRow (maintRow l) row stuck s.stamp !own)
    let s2 := if own then s1.spWrite k (maintDst l) (cleanBytes (stuckReport stuck)) else s1
    s2.engineDone k e m (completionWord (if (unaccepted a.progMap (maintRow l) row stuck).isEmpty then csDone else csStuck)
      0 0 false (own && spPoison bytes) false false false)

/-- PROG_ROW (R41 to R43, R83): `stuck` lists the cells that did not verify (column, level read). -/
def execProgRow (c : CoreRef) (e : Nat) (stuck : List (Nat × Nat)) (s : State) : Out :=
  .next (s.runEngine c e 2 (s.progRow c.key e stuck))

/-- R43, R83: the level a cell reads back; where it is not stuck the analog cell decides (log 8). -/
def Array.readBack (a : Array) (ctr row col : Nat) : Nat :=
  match a.stuck.find? (row * arrayColumns + col) with
  | some v => v.toNat % 16
  | none => (Config.cellRead ctr row col (BitVec.ofNat 4 (a.level row col))).toNat

/-- Packs levels two to a byte, the even column in the low nibble. -/
def packLevels : List Nat → List Byte
  | a :: b :: t => BitVec.ofNat 8 (a + 16 * b) :: packLevels t
  | [a] => [BitVec.ofNat 8 a]
  | [] => []

/-- READ_ROW on the head command. -/
def State.readRow (s : State) (k e : Nat) (m : Cmd) : State :=
  let l := m.bytes
  if 7 < maintArray l ∨ 1023 < maintRow l ∨ spBytes < maintDst l + 520 then s.engineFault k e m csBadCmd
  else
    let a := s.array k e (maintArray l)
    let levels := (List.range arrayColumns).map (fun c => a.readBack s.free (maintRow l) c)
    ((s.drawn).spWrite k (maintDst l) (cleanBytes (packLevels levels))).engineDone k e m (plainWord csDone)

/-- READ_ROW (R83): the 1,040 levels that the cells of a row read back. -/
def execReadRow (c : CoreRef) (e : Nat) (s : State) : Out := .next (s.runEngine c e 3 (s.readRow c.key e))

/-- R66, R83: the byte at a position of a sample firing: its code; a mapped spare's own position carries its code as well, an unmapped
one's converter is unbiased and its byte free. -/
def sampleByte (ctr : Nat) (a : Array) (m : ModeWord) (q : List Int) (col : Nat) : Byte :=
  let unmapped := decide (1032 ≤ col) && ((a.colMap[col - 1032]?).bind mapColumn).isNone
  let k := if m.sliced ∧ col < 1024 ∧ col % 2 = 1 then m.kLo else m.k
  if unmapped then Config.unbiasedCode ctr col else byteOf (columnCode ctr a m k q col).1

/-- R62, R83: what a sample firing of `n` segments with `devs` reference deviations counts; the array is named where it deviates. -/
def State.countSample (s : State) (k e a n devs : Nat) : State :=
  let f := k / coresPerField
  let s1 := (s.countField f fcSegEvals n).countField f fcRefDev devs
  let s2 := if n = 0 then s1 else s1.updArray k e a (fun v =>
    if s.counting then { v with firings := satCount v.firings 1, refDev := satCount v.refDev devs } else v)
  if devs = 0 then s2
  else s2.updCore k (fun c => { c with named := insertNat (4 * packedArray k e a + 2) c.named })

/-- REF_SAMPLE on the head command; inputs beyond the mode word's magnitude are fired as they are (log 138). -/
def State.refSample (s : State) (k e : Nat) (m : Cmd) : State :=
  let l := m.bytes
  let w := ModeWord.ofNat (natAt l 12 4)
  let i := maintArray l
  if 7 < i ∨ w.bad ∨ spBytes < maintSrc l + 1024 ∨ spBytes < maintDst l + 1040 then s.engineFault k e m csBadCmd
  else
    let input := s.spRead k (maintSrc l) 1024
    let q := input.map (fun b => int8 b.1)
    let n := firedCount q
    match s.pay k e n with
    | (t, false) => t
    | (t, true) =>
      let a := s.array k e i
      let bad := spPoison input
      let devs := if n ≠ 0 ∧ w.refCheck then refDeviations s.free a w q else 0
      let codes := (List.range arrayColumns).map (fun c => if n = 0 then 0 else sampleByte s.free a w q c)
      ((((t.drawn.spTouched k (maintSrc l) 1024).countSample k e i n devs).spWrite k (maintDst l)
        (codes.map (fun b => (b, bad)))).engineDone k e m
          (completionWord csDone 0 0 (decide (n = 0)) bad false (decide (0 < devs)) false))

/-- REF_SAMPLE (R83): fires the array once and writes all 1,040 codes. -/
def execRefSample (c : CoreRef) (e : Nat) (s : State) : Out := .next (s.runEngine c e 4 (s.refSample c.key e))

/-- R63: a trim record within the limits of its trims. -/
def clampTrim (w : Nat) : Word :=
  let g := max (-4096) (min 4096 (signedOf 16 (bitsAt w 0 16)))
  let z := max (-1024) (min 1024 (signedOf 16 (bitsAt w 16 16)))
  BitVec.ofNat 32 (bitsOf 16 z * 2 ^ 16 + bitsOf 16 g)

/-- R65: the column map entries of the 16 bytes after a trim record, reserved bits 0; an entry that is not valid is 0. -/
def mapOfBytes (l : List Byte) : List (BitVec 16) :=
  (List.range 8).map (fun i =>
    let e := BitVec.ofNat 16 (natAt l (2 * i) 2) &&& 0x87FF
    if (mapColumn e).isSome then e else 0)

/-- LOAD_TRIM on the head command; a record that reads poisoned is loaded as it reads and marks the completion word (log 137). A
column map other than the ledger's is put to the ledger (R67). -/
def State.loadTrim (s : State) (k e : Nat) (m : Cmd) : State :=
  let l := m.bytes
  if 7 < maintArray l ∨ spBytes < maintSrc l + 20 then s.engineFault k e m csBadCmd
  else
    let b := s.spRead k (maintSrc l) 20
    let v := b.map Prod.fst
    let map := mapOfBytes (v.drop 4)
    let s1 := (s.spTouched k (maintSrc l) 20).updArray k e (maintArray l) (fun a => a.shadowed (clampTrim (natAt v 0 4)) map)
    (if map = (s.array k e (maintArray l)).mapLedger then s1
      else s1.journalArray k e (maintArray l) jwMap 1 (map.map BitVec.toNat)).engineDone k e m
      (completionWord csDone 0 0 false (spPoison b) false false false)

/-- LOAD_TRIM (R60, R64, R65, R83): loads a trim record and column map into the array's shadow copy. -/
def execLoadTrim (c : CoreRef) (e : Nat) (s : State) : Out := .next (s.runEngine c e 5 (s.loadTrim c.key e))

end Sys2Proof.Machine
end

