-- ==== Sys2Proof/Machine/Spire.lean ====
section
/-! DEFINITION. The spire: its formats, arithmetic and commands (R86 to R91). -/

namespace Sys2Proof.Machine

/-- Table 3-7: a spire command. -/
structure SpireCmd where
  fmtA    : Nat
  fmtB    : Nat
  fmtC    : Nat
  accum   : Bool
  transB  : Bool
  final   : Bool
  a       : Nat
  b       : Nat
  c       : Nat
  m       : Nat
  n       : Nat
  k       : Nat
  aux     : Nat
  scale   : Nat
  auxAddr : Nat
deriving DecidableEq, Repr

/-- Table 3-7: reads a spire command. -/
def SpireCmd.ofBytes (l : List Byte) : SpireCmd :=
  { fmtA := bitsAt (natAt l 1 1) 0 4, fmtB := bitsAt (natAt l 1 1) 4 4, fmtC := bitsAt (natAt l 2 1) 0 4
    accum := bitAt (natAt l 3 1) 0, transB := bitAt (natAt l 3 1) 1, final := bitAt (natAt l 3 1) 2
    a := natAt l 4 4, b := natAt l 8 4, c := natAt l 12 4, m := natAt l 16 2, n := natAt l 18 2, k := natAt l 20 2
    aux := natAt l 22 2, scale := natAt l 24 4, auxAddr := natAt l 28 4 }

/-- Table 3-6: bytes of an element. -/
def fmtSize (f : Nat) : Nat := if f ≤ 2 then 1 else if f = 3 then 2 else 4

/-- Table 3-6: the value of an element. -/
def fmtValue (f w : Nat) : FVal :=
  if f = 0 then FVal.ofInt (signedOf 8 w) 0
  else if f = 1 then fmtE4M3.value w
  else if f = 2 then fmtE5M2.value w
  else if f = 3 then fmtBF16.value w
  else if f = 4 then fmtFP32.value w
  else FVal.ofInt (signedOf 32 w) 0

/-- R87, R88: an output element, and whether it was saturated. -/
def fmtOutput (f : Nat) (v : FVal) : Nat × Bool :=
  if f = 0 then
    let y := v.toIntRne
    if 127 < y then (127, true) else if y < -128 then (128, true) else (bitsOf 8 y, false)
  else if f = 1 then fmtE4M3.ofVal true v
  else if f = 2 then fmtE5M2.ofVal true v
  else if f = 3 then fmtBF16.ofVal true v
  else if f = 4 then ((fmtFP32.ofVal false v).1, false)
  else
    let y := v.toIntRne
    if 2 ^ 31 - 1 < y then (2 ^ 31 - 1, true) else if y < -2 ^ 31 then (2 ^ 31, true) else (bitsOf 32 y, false)

/-- Elements of `count` values of a format in bytes. -/
def elemsOf (f count : Nat) (l : List Byte) : List Nat :=
  (List.range count).map (fun i => natAt l (i * fmtSize f) (fmtSize f))

/-- Elements of an operand as the spire of core `k` reads them, with the poison of any byte. -/
def State.operand (s : State) (k a f count : Nat) : List Nat × Bool :=
  let b := s.spRead k a (count * fmtSize f)
  (elemsOf f count (b.map Prod.fst), spPoison b)

/-- What a spire operation gives: the elements of C in order, saturations, and the envelope and poison marks. -/
structure SpireOut where
  fmt      : Nat
  elems    : List Nat
  sats     : Nat
  envelope : Bool
  poison   : Bool
  index    : List Nat
deriving DecidableEq, Repr

/-- R88: what an operation gives, from its elements with their saturations. -/
def SpireCmd.outOf (c : SpireCmd) (outs : List (Nat × Bool)) (wide poison : Bool) (index : List Nat) : SpireOut :=
  { fmt := c.fmtC, elems := outs.map Prod.fst, sats := (outs.filter Prod.snd).length
    envelope := wide || outs.any (fun o => (fmtValue c.fmtC o.1).special), poison := poison, index := index }

/-- R88: the outputs of values, scaled exactly and rounded once to the output format (log 9). -/
def spireOut (c : SpireCmd) (vals : List FVal) (wide poison : Bool) (index : List Nat) : SpireOut :=
  c.outOf (vals.map (fun v => fmtOutput c.fmtC (v.mul (f32 c.scale)))) wide poison index

/-- R78, R88: whether wide values consumed with `final` leave the range envelope. -/
def wideBeyond (c : SpireCmd) (f : Nat) (l : List Nat) : Bool :=
  c.final && decide (f = 5) && l.any (fun w => beyondEnvelope (signedOf 32 w))

/-! GEMM. -/

/-- R87: exact dot product of one slice of up to 64 products. -/
def sliceSum : List (FVal × FVal) → FVal
  | [] => .fin false 0 0
  | p :: t => (p.1.mul p.2).add (sliceSum t)

/-- R87: the products of one output element, in slices of 64, each added to the FP32 accumulator with one rounding. -/
def fltDot : Nat → FVal → List (FVal × FVal) → FVal
  | 0, acc, _ => acc
  | n + 1, acc, l => fltDot n (f32 (toF32 (acc.add (sliceSum (l.take 64))))) (l.drop 64)

/-- R87: the INT8 products of one output element, in INT32 modulo 2^32. -/
def intDot (l : List (Int × Int)) : Int := wrap32 (l.foldl (fun t p => t + p.1 * p.2) 0)

/-- Row `i` of A and column `j` of B. -/
def gemmPairs (c : SpireCmd) (as bs : List Nat) (i j : Nat) : List (Nat × Nat) :=
  (List.range c.k).map (fun x => (as.getD (i * c.k + x) 0, bs.getD (if c.transB then j * c.k + x else x * c.n + j) 0))

/-- R90: formats and ranges of `GEMM` (Table 3-6: INT8 with INT8, or floating-point inputs of one or two bytes; which format codes an
operation allows is the model's choice, log 154). -/
def gemmBad (c : SpireCmd) : Bool :=
  decide (c.m = 0 ∨ c.n = 0 ∨ c.k = 0) || decide (3 < c.fmtA ∨ 3 < c.fmtB ∨ 5 < c.fmtC)
    || decide ((c.fmtA = 0) ≠ (c.fmtB = 0))
    || decide (spBytes < c.a + c.m * c.k * fmtSize c.fmtA) || decide (spBytes < c.b + c.k * c.n * fmtSize c.fmtB)
    || decide (spBytes < c.c + c.m * c.n * fmtSize c.fmtC)

/-- R87: an element of C from its scaled product and its old value; an INT8 product goes into an INT32 C modulo 2^32 (log 9). -/
def gemmElem (c : SpireCmd) (v : FVal) (old : Nat) : Nat × Bool :=
  if !c.accum then fmtOutput c.fmtC v
  else if c.fmtA = 0 ∧ c.fmtC = 5 then
    let y := fmtOutput 5 v
    (bitsOf 32 (signedOf 32 y.1 + signedOf 32 old), y.2)
  else fmtOutput c.fmtC (v.add (fmtValue c.fmtC old))

/-- R87, R91: C = scale × (A × B) (+ C). -/
def gemm (s : State) (k : Nat) (c : SpireCmd) : SpireOut :=
  let a := s.operand k c.a c.fmtA (c.m * c.k)
  let b := s.operand k c.b c.fmtB (c.k * c.n)
  let old := s.operand k c.c c.fmtC (c.m * c.n)
  let outs := (List.range (c.m * c.n)).map (fun i =>
    let ps := gemmPairs c a.1 b.1 (i / c.n) (i % c.n)
    let prod := if c.fmtA = 0 then FVal.ofInt (intDot (ps.map (fun p => (signedOf 8 p.1, signedOf 8 p.2)))) 0
      else fltDot (ceilDiv c.k 64) (.fin false 0 0) (ps.map (fun p => (fmtValue c.fmtA p.1, fmtValue c.fmtB p.2)))
    gemmElem c (prod.mul (f32 c.scale)) (old.1.getD i 0))
  c.outOf outs (c.accum && wideBeyond c c.fmtC old.1) (a.2 || b.2 || (c.accum && old.2)) []

/-! The vector operations. -/

/-- R91: an FP32 element of a function that the spec names and whose roundings it leaves open, a NaN staying one (R88):
within 256 ULP and 4 for each operand of the formula evaluated with one rounding an operation (log 9). -/
def openRounded (op : Nat) (row : List Nat) (j w : Nat) : FVal :=
  let most : Int := (256 + 4 * row.length : Nat)
  f32 (ulpMoved w (max (-most) (min most (Config.vecOff op row j))))

/-- R91: the floating-point operations of `VEC`, numbered in the order of the table (log 9). -/
def vecOp (op : Nat) (a b : FVal) : FVal :=
  if op = 0 then f32 (toF32 (a.add b))
  else if op = 1 then f32 (toF32 (a.mul b))
  else if op = 2 then (match a, b with
    | .nan, _ => .nan
    | _, .nan => .nan
    | x, y => if x.le y then y else x)
  else
    let w := toF32 a
    openRounded op [w] 0 (if op = 3 then f32Silu w else if op = 4 then f32Gelu w else f32Exp w)

/-- R80, R91: the multiplier and shift of a `VEC` requantisation, in the ranges of Table 3-2 (log 9). -/
def SpireCmd.requant (c : SpireCmd) : Nat × Nat :=
  let p := Config.vecRequant (BitVec.ofNat 32 c.scale) c.aux
  (p.1 % 2 ^ 16, p.2 % 48)

/-- R90: formats, dimensions and ranges of a vector operation on `m` × `n` elements; the format codes allowed are log 154's. -/
def vectorBad (c : SpireCmd) (inputs : List Nat) (cols : Nat) : Bool :=
  decide (c.m = 0 ∨ c.n = 0) || !inputs.contains c.fmtA || decide (4 < c.fmtC)
    || decide (spBytes < c.a + c.m * c.n * fmtSize c.fmtA) || decide (spBytes < c.c + c.m * cols * fmtSize c.fmtC)

/-- R90, R91: the faults of a `VEC`; an operation above 6 is one (log 155). -/
def vecBad (c : SpireCmd) : Bool :=
  let op := bitsAt c.aux 0 4
  decide (6 < op) || vectorBad c (if op = 6 then [5] else [0, 1, 2, 3, 4, 5]) c.n
    || (decide (op = 6) && decide (c.fmtC ≠ 0))
    || (decide (op ≤ 2) && (decide (5 < c.fmtB) || decide (spBytes < c.b + c.m * c.n * fmtSize c.fmtB)))
    || (decide (c.auxAddr ≠ 0) && decide (spBytes < c.auxAddr + 4 * c.n))

/-- R91, `VEC`: element by element, with the per-column bias; a clamped element of a requantisation counts as saturated. -/
def vecRun (s : State) (k : Nat) (c : SpireCmd) : SpireOut :=
  let op := bitsAt c.aux 0 4
  let e := c.m * c.n
  let a := s.operand k c.a c.fmtA e
  let b := if op ≤ 2 then s.operand k c.b c.fmtB e else ([], false)
  let bias := if c.auxAddr = 0 then ([], false) else s.operand k c.auxAddr (if op = 6 then 5 else 4) c.n
  let wide := wideBeyond c c.fmtA a.1 || (decide (op ≤ 2) && wideBeyond c c.fmtB b.1)
  let poison := a.2 || b.2 || bias.2
  if op = 6 then
    c.outOf ((List.range e).map (fun i =>
      let y := requantise c.requant.1 c.requant.2
        (wrap32 (signedOf 32 (a.1.getD i 0) + signedOf 32 (bias.1.getD (i % c.n) 0)))
      (bitsOf 8 y.1, y.2))) wide poison []
  else
    spireOut c ((List.range e).map (fun i =>
      let y := vecOp op (fmtValue c.fmtA (a.1.getD i 0)) (fmtValue c.fmtB (b.1.getD i 0))
      if c.auxAddr = 0 then y else f32 (toF32 (y.add (f32 (bias.1.getD (i % c.n) 0)))))) wide poison []

/-- The FP32 patterns of one row of an operand. -/
def rowF32 (f n i : Nat) (l : List Nat) : List Nat :=
  ((l.drop (i * n)).take n).map (fun w => toF32 (fmtValue f w))

/-- The FP32 sum of a row, element by element. -/
def f32Sum (l : List Nat) : Nat := l.foldl f32Add 0

/-- A count as an FP32 pattern. -/
def f32OfNat (n : Nat) : Nat := toF32 (.fin false n 0)

/-- R91: the values of a row whose roundings are open: all NaN where an entry is one, since each depends on every entry (R88). -/
def rowOpen (op : Nat) (row : List Nat) (out : List Nat) : List FVal :=
  ((List.range out.length).zip out).map (fun p =>
    if row.any (fun w => decide (f32 w = .nan)) then .nan else openRounded op row p.1 p.2)

/-- R91: the row softmax: each exp of the distance from the largest entry, times the reciprocal of their sum. -/
def softmaxRow (row : List Nat) : List FVal :=
  let top := row.foldl (fun t w => if (f32 t).le (f32 w) then w else t) 0xFF800000
  let es := row.map (fun w => f32Exp (f32Sub w top))
  rowOpen 7 row (es.map (fun x => f32Mul x (f32Recip (f32Sum es))))

/-- R91: the row RMS norm (false) or layer norm (true) with epsilon 2^-n, before the gains: the row, less its mean in a layer norm,
times the reciprocal root of its mean square plus epsilon. -/
def normRow (layer : Bool) (n : Nat) (row : List Nat) : List FVal :=
  let inv := f32Recip (f32OfNat row.length)
  let mean := if layer then f32Mul (f32Sum row) inv else 0
  let xs := row.map (fun w => f32Sub w mean)
  let ms := f32Mul (f32Sum (xs.map (fun w => f32Mul w w))) inv
  let r := f32Rsqrt (f32Add ms (toF32 (.fin false 1 (-(n : Int)))))
  rowOpen (if layer then 9 else 8) row (xs.map (fun w => f32Mul w r))

/-- R90, R91: the faults of a `NORM`. -/
def normBad (c : SpireCmd) : Bool :=
  vectorBad c [0, 1, 2, 3, 4] c.n || decide (spBytes < c.auxAddr + 4 * c.n)

/-- R91, `NORM`: row RMS norm or layer norm (the vector unit's, log 9), times gain. -/
def normRun (s : State) (k : Nat) (c : SpireCmd) : SpireOut :=
  let a := s.operand k c.a c.fmtA (c.m * c.n)
  let g := s.operand k c.auxAddr 4 c.n
  let vals := (List.range c.m).flatMap (fun i =>
    ((normRow (bitAt c.aux 15) (bitsAt c.aux 0 8) (rowF32 c.fmtA c.n i a.1)).zip g.1).map (fun p =>
      f32 (toF32 (p.1.mul (f32 p.2)))))
  spireOut c vals false (a.2 || g.2) []

/-- R90, R91: the faults of a `SOFTMAX`. -/
def softmaxBad (c : SpireCmd) : Bool :=
  vectorBad c [0, 1, 2, 3, 4] c.n || (decide (c.auxAddr ≠ 0) && decide (spBytes < c.auxAddr + 4 * c.m * c.n))

/-- Minus infinity in FP32. -/
def negInf : Nat := 0xFF800000

/-- R91, `SOFTMAX`: row softmax after the additive mask and the causal length. -/
def softmaxRun (s : State) (k : Nat) (c : SpireCmd) : SpireOut :=
  let a := s.operand k c.a c.fmtA (c.m * c.n)
  let mask := if c.auxAddr = 0 then ([], false) else s.operand k c.auxAddr 4 (c.m * c.n)
  let vals := (List.range c.m).flatMap (fun i =>
    let row := rowF32 c.fmtA c.n i a.1
    let masked := ((List.range c.n).zip row).map (fun p =>
      if c.aux ≠ 0 ∧ c.aux ≤ p.1 then negInf
      else if c.auxAddr = 0 then p.2 else f32Add p.2 (mask.1.getD (i * c.n + p.1) 0))
    softmaxRow masked)
  spireOut c vals false (a.2 || mask.2) []

/-- R90, R91: the faults of a `TOPK`; a `k` of 0, above 16 or above the row's length is one (log 155). -/
def topkBad (c : SpireCmd) : Bool :=
  decide (c.aux = 0 ∨ 16 < c.aux ∨ c.n < c.aux) || vectorBad c [0, 1, 2, 3, 4] c.aux
    || decide (spBytes < c.auxAddr + 4 * c.m * c.aux)

/-- R91: whether entry `p` ranks before entry `q` (index, value); equal entries by the tie rule (log 9). -/
def ranksBefore (p q : Nat × FVal) : Bool :=
  if p.2.le q.2 then q.2.le p.2 && decide (Config.topkTie p.1 < Config.topkTie q.1) else q.2.le p.2

/-- Puts an entry at its rank. -/
def rankIn (p : Nat × FVal) : List (Nat × FVal) → List (Nat × FVal)
  | [] => [p]
  | q :: t => if ranksBefore p q then p :: q :: t else q :: rankIn p t

/-- R91, `TOPK`: indices and the softmax of the selected entries; an index takes 4 bytes (log 9). Which entries are selected
depends on every entry, so a NaN in a row makes all its outputs NaN (R88). -/
def topkRun (s : State) (k : Nat) (c : SpireCmd) : SpireOut :=
  let a := s.operand k c.a c.fmtA (c.m * c.n)
  let rows := (List.range c.m).map (fun i =>
    let row := ((List.range c.n).zip (((a.1.drop (i * c.n)).take c.n).map (fmtValue c.fmtA)))
    ((row.foldl (fun l p => rankIn p l) []).take c.aux, row.any (fun p => decide (p.2 = .nan))))
  let vals := rows.flatMap (fun r =>
    if r.2 then r.1.map (fun _ => FVal.nan) else softmaxRow (r.1.map (fun p => toF32 p.2)))
  spireOut c vals false a.2 (rows.flatMap (fun r => r.1.map Prod.fst))

/-- R90, R91: the faults of a `NARROW`; mode 3 is one, and so is a mode 2 of another split than R72's (log 155). -/
def narrowBad (c : SpireCmd) : Bool :=
  let mode := bitsAt c.aux 0 2
  vectorBad c [0] c.n || decide (c.fmtC ≠ 0) || decide (mode = 3)
    || (decide (mode = 2) && (decide (bitsAt c.aux 2 3 ≠ 4 ∨ bitsAt c.aux 5 2 ≠ 3)
        || decide (spBytes < c.c + 2 * c.m * c.n)))

/-- Cuts a list into slices of 1,024. -/
def slices1024 : Nat → List Int → List (List Int)
  | 0, _ => []
  | n + 1, l => l.take 1024 :: slices1024 n (l.drop 1024)

/-- R91, `NARROW`: R72 on INT8 rows; in mode 2 the rows of the first pass come before those of the second (log 9). -/
def narrowRun (s : State) (k : Nat) (c : SpireCmd) : SpireOut :=
  let a := s.operand k c.a 0 (c.m * c.n)
  let rows := (List.range c.m).map (fun i =>
    (slices1024 (ceilDiv c.n 1024) (((a.1.drop (i * c.n)).take c.n).map (signedOf 8))).map
      (inputEdge (bitsAt c.aux 0 2) (bitsAt c.aux 2 3) (bitsAt c.aux 5 2 + 1)))
  let pass := fun (j : Nat) => rows.flatMap (fun r => r.flatMap (fun x => x.1.getD j []))
  { fmt := 0, elems := (pass 0 ++ pass 1).map (bitsOf 8), sats := (rows.map (fun r => (r.map Prod.snd).sum)).sum
    envelope := false, poison := a.2, index := [] }

/-! Execution. -/

/-- Table 3-8: the spire opcodes. -/
def spireOpcodes : List Nat := [0x10, 0x11, 0x12, 0x13, 0x14, 0x15]

/-- R82, R90: completes the command at the head of a spire's queue. -/
def State.spireFinish (s : State) (k : Nat) (m : Cmd) (w : Word) : State :=
  s.updCore k (fun v => { v with spireQ := v.spireQ.drop 1, spireDone := some (w, m) })

/-- R85, R90: completes it with `BAD_CMD`: a fault signature against the spire, and the step goes to fault report. -/
def State.spireFault (s : State) (k : Nat) (m : Cmd) (status : Nat) : State :=
  let w := plainWord status
  ((s.spireFinish k m w).updCore k (fun v => { v with commandFault := true })).faultCore k (packedCore k) 0x07 0 .spire
    (leBytes 4 w.toNat ++ leBytes 1 (natAt m.bytes 0 1))

/-- R409: the statistics of an output. -/
def SpireOut.stats (o : SpireOut) : DigestStats :=
  if o.fmt = 0 then intStats (o.elems.map (signedOf 8))
  else if o.fmt = 5 then intStats (o.elems.map (signedOf 32))
  else fltStats (o.elems.map (fmtValue o.fmt))

/-- R87, R88, R90: writes a spire operation's results, poisoned if an operand is, and completes. -/
def State.spireWrite (s : State) (k : Nat) (m : Cmd) (c : SpireCmd) (o : SpireOut) : State :=
  let bytes := o.elems.flatMap (fun w => leBytes (fmtSize o.fmt) w)
  let s1 := s.spWrite k c.c (bytes.map (fun b => (b, o.poison)))
  let s2 := if o.index.isEmpty then s1
    else s1.spWrite k c.auxAddr ((o.index.flatMap (fun i => leBytes 4 i)).map (fun b => (b, o.poison)))
  (s2.probeSpire k c.c o.elems.length bytes o.sats o.stats).spireFinish k m
    (completionWord csDone 0 o.sats false o.poison o.envelope false false)

/-- R90: one spire command at the head of the queue; rows as for `runEngine`. -/
def State.runSpire (s : State) (c : CoreRef) (op : Nat) (bad : SpireCmd → Bool)
    (run : State → Nat → SpireCmd → SpireOut) (reads : SpireCmd → List (Nat × Nat)) (macs : SpireCmd → Nat) : State :=
  let v := s.core c.key
  if c.ok ∧ !v.stopped ∧ !v.fenced ∧ v.spireDone.isNone then
    match v.spireQ.head? with
    | none => s
    | some m =>
      if m.poison then s.spireFault c.key m csPoisonIn
      else if !spireOpcodes.contains (natAt m.bytes 0 1) then s.spireFault c.key m csBadCmd
      else if natAt m.bytes 0 1 ≠ op then s
      else
        let d := SpireCmd.ofBytes m.bytes
        if bad d then s.spireFault c.key m csBadCmd
        else ((s.touchRanges c.key (reads d)).countPart (s.corePart c.key) pcSpireMacs (macs d)).spireWrite c.key m d
          (run s c.key d)
  else s

/-- Ranges read by the operations. -/
def gemmReads (c : SpireCmd) : List (Nat × Nat) :=
  [(c.a, c.m * c.k * fmtSize c.fmtA), (c.b, c.k * c.n * fmtSize c.fmtB)]
    ++ (if c.accum then [(c.c, c.m * c.n * fmtSize c.fmtC)] else [])
def vecReads (c : SpireCmd) : List (Nat × Nat) :=
  [(c.a, c.m * c.n * fmtSize c.fmtA)] ++ (if bitsAt c.aux 0 4 ≤ 2 then [(c.b, c.m * c.n * fmtSize c.fmtB)] else [])
    ++ (if c.auxAddr = 0 then [] else [(c.auxAddr, 4 * c.n)])
def normReads (c : SpireCmd) : List (Nat × Nat) := [(c.a, c.m * c.n * fmtSize c.fmtA), (c.auxAddr, 4 * c.n)]
def rowReads (aux : Nat) (c : SpireCmd) : List (Nat × Nat) :=
  [(c.a, c.m * c.n * fmtSize c.fmtA)] ++ (if c.auxAddr = 0 then [] else [(c.auxAddr, aux)])

/-- GEMM (R87, R91). -/
def execGemm (c : CoreRef) (s : State) : Out :=
  .next (s.runSpire c 0x10 gemmBad gemm gemmReads (fun d => d.m * d.n * d.k))

/-- VEC (R91). -/
def execVec (c : CoreRef) (s : State) : Out := .next (s.runSpire c 0x11 vecBad vecRun vecReads (fun _ => 0))

/-- NORM (R91). -/
def execNorm (c : CoreRef) (s : State) : Out :=
  .next (s.runSpire c 0x12 normBad normRun normReads (fun _ => 0))

/-- SOFTMAX (R91). -/
def execSoftmax (c : CoreRef) (s : State) : Out :=
  .next (s.runSpire c 0x13 softmaxBad softmaxRun (fun d => rowReads (4 * d.m * d.n) d) (fun _ => 0))

/-- TOPK (R91). -/
def execTopk (c : CoreRef) (s : State) : Out :=
  .next (s.runSpire c 0x14 topkBad topkRun (fun d => [(d.a, d.m * d.n * fmtSize d.fmtA)]) (fun _ => 0))

/-- NARROW (R72, R91). -/
def execNarrow (c : CoreRef) (s : State) : Out :=
  .next (s.runSpire c 0x15 narrowBad narrowRun (fun d => [(d.a, d.m * d.n)]) (fun _ => 0))

end Sys2Proof.Machine
end

