-- ==== Sys2Proof/Machine/StackMem.lean ====
section
/-! DEFINITION. The memory stacks: regions and addresses (R259 to R261), the lane code (R267, R268), poison (R272), remap
(R271), and the codeblock reads and writes that every unit uses. -/

namespace Sys2Proof.Machine

/-- R256: codeblocks of a stack, bytes of a codeblock, bytes with its check bytes; R261: codeblocks of an extent; R271: of a
granule. -/
def cbPerStack : Nat := 25165824
def cbBytes : Nat := 2048
def cbStored : Nat := 2080
def cbPerExtent : Nat := 32768
def cbPerGranule : Nat := 32

/-! GF(2^8) (R267). -/

/-- R267: times α modulo x^8 + x^4 + x^3 + x^2 + 1. -/
def gfDouble (a : Byte) : Byte := if a.getLsbD 7 then (a <<< 1) ^^^ 0x1D else a <<< 1

/-- Product, by the bits of the second factor from bit `n - 1` down. -/
def gfMulBits (a b : Byte) : Nat → Byte
  | 0 => 0
  | n + 1 => (if b.getLsbD (7 - n) then gfPow2 a (7 - n) else 0) ^^^ gfMulBits a b n
where
  gfPow2 (a : Byte) : Nat → Byte
    | 0 => a
    | i + 1 => gfDouble (gfPow2 a i)

def gfMul (a b : Byte) : Byte := gfMulBits a b 8

/-- Powers of α. -/
def gfAlpha : Nat → Byte
  | 0 => 1
  | n + 1 => gfDouble (gfAlpha n)

/-- The exponent of a field element, 0 to 254, none for 0. -/
def gfLog (a : Byte) : Option Nat := (List.range 255).find? (fun i => gfAlpha i = a)

/-- Quotient, 0 where the divisor is 0. -/
def gfDiv (a b : Byte) : Byte :=
  match gfLog a, gfLog b with
  | some i, some j => gfAlpha ((i + 255 - j) % 255)
  | _, _ => 0

/-! Lanes (R267, R268). A stored codeblock is its written bytes and an error pattern; the code is linear, so the decode of a
lane depends on its error pattern alone. -/

/-- R267: the lane positions of lane `l`, with the power of x of each: data position p is x^(129-p). -/
def lanePositions (l : Nat) : List (Nat × Nat) :=
  (List.range 128).map (fun p => (16 * p + l, 129 - p)) ++ [(2048 + 2 * l, 1), (2048 + 2 * l + 1, 0)]

/-- Whether a byte has an odd number of bits set. -/
def oddByte (b : Byte) : Bool := ((List.range 8).map (fun i => b.getLsbD i)).foldl (· ^^ ·) false

/-- A lane as read: (position, power, error byte, parity bit wrong for the written byte). -/
abbrev LaneErr := List (Nat × Nat × Byte × Bool)

/-- The syndromes of a lane's errors. -/
def laneS0 (l : LaneErr) : Byte := l.foldl (fun t e => t ^^^ e.2.2.1) 0
def laneS1 (l : LaneErr) : Byte := l.foldl (fun t e => t ^^^ gfMul e.2.2.1 (gfAlpha e.2.1)) 0

/-- The bytes of a lane whose parity fails: a stored byte of odd error whose parity bit is right, or the other way round. -/
def laneQ (l : LaneErr) : List (Nat × Nat) := (l.filter (fun e => oddByte e.2.2.1 ^^ e.2.2.2)).map (fun e => (e.1, e.2.1))

/-- Adds a correction to the byte at a power of x. -/
def laneFix (l : LaneErr) (pow : Nat) (v : Byte) : LaneErr :=
  l.map (fun e => if e.2.1 = pow then (e.1, e.2.1, e.2.2.1 ^^^ v, e.2.2.2) else e)

/-- What a lane's decode gives. -/
inductive LaneOut where
  | clean
  | parityOnly
  | corrected (l : LaneErr)
  | uncorrectable
deriving DecidableEq, Repr

/-- R268: a correction stands only if the lane then has zero syndromes and every parity bit checks. -/
def laneAccept (l : LaneErr) : LaneOut :=
  if laneS0 l = 0 ∧ laneS1 l = 0 ∧ laneQ l = [] then .corrected l else .uncorrectable

/-- R268, Table 9-5: the decode of a lane. -/
def laneDecode (l : LaneErr) : LaneOut :=
  let s0 := laneS0 l
  let s1 := laneS1 l
  let single := fun (only : Option Nat) =>
    match gfLog (gfDiv s1 s0) with
    | none => LaneOut.uncorrectable
    | some j =>
      if s0 = 0 ∨ 129 < j ∨ (only.isSome ∧ only ≠ some j) then .uncorrectable
      else laneAccept (laneFix l j s0)
  if s0 = 0 ∧ s1 = 0 then (if laneQ l = [] then .clean else .parityOnly)
  else match laneQ l with
    | [] => single none
    | [a] => single (some a.2)
    | [a, b] =>
      let xa := gfAlpha a.2
      let xb := gfAlpha b.2
      let eb := gfDiv (s1 ^^^ gfMul s0 xa) (xa ^^^ xb)
      laneAccept (laneFix (laneFix l a.2 (s0 ^^^ eb)) b.2 eb)
    | _ => .uncorrectable

/-! Codeblocks. -/

/-- R271: the codeblock that serves an addressed one: in a spare granule where an entry is in force. -/
def Stack.phys (t : Stack) (cb : Nat) : Nat :=
  match t.remap.find? (fun g => g.granule = cb / cbPerGranule) with
  | some g => cbPerStack + g.spare * cbPerGranule + cb % cbPerGranule
  | none => cb

/-- R271: the spare codeblocks that take a copy of the writes to one. -/
def Stack.copies (t : Stack) (cb : Nat) : List Nat :=
  ((t.copying ++ t.waiting).filter (fun g => g.granule = cb / cbPerGranule)).map (fun g =>
    cbPerStack + g.spare * cbPerGranule + cb % cbPerGranule)

/-- R267: the poison flag as read, by two of its three copies. -/
def Stack.flag (t : Stack) (pcb : Nat) : Bool :=
  let v := t.flags.find pcb 0
  (v.getLsbD 0 && v.getLsbD 1) || (v.getLsbD 0 && v.getLsbD 2) || (v.getLsbD 1 && v.getLsbD 2)

/-- Whether a stored codeblock has any error recorded. -/
def Stack.erroneous (t : Stack) (pcb : Nat) : Bool :=
  t.errs.entries.any (fun e => decide (e.1 / cbStored = pcb)) || t.parErr.any (fun e => decide (e / cbStored = pcb))

/-- The errors of a lane of a stored codeblock. -/
def Stack.laneErr (t : Stack) (pcb l : Nat) : LaneErr :=
  (lanePositions l).map (fun p => (p.1, p.2, t.errs.find (pcb * cbStored + p.1) 0, t.parErr.contains (pcb * cbStored + p.1)))

/-- A codeblock as read: the data, the poison mark, and what the decode did. -/
structure CbRead where
  data          : List Byte
  poison        : Bool
  flagged       : Bool := false
  parityOnly    : Bool := false
  strong        : Bool := false
  uncorrectable : Bool := false
  lanes         : List Nat := []
deriving DecidableEq, Repr

/-- R257, R277: whether accesses to a stack are void: it is lost, its active attach field is fenced, or its failover is not complete. -/
def Stack.void (t : Stack) : Bool := decide (t.link = .lost) || t.cut || t.switchAt.isSome

/-- R267, R268, R276: reads codeblock `cb` of stack `k`. -/
def Stack.read (t : Stack) (k cb : Nat) : CbRead :=
  let p := t.phys cb
  if t.void then
    { data := (List.range cbBytes).map (fun i => Config.unfilledStackByte k (cb * cbBytes + i)), poison := true }
  else if !t.filled && !t.writtenCb.contains cb then
    { data := (List.range cbBytes).map (fun i => Config.unfilledStackByte k (cb * cbBytes + i)),
      poison := Config.unfilledStackPoison k cb, strong := Config.unfilledStackStrong k cb
      uncorrectable := Config.unfilledStackPoison k cb && Config.unfilledStackStrong k cb }
  else if t.flag p then { data := t.mem.readAll (p * cbBytes) cbBytes, poison := true, flagged := true }
  else if !t.erroneous p then { data := t.mem.readAll (p * cbBytes) cbBytes, poison := false }
  else
    let outs := (List.range 16).map (fun l => (l, t.laneErr p l, laneDecode (t.laneErr p l)))
    let unc := outs.any (fun o => o.2.2 = .uncorrectable)
    let residue := fun (i : Nat) => match outs.find? (fun o => o.1 = i % 16) with
      | some o => match o.2.2 with
        | .corrected l => ((l.find? (fun e => e.1 = i)).map (fun e => e.2.2.1)).getD 0
        | _ => ((o.2.1.find? (fun e => e.1 = i)).map (fun e => e.2.2.1)).getD 0
      | none => 0
    { data := (List.range cbBytes).map (fun i => t.mem.read (p * cbBytes + i) ^^^ residue i)
      poison := unc
      parityOnly := outs.any (fun o => o.2.2 = .parityOnly)
      strong := outs.any (fun o => !decide (o.2.2 = .clean ∨ o.2.2 = .parityOnly))
      uncorrectable := unc
      lanes := outs.filterMap (fun o => match o.2.2 with | .corrected _ => some o.1 | _ => none) }

/-- Stores a whole codeblock at a storage place: clean check bytes and parity, and the poison flag. -/
def Stack.storeCb (t : Stack) (pcb : Nat) (data : List Byte) (poison : Bool) : Stack :=
  { t with
    mem := t.mem.writeAll (pcb * cbBytes) (bytesAt data 0 cbBytes)
    errs := t.errs.keep (fun a _ => decide (a / cbStored ≠ pcb))
    parErr := t.parErr.filter (fun a => a / cbStored ≠ pcb)
    flags := if poison then t.flags.put pcb 7 else t.flags.erase pcb }

/-- R264, R271, R272: writes codeblock `cb` whole, and its copy while its granule is being remapped; a void write is not
performed. -/
def Stack.write (t : Stack) (cb : Nat) (data : List Byte) (poison : Bool) : Stack :=
  if t.void then t
  else
    let u := (t.copies cb).foldl (fun u p => u.storeCb p data poison) (t.storeCb (t.phys cb) data poison)
    { u with
      writtenCb := if t.filled then t.writtenCb else insertNat cb t.writtenCb
      rewrote := t.rewrote.filter (fun r => r.1 ≠ cb) }

/-- R271: a hard-failed granule takes a spare granule and its copy begins; with all entries in use it stays in service. -/
def State.allocGranule (s : State) (k g : Nat) : State :=
  let t := s.stack k
  let used := t.remap ++ t.copying ++ t.waiting
  if used.any (fun e => e.granule = g) ∨ t.hard.contains g then s
  else match (List.range 64).find? (fun i => !used.any (fun e => e.spare = i)) with
    | some i => s.updStack k (fun t => { t with copying := t.copying ++ [{ granule := g, spare := i }] })
    | none => (s.updStack k (fun t => { t with hard := insertNat g t.hard })).event evStackRemapFull k none g

/-- R269: what a boundary hold with a correction overrun in its window delays carries that cause (log 148). -/
def State.blameOverrun (s : State) : State :=
  if s.plan.holdFrom.isNone then s
  else { s with reqs := s.reqs.mapVals (fun _ r => if r.lateCause = 0x01 then { r with lateCause := 0x06 } else r) }

/-- R269: whether some stack had more strong decodes this window than R191 covers. -/
def State.overran (s : State) : Bool := (List.range stackCount).any (fun k => decide (3 ≤ (s.stack k).strong))

/-- R269: a strong decode: the third and later of a window raise `DECODE_OVERRUN`. -/
def State.strongDecode (s : State) (k : Nat) : State :=
  let n := (s.stack k).strong
  let s1 := (s.updStack k (fun t => { t with strong := n + 1 })).countStack k scStrong 1
  if 2 ≤ n then ((s1.countStack k scOverrun 1).event evDecodeOverrun k).blameOverrun else s1

/-- R268 to R271: what the decode of a codeblock leaves behind: counters, the rewrite after a strong correction, and the
granule it marks hard-failed. -/
def State.cbChecked (s : State) (k cb : Nat) (r : CbRead) : State :=
  let s2 := if r.parityOnly then s.countStack k scParityOnly 1 else s
  let s3 := if r.strong then s2.strongDecode k else s2
  let s4 := if r.uncorrectable then
      ((s3.countStack k scUncorrectable 1).event evStackPoison k none cb).allocGranule k (cb / cbPerGranule)
    else s3
  let again := r.lanes.any (fun l => (s.stack k).rewrote.contains (cb, l))
  let s6 := if again then s4.allocGranule k (cb / cbPerGranule) else s4
  if r.strong ∧ !r.uncorrectable then
    s6.updStack k (fun t => { t.storeCb (t.phys cb) r.data false with
      writtenCb := if t.filled then t.writtenCb else insertNat cb t.writtenCb
      rewrote := t.rewrote.filter (fun x => x.1 ≠ cb) ++ r.lanes.map (fun l => (cb, l)) })
  else if (s.stack k).rewrote.any (fun x => x.1 = cb) then
    s6.updStack k (fun t => { t with rewrote := t.rewrote.filter (fun x => x.1 ≠ cb) })
  else s6

/-- R268 to R272: what a read of a codeblock for partition `p` leaves behind. -/
def State.cbTouched (s : State) (k cb p : Nat) (r : CbRead) : State :=
  let s1 := s.countStack k scReadCb 1
  let s2 := if r.poison then (s1.countStack k scPoisonDelivered 1).countPart p pcPoisonDelivered 1 else s1
  s2.cbChecked k cb r

/-- R257, R272: writes a codeblock for partition `p`, counting poison set and cleared; a void write is counted and not performed
(log 149). -/
def State.cbWrite (s : State) (k cb p : Nat) (data : List Byte) (poison : Bool) : State :=
  let was := (s.stack k).flag ((s.stack k).phys cb)
  if (s.stack k).void then s.updStack k (fun t => { t with voidWrites := t.voidWrites + 1 })
  else
    let s1 := (s.updStack k (fun t => t.write cb data poison)).countStack k scWriteCb 1
    if poison then (s1.countStack k scPoisonSet 1).countPart p pcPoisonSet 1
    else if was then (s1.countStack k scPoisonCleared 1).countPart p pcPoisonCleared 1 else s1

/-! Regions (R259 to R261). -/

/-- R260: the region that a selector names for a partition and an edition. -/
def State.regionOf (s : State) (p sel ed : Nat) : Option Region :=
  if sel = 3 ∨ sel = 4 then
    (if (s.edition ed).partition = p ∧ (s.edition ed).state ≠ .free then (s.edition ed).regions.find? sel else none)
  else (s.part p).regions.find? sel

/-- R259: selector and offset of a stack address. -/
def stackSel (a : Nat) : Nat := bitsAt a 44 4
def stackOff (a : Nat) : Nat := bitsAt a 0 44

/-- R261: the stack and codeblock that hold codeblock `c` of a region. -/
def Region.place (r : Region) (c : Nat) : Option (Nat × Nat) :=
  let k := r.stackSet.length
  if k = 0 then none
  else match r.stackSet[c % k]?, r.extents[c % k]? with
    | some st, some ex => (ex[c / k / cbPerExtent]?).map (fun x => (st, x * cbPerExtent + c / k % cbPerExtent))
    | _, _ => none

/-- R259: the region behind a stack address whose `n` bytes from its offset on lie within it. -/
def State.resolve (s : State) (p ed addr n : Nat) : Option Region :=
  match s.regionOf p (stackSel addr) ed with
  | some r => if !r.void ∧ stackOff addr + n ≤ r.size then some r else none
  | none => none

/-- The codeblocks (index in the region) that `n` bytes from offset `o` on touch. -/
def cbSpan (o n : Nat) : List Nat :=
  if n = 0 then [] else (List.range ((o + n - 1) / cbBytes - o / cbBytes + 1)).map (fun i => o / cbBytes + i)

/-- Reads codeblock `c` of a region. -/
def State.readRegionCb (s : State) (r : Region) (c : Nat) : CbRead :=
  match r.place c with
  | some (k, cb) => (s.stack k).read k cb
  | none => { data := List.replicate cbBytes 0, poison := true }

/-- R264: the `n` bytes from offset `o` of a region on, with the poison of their codeblocks. -/
def State.regionBytes (s : State) (r : Region) (o n : Nat) : List (Byte × Bool) :=
  let blocks := (cbSpan o n).flatMap (fun c =>
    let b := s.readRegionCb r c
    (bytesAt b.data 0 cbBytes).map (fun x => (x, b.poison)))
  (blocks.drop (o % cbBytes)).take n

/-- What that read leaves behind. -/
def State.regionTouched (s : State) (r : Region) (o n p : Nat) : State :=
  (cbSpan o n).foldl (fun (t : State) c => match r.place c with
    | some (k, cb) => t.cbTouched k cb p (t.readRegionCb r c)
    | none => t) s

/-- R264: writes whole codeblocks of a region from an aligned offset on; a codeblock with a poisoned byte takes the poison
flag (R272). -/
def State.regionWrite (s : State) (r : Region) (o : Nat) (bytes : List (Byte × Bool)) (p : Nat) : State :=
  (List.range (bytes.length / cbBytes)).foldl (fun (t : State) i =>
    let part := (bytes.drop (cbBytes * i)).take cbBytes
    match r.place (o / cbBytes + i) with
    | some (k, cb) => t.cbWrite k cb p (part.map Prod.fst) (spPoison part)
    | none => t) s

/-! Table 9-1. -/

/-- R256: home and alternate attach fields of a stack. -/
def stackHomes : List Nat :=
  [2, 3, 6, 7, 18, 28, 39, 49, 59, 69, 78, 88, 97, 96, 93, 92, 81, 71, 60, 50, 40, 30, 21, 11]
def stackHome (k : Nat) : Nat := stackHomes.getD k 0
def stackAlternate (k : Nat) : Nat := stackHomes.getD ((k + 1) % 24) 0

/-! On-die transport (R274); which bytes and messages fail a check comes with the command (log 159). -/

/-- R257: the active attach field of a stack, none when it is lost. -/
def State.attachField (s : State) (k : Nat) : Option Nat :=
  match (s.stack k).link with
  | .home => some (stackHome k)
  | .alternate => some (stackAlternate k)
  | .lost => none

/-- The two stations of hop `h` of a route: where the bytes come from and where they are checked; hop 0 is the sender's own station. -/
def hopAt (route : List Nat) (h : Nat) : Nat × Nat :=
  let l := route.foldl (fun l f => if l.contains f then l else l ++ [f]) []
  (l.getD (Nat.min (h - 1) (l.length - 1)) 0, l.getD (Nat.min h (l.length - 1)) 0)

/-- R274: the bytes of a transfer as they are delivered: those that fail a station's check poisoned. -/
def flipped (flips : List (Nat × Nat)) (bytes : List (Byte × Bool)) : List (Byte × Bool) :=
  if flips.isEmpty then bytes
  else ((List.range bytes.length).zip bytes).map (fun x => (x.2.1, x.2.2 || flips.any (fun y => decide (y.1 = x.1))))

/-- R274: what failed checks of a transfer of `n` bytes leave: counts against the link, and for each link `TRANSPORT_PARITY` and a fault
signature that names its two stations. -/
def State.parityFaults (s : State) (route : Nat → List Nat) (n : Nat) (flips : List (Nat × Nat)) : State :=
  let links := (flips.filter (fun x => x.1 < n)).map (fun x => hopAt (route x.1) x.2)
  (links.foldl (fun l x => if l.contains x then l else l ++ [x]) []).foldl (fun (t : State) x =>
    ((t.countField x.2 fcTransportParity (links.filter (fun y => y = x)).length).event evTransportParity (x.2 * 2 ^ 15)).faultField x.2
      0x0B 0 .station (leBytes 1 x.1 ++ leBytes 1 x.2)) s

/-- R274: the retries of a control-class packet from a field to the gate field, counted at the stations that found it bad. -/
def State.ctlRetries (s : State) (f : Nat) (hops : List Nat) : State :=
  hops.foldl (fun (t : State) h => t.countField (hopAt (s.route f gateField) h).2 fcCtlRetries 1) s

/-- R274: the way of byte `i` of a transfer between a core and a region, from the core's station or to it. -/
def State.stackRoute (s : State) (k : Nat) (r : Region) (o i : Nat) (out : Bool) : List Nat :=
  let f := k / coresPerField
  let g := ((r.place ((o + i) / cbBytes)).bind (fun x => s.attachField x.1)).getD f
  if out then s.route f g else s.route g f

end Sys2Proof.Machine
end

