-- ==== Sys2Proof/Machine/Dma.lean ====
section
/-! DEFINITION. The DMA/fill unit (R97, R114) and the completion queue of a core (R111, R115). -/

namespace Sys2Proof.Machine

/-- Table 4-4: a DMA/fill command. -/
structure DmaCmd where
  unpack  : Bool
  length  : Nat
  src     : Nat
  dst     : Nat
  pattern : Nat
deriving DecidableEq, Repr

/-- Table 4-4: reads a command. -/
def DmaCmd.ofBytes (l : List Byte) : DmaCmd :=
  { unpack := bitAt (natAt l 1 1) 1, length := natAt l 4 4, src := natAt l 8 8, dst := natAt l 16 8,
    pattern := natAt l 24 4 }

/-- Table 4-4: a scratchpad address in [22:0]. -/
def spAddr (a : Nat) : Nat := bitsAt a 0 23

/-- R114: completes the command at the head of a DMA/fill queue. -/
def State.dmaFinish (s : State) (k : Nat) (m : Cmd) (status : Nat) (poison : Bool) : State :=
  s.updCore k (fun v => { v with
    dmaQ := v.dmaQ.drop 1, dmaDone := some (completionWord status 0 0 false poison false false false, m) })

/-- Table 4-4: the DMA/fill opcodes. -/
def dmaOpcodes : List Nat := [0x20, 0x21, 0x22, 0x23]

/-- R114: the command at the head of the DMA/fill queue; rows as for `runEngine`. -/
def State.runDma (s : State) (c : CoreRef) (op : Nat) (act : Cmd → DmaCmd → State) : State :=
  let v := s.core c.key
  if c.ok ∧ !v.stopped ∧ !v.fenced ∧ v.dmaDone.isNone then
    match v.dmaQ.head? with
    | none => s
    | some m =>
      if !dmaOpcodes.contains (natAt m.bytes 0 1) then s.dmaFinish c.key m csBadCmd false
      else if natAt m.bytes 0 1 ≠ op then s
      else act m (DmaCmd.ofBytes m.bytes)
  else s

/-- R97, Table 4-5: a transfer into the scratchpad: out of range it completes with `BAD_CMD`; into guarded bytes it does too,
and the issuing core raises `WRITE_GUARD`. -/
def State.dmaWrite (s : State) (k : Nat) (m : Cmd) (dst : Nat) (bytes : List (Byte × Bool)) : State :=
  if spBytes < dst + bytes.length then s.dmaFinish k m csBadCmd false
  else if (s.core k).guarded dst bytes.length then (s.dmaFinish k m csBadCmd false).coreFault k fcWriteGuard
  else (s.spWrite k dst bytes).dmaFinish k m csDone (spPoison bytes)

/-- R97: a 32-bit pattern repeated over `n` bytes, from its first byte. -/
def patternBytes (pattern n : Nat) : List Byte :=
  let p := leBytes 4 pattern
  (List.range n).map (fun i => p.getD (i % 4) 0)

/-- FILL (R97). -/
def execFill (c : CoreRef) (s : State) : Out :=
  .next (s.runDma c 0x20 (fun m d => s.dmaWrite c.key m (spAddr d.dst) (cleanBytes (patternBytes d.pattern d.length))))

/-- COPY (R97): overlapping ranges as through a temporary buffer. -/
def execCopy (c : CoreRef) (s : State) : Out :=
  .next (s.runDma c 0x21 (fun m d =>
    if spBytes < spAddr d.src + d.length then s.dmaFinish c.key m csBadCmd false
    else (s.spTouched c.key (spAddr d.src) d.length).dmaWrite c.key m (spAddr d.dst) (s.spRead c.key (spAddr d.src) d.length)))

/-- R97: packed 4-bit two's-complement values to INT8, low nibble first; a poisoned byte gives two poisoned values. -/
def unpackNibbles (l : List (Byte × Bool)) : List (Byte × Bool) :=
  l.flatMap (fun b => [((b.1.extractLsb' 0 4).signExtend 8, b.2), ((b.1.extractLsb' 4 4).signExtend 8, b.2)])

/-- R259, R261: the region behind a command's stack address; one made in this window is not yet usable. -/
def State.coreRegion (s : State) (k addr n : Nat) : Option Region :=
  match s.resolve (s.corePart k) (s.core k).edition addr n with
  | some r => if r.madeIn < s.plan.window then some r else none
  | none => none

/-- LOAD (R97, R264, R274): stack to scratchpad. -/
def execLoadOp (c : StackCopy) (s : State) : Out :=
  .next (s.runDma c.core 0x22 (fun m d =>
    match s.coreRegion c.core.key d.src d.length with
    | none => s.dmaFinish c.core.key m csBadCmd false
    | some r =>
      let b := flipped c.flips (s.regionBytes r (stackOff d.src) d.length)
      let bytes := if d.unpack then unpackNibbles b else b
      if spBytes < spAddr d.dst + bytes.length ∨ (s.core c.core.key).guarded (spAddr d.dst) bytes.length then
        s.dmaWrite c.core.key m (spAddr d.dst) bytes
      else
        (((s.regionTouched r (stackOff d.src) d.length (s.corePart c.core.key)).countPart (s.corePart c.core.key) pcStackRd
          d.length).parityFaults (fun i => s.stackRoute c.core.key r (stackOff d.src) i false) d.length c.flips).dmaWrite c.core.key m
            (spAddr d.dst) bytes))

/-- STORE (R97, R264, R272, R274): scratchpad to stack in whole codeblocks; a copy-B core's is acknowledged and not performed
(R389). -/
def execStoreOp (c : StackCopy) (s : State) : Out :=
  .next (s.runDma c.core 0x23 (fun m d =>
    match s.coreRegion c.core.key d.dst d.length with
    | none => s.dmaFinish c.core.key m csBadCmd false
    | some r =>
      if d.length % cbBytes ≠ 0 ∨ stackOff d.dst % cbBytes ≠ 0 ∨ spBytes < spAddr d.src + d.length then
        s.dmaFinish c.core.key m csBadCmd false
      else
        let b := s.spRead c.core.key (spAddr d.src) d.length
        let s1 := s.spTouched c.core.key (spAddr d.src) d.length
        let s2 := if s.isCopyB c.core.key then s1
          else ((s1.regionWrite r (stackOff d.dst) (flipped c.flips b) (s.corePart c.core.key)).countPart (s.corePart c.core.key) pcStackWr
            d.length).parityFaults (fun i => s.stackRoute c.core.key r (stackOff d.dst) i true) d.length c.flips
        s2.dmaFinish c.core.key m csDone (spPoison b)))

/-! Completions. -/

/-- R115: the source word of a completion. -/
def sourceWord (m : Cmd) : Word := BitVec.ofNat 32 (m.unit + m.seq.getD 0 * 2 ^ 16)

/-- R111, R115: a completion enters the core's queue; a core that waits for it goes on. -/
def State.complete (s : State) (k : Nat) (w : Word) (m : Cmd) : State :=
  (s.updCore k (fun v => { v with cpl := v.cpl ++ [(w, sourceWord m)] })).wakeCore k

/-- SPIRE_COMPLETION (R90, R111): the spire's completion enters the completion queue. -/
def execSpireCompletion (c : CoreRef) (s : State) : Out :=
  .next (match (s.core c.key).spireDone with
    | some (w, m) => if c.ok then (s.updCore c.key (fun v => { v with spireDone := none })).complete c.key w m else s
    | none => s)

/-- DMA_COMPLETION (R111, R114): the DMA/fill unit's completion enters the completion queue. -/
def execDmaCompletion (c : CoreRef) (s : State) : Out :=
  .next (match (s.core c.key).dmaDone with
    | some (w, m) => if c.ok then (s.updCore c.key (fun v => { v with dmaDone := none })).complete c.key w m else s
    | none => s)

end Sys2Proof.Machine
end

