-- ==== Sys2Proof/Machine/Sign.lean ====
section
/-! DEFINITION. Signed objects: the signature block (R355, R356), the module's own signatures, and the factory region (R359). -/

namespace Sys2Proof.Machine

/-- R355: bytes of a signature block. -/
def sigBytes : Nat := 17104

/-- R346: the digest of a key pair. -/
def keyDigest (rsa slh : List Byte) : Nat := Config.sha384 (rsa ++ slh)

/-- R356: whether the block at offset `o` of an object verifies for a role and its anchor. -/
def sigOk (b : List Byte) (o role anchor : Nat) : Bool :=
  let k := b.drop o
  let m := leBytes 48 (Config.sha384 (b.take o)) ++ k.take 496
  decide (sigBytes ≤ k.length) && decide (natAt k 0 4 = 0x4753564B) && decide (natAt k 4 2 = 1)
    && decide (natAt k 6 1 = role) && decide (natAt k 8 8 = o)
    && decide (natAt k 16 48 = keyDigest (bytesAt k 64 384) (bytesAt k 448 48))
    && decide (anchor ≠ 0) && decide (natAt k 16 48 = anchor)
    && Config.rsaVerifies (bytesAt k 64 384) (bytesAt k 496 384) m
    && Config.slhVerifies (bytesAt k 448 48) (bytesAt k 880 16224) m

/-- R355: `n` bytes of a field, zeros after what it holds. -/
def padTo (n : Nat) (b : List Byte) : List Byte := bytesAt (b ++ List.replicate n 0) 0 n

/-- R355, Table 12-5: bytes 0 to 495 of the block of a role over an object, with the public keys. -/
def blockHead (role : Nat) (rsa slh b : List Byte) : List Byte :=
  leBytes 4 0x4753564B ++ leBytes 2 1 ++ leBytes 1 role ++ leBytes 1 0 ++ leBytes 8 b.length ++ leBytes 48 (keyDigest rsa slh)
    ++ padTo 384 rsa ++ padTo 48 slh

/-- R355: a block signed as role 1 over an object. -/
def identityBlock (b : List Byte) : List Byte :=
  let head := blockHead 1 Config.identityRsaPub Config.identitySlhPub b
  let m := leBytes 48 (Config.sha384 b) ++ head
  head ++ padTo 384 (Config.identityRsaSign m) ++ padTo 16224 (Config.identitySlhSign m)

/-- R359: the object of the factory region that Koravo signs as role 0: the serial number and the public parts. -/
def factoryObject : List Byte :=
  leBytes 16 Config.serial.toNat ++ padTo 384 Config.identityRsaPub ++ padTo 48 Config.identitySlhPub

/-- R359: the object with its block. -/
def factorySigned : List Byte :=
  factoryObject ++ blockHead 0 Config.role0Rsa Config.role0Slh factoryObject ++ padTo 384 Config.koravoRsaSig
    ++ padTo 16224 Config.koravoSlhSig

/-- R357, R359: whether the factory region verifies as role 0. -/
def factoryOk : Bool := sigOk factorySigned factoryObject.length 0 Config.role0Anchor

/-- R176, R359: the factory region: private parts, ledger secret, the signed object, the initial repair map, in the order in which
R359 and Table 6-6 name them (log 141). -/
def factoryRegion : List Byte := Config.identityPrivate ++ padTo 48 Config.ledgerSecret ++ factorySigned ++ Config.factoryRepairs

end Sys2Proof.Machine
end

