-- ==== Sys2Proof/Machine/Ledger.lean ====
section
/-! DEFINITION. The ledger (R176 to R180): changes waiting for their commit, what a commit brings into effect, snapshots and
lost copies. -/

namespace Sys2Proof.Machine

/-- R159, R160: an array's wear count goes up by one. -/
def State.wearUp (s : State) (k e a : Nat) : State :=
  let w := (s.array k e a).wear + 1
  let s1 := s.updArray k e a (fun v => { v with wear := w })
  if w = 95000 then s1.event evWearNear (packedArray k e a) else s1

/-- R159, R160: a wear raise of a job takes effect. -/
def State.wearRaised (s : State) (k e a job : Nat) (second : Bool) : State :=
  (s.wearUp k e a).updArray k e a (fun v =>
    if second then { v with jobTwice := true }
    else { v with job := job, jobTwice := false, jobRows := [], reprog := [], verified := [] })

/-- R178: a committed change takes effect; engine map and relocation changes then wait for the release, a column map goes to
the array's shadow copy, where `LOAD_TRIM` has not put it there already, and a remap entry is in force from the release on. -/
def State.applyChange (s : State) (c : JournalChange) : State :=
  let k := arrayKeyCore c.key
  let e := arrayKeyEngine c.key
  let a := arrayKeyArray c.key
  if c.kind = jkArray then
    if c.what = jwRaise then s.wearRaised k e a c.val false
    else if c.what = jwRaise2 then s.wearRaised k e a c.val true
    else if c.what = jwState then
      let s1 := s.updArray k e a (fun v => { v with state := c.val })
      if c.val = 2 then s1.event evWearOut (packedArray k e a) else s1
    else if c.what = jwCycle then s.wearUp k e a
    else if c.what = jwMap then
      let m := c.vals.map (fun x => BitVec.ofNat 16 x)
      s.updArray k e a (fun v =>
        { (if c.val = 1 then v else v.shadowed ((v.shadow.map Prod.fst).getD v.trim) m) with mapLedger := m })
    else if c.what = jwTrim then s.updArray k e a (fun v => { v with trimKept := (v.sampled, v.tTrim, v.birth, v.tBirth) })
    else if c.what = jwStamp then
      s.updArray k e a (fun v => { v with stamp := c.val, refOpen := false, refDue := false, overdueAt := none })
    else s
  else if c.kind = jkCore then
    if c.what = jwEmap then { s with ledger := { s.ledger with emapNext := s.ledger.emapNext ++ [(c.key, c.vals)] } }
    else if c.what = jwCoreState then s.updCore c.key (fun v => { v with failed := decide (c.val ≠ 0) })
    else s
  else if c.kind = jkField then
    let s1 := s.updField c.key (fun v => { v with ageKept := v.ageAcc })
    if c.what = jwIsolated then s1.updField c.key (fun v => { v with role := .isolated, isolations := c.val })
    else if c.what = jwSensor then s1.updField c.key (fun v => { v with
      marked := if c.vals = [1] then v.marked ||| BitVec.twoPow 8 c.val else v.marked &&& ~~~ BitVec.twoPow 8 c.val })
    else s1
  else if c.kind = jkRelocation then
    { s with ledger := { s.ledger with relocNext := s.ledger.relocNext ++ [(c.key, c.val)] } }
  else if c.kind = jkStuck then
    { s with ledger := { s.ledger with
        stuckCount := s.ledger.stuckCount + 1
        stuckList := s.ledger.stuckList ++ [(c.key, c.vals.getD 0 0, c.vals.getD 1 0)] } }
  else s

/-- The wall time now, where a session has supplied it (R163). -/
def State.wallNow (s : State) : Option U64 := s.alaok.wall.map (fun w => w + s.clock.tb)

/-! The records of the ledger (Tables 6-6 to 6-8). -/

/-- Table 6-7: the code of a field's role. -/
def FieldRole.code : FieldRole → Nat
  | .absent => 0 | .service => 1 | .roundhouse => 2 | .isolated => 3 | .failed => 4 | .ledgerOnly => 5

/-- Table 6-7: the `state` of a field record; a recorded field whose role no service set has chosen yet is in reserve (log 183). -/
def Field.stateCode (v : Field) : Nat := if v.role = .absent ∧ v.unrecorded = false then 2 else v.role.code

/-- Table 6-7: the 64 bytes of a field record. -/
def Field.record (v : Field) : List Byte :=
  leBytes 8 v.ageAcc ++ leBytes 8 v.poweredS ++ leBytes 1 v.stateCode
    ++ leBytes 1 v.marked.toNat ++ leBytes 2 v.isolations
    ++ leBytes 1 v.ledgerCopy ++ leBytes 43 0

/-- Table 6-7: the `colmap` of an array record: 0x7FF where an entry is not valid. -/
def packedMap (m : List (BitVec 16)) : Nat :=
  ((List.range 8).map (fun i => (match m[i]? with
    | some e => if e.getLsbD 15 then (e.extractLsb' 0 11).toNat else 0x7FF
    | none => 0x7FF) * 2 ^ (11 * i))).sum

/-- Table 6-7: the 32 bytes of an array record; `own` says that the array is the ledger's. -/
def Array.record (a : Array) (own : Bool) : List Byte :=
  leBytes 3 a.wear ++ leBytes 1 ((if own then 3 else a.state) + 4 * a.refOpen.toNat + 8 * a.refDue.toNat + 16 * a.trimLimit.toNat)
    ++ leBytes 4 a.stamp ++ leBytes 4 a.birth.toNat ++ leBytes 4 a.sampled.toNat ++ leBytes 1 (bitsOf 8 a.tBirth)
    ++ leBytes 1 (bitsOf 8 a.tTrim) ++ leBytes 11 (packedMap a.mapLedger) ++ leBytes 3 0

/-- Table 6-6: the 96 bytes of a core record; the spec numbers no state of a core but "failed" (log 141). -/
def Core.record (c : Core) : List Byte :=
  (List.range 16).flatMap (fun i => leBytes 1 (c.emap.getD i 0))
    ++ (List.range 16).flatMap (fun i => leBytes 4 (match c.sp.remap[i]? with
      | some r => r.line + r.spare * 2 ^ 15 + 2 ^ 31
      | none => 0))
    ++ leBytes 4 c.failed.toNat ++ leBytes 12 0

/-- R178: a core with what the ledger holds of it: an engine map and row remap entries that wait for the release included. -/
def State.coreHeld (s : State) (k : Nat) : Core :=
  let c := s.core k
  { c with
    emap := (s.ledger.emapNext.reverse.find? (fun x => x.1 = k)).elim c.emap Prod.snd
    sp := if s.ledger.waits jkCore k jwRemap then c.sp else { c.sp with remap := c.sp.remap ++ c.sp.waiting } }

/-- Table 6-6: entries of the relocation map and of the stuck list. -/
def relocRecord (place k : Nat) : List Byte := leBytes 4 (packedCore place) ++ leBytes 4 (packedCore k)
def stuckRecord (key row col : Nat) : List Byte :=
  leBytes 4 (packedArray (arrayKeyCore key) (arrayKeyEngine key) (arrayKeyArray key)) ++ leBytes 2 row ++ leBytes 2 col

/-- R176: whether a core holds a ledger copy. -/
def State.ledgerCore (s : State) (k : Nat) : Bool :=
  decide ((s.field (k / coresPerField)).ledgerCopy ≠ 0) && decide (66 ≤ k % coresPerField)

/-- Table 6-6: the index of an array's record, from its core, engine and array. -/
def State.arrayIndex (k e a : Nat) : Nat :=
  let rank := (allFields.takeWhile (fun f => decide (f ≠ k / coresPerField))).length
  ((rank * coresPerField + k % coresPerField) * enginesPerCore + e) * arraysPerEngine + a

/-- Table 6-6: the bytes of a header of a snapshot sequence, as far as the spec lays them out (log 141): magic, format 1, snapshot
sequence, last journal sequence, wall time, timebase, power cycles, powered seconds. -/
def State.ledgerHeader (s : State) (snap : Nat) : List Byte :=
  let l := s.ledger
  leBytes 4 0x474C564B ++ Config.layout 0 [1, snap, Nat.max l.seqA l.seqB, (s.wallNow.getD l.wallCommit).toNat, s.now, l.powerCycles,
    l.poweredS]

/-- R176, Table 6-6: the contents of a slot: header, factory, fields, cores, relocation, stuck cells and arrays. -/
def State.slotBody (s : State) : List (Nat × List Byte) :=
  [(0, s.ledgerHeader (s.ledger.snapSeq + 1)), (0x1000, factoryRegion)]
    ++ (List.range 100).map (fun f => (0x11000 + 64 * f, (if fieldExists f then s.field f else { unrecorded := true }).record))
    ++ s.cores.entries.map (fun c => (0x13000 + 96 * c.1, (s.coreHeld c.1).record))
    ++ ((List.range s.ledger.relocation.entries.length).zip s.ledger.relocation.entries).map (fun r =>
      (0xB3000 + 8 * r.1, relocRecord r.2.1 r.2.2))
    ++ ((List.range s.ledger.stuckList.length).zip s.ledger.stuckList).map (fun x =>
      (0xBD000 + 8 * x.1, stuckRecord x.2.1 x.2.2.1 x.2.2.2))
    ++ s.cores.entries.flatMap (fun c => c.2.engines.entries.flatMap (fun e => e.2.arrays.entries.map (fun a =>
      (0x4BD000 + 32 * State.arrayIndex c.1 e.1 a.1, a.2.record (s.ledgerCore c.1)))))

/-- Table 6-6: the bytes that a slot's signatures cover. -/
def slotBytes (body : List (Nat × List Byte)) : List Byte :=
  (List.range 0x1DD7000).map (fun i => match body.find? (fun r => decide (r.1 ≤ i) && decide (i < r.1 + r.2.length)) with
    | some r => r.2.getD (i - r.1) 0
    | none => 0)

/-- R348: the owner area that the next snapshot holds, (digest, sequence, `min_svn`): with the changes that wait. -/
def Ledger.ownerDue (l : Ledger) : Nat × Nat × Nat :=
  let raise := (l.fwNext.map (fun x => x.2.1 && decide (l.minSvn < x.1.svn))).getD false
  (l.ownerNext.elim l.owner (fun x => x.1), l.ownerSeq + l.ownerNext.isSome.toNat + raise.toNat,
    if raise then (l.fwNext.map (fun x => x.1.svn)).getD 0 else l.minSvn)

/-- R348: bytes 0 to 127 of an owner area. -/
def ownerArea (x : Nat × Nat × Nat) : List Byte :=
  leBytes 4 0x524F564B ++ leBytes 2 1 ++ leBytes 2 0 ++ leBytes 8 x.2.1 ++ leBytes 48 x.1 ++ leBytes 4 x.2.2 ++ leBytes 60 0

/-- R179, R348, R355: a slot and its owner area are signed with both of the module's identity keys. -/
def LedgerSlot.signed (x : LedgerSlot) : LedgerSlot :=
  { x with signatures := identityBlock (slotBytes x.body), owner := x.owner ++ identityBlock x.owner, made := false }

/-- R180, R356: whether a slot's signatures verify. -/
def LedgerSlot.stands (x : LedgerSlot) : Bool :=
  x.made || sigOk (slotBytes x.body ++ x.signatures) 0x1DD7000 1 Config.identityDigest

/-- R348: a slot's owner area, (digest, sequence, `min_svn`), where it verifies; a module leaves the factory unclaimed. -/
def LedgerSlot.ownerRead (x : LedgerSlot) : Option (Nat × Nat × Nat) :=
  if x.made then some (0, 0, 0)
  else if natAt x.owner 0 4 = 0x524F564B ∧ natAt x.owner 4 2 = 1 ∧ sigOk x.owner 128 1 Config.identityDigest then
    some (natAt x.owner 16 48, natAt x.owner 8 8, natAt x.owner 64 4)
  else none

/-- R356, R357: whether a stored image's block verifies. -/
def FwImage.stands (i : FwImage) : Bool := i.made || sigOk i.bytes (64 + natAt i.bytes 12 4) 0 Config.role0Anchor

/-- R176, Table 6-6: the place of a placement address in the relocation list. -/
def State.relocIndex (s : State) (place : Nat) : Nat :=
  let m := s.ledger.relocNext.foldl (fun (m : Map Nat) x => if x.2 = x.1 then m.erase x.1 else m.put x.1 x.2) s.ledger.relocation
  (m.entries.filter (fun x => x.1 < place)).length

/-- Table 6-8: the index of the record that a change writes, and its new contents, as the change leaves them. -/
def State.recordOf (s : State) (c : JournalChange) : Nat × List Byte :=
  let k := arrayKeyCore c.key
  let e := arrayKeyEngine c.key
  let a := arrayKeyArray c.key
  if c.kind = jkArray then (State.arrayIndex k e a, (s.array k e a).record (s.ledgerCore k))
  else if c.kind = jkCore then (c.key, (s.coreHeld c.key).record)
  else if c.kind = jkField then (c.key, (s.field c.key).record)
  else if c.kind = jkRelocation then (s.relocIndex c.key, relocRecord c.key c.val)
  else if c.kind = jkStuck then (s.ledger.stuckCount - 1, stuckRecord c.key (c.vals.getD 0 0) (c.vals.getD 1 0))
  else (0, s.ledgerHeader s.ledger.snapSeq)

/-- R176: whether a copy of the ledger can be written, and whether both can. -/
def Ledger.writable (l : Ledger) : Bool := (l.copyA.isSome && !l.lostA) || (l.copyB.isSome && !l.lostB)
def Ledger.whole (l : Ledger) : Bool := l.copyA.isSome && !l.lostA && l.copyB.isSome && !l.lostB

/-- R176, Table 6-5: the array, of the 32 of engines 16 and 17 of both cores, in whose row a journal sequence is written:
(core of the field, engine, array); the rows are taken in turn (log 141). -/
def journalPlace (seq : Nat) : Nat × Nat × Nat :=
  let n := seq / 1024 % 32
  (66 + n / 16, 16 + n / 8 % 2, n % 8)

/-- R176: the candidate fields of a copy. -/
def ledgerCandidates (copyB : Bool) : List Nat := if copyB then [14, 13, 15, 24] else [84, 83, 85, 74]

/-- R176: whether cores 66 and 67 of a field pass. -/
def State.ledgerCoresGood (s : State) (f : Nat) : Bool := (s.core (coreKey f 66)).good && (s.core (coreKey f 67)).good

/-- R180: a copy that cannot be read or written is rebuilt in the next candidate field, with `LEDGER_COPY_LOST` raised. -/
def State.copyLost (s : State) (copyB : Bool) : State :=
  let was := if copyB then s.ledger.copyB else s.ledger.copyA
  let next := (ledgerCandidates copyB).find? (fun f =>
    decide (some f ≠ was) && (s.field f).power.converterOn && !(s.field f).fenced && s.ledgerCoresGood f)
  let s1 : State := if copyB then { s with ledger := { s.ledger with lostB := true, rebuildB := next } }
    else { s with ledger := { s.ledger with lostA := true, rebuildA := next } }
  let s2 : State := { s1 with mod := { s1.mod with eventsSeen := insertNat evLedgerCopyLost s1.mod.eventsSeen } }
  s2.event evLedgerCopyLost (was.getD 0 * 2 ^ 15)

/-- R176: the cores of copies that stand, with the copy: those of arrays `units`, (core of the field, engine, array). -/
def Ledger.arraysOf (l : Ledger) (units : List (Nat × Nat × Nat)) : List (Bool × Nat × Nat × Nat) :=
  ((if l.lostA then [] else l.copyA.toList.map (fun f => (false, f))) ++ (if l.lostB then [] else l.copyB.toList.map (fun f => (true, f)))).flatMap
    (fun c => units.map (fun u => (c.1, coreKey c.2 u.1, u.2.1, u.2.2)))

/-- R159, R160, R178: a program cycle of ledger arrays, in every copy that stands, is put to the ledger before their rows are
programmed, at the front of what waits where `soon` says so; an array with no cycle left is retired, and its copy is lost. -/
def State.ledgerWear (s : State) (units : List (Nat × Nat × Nat)) (soon : Bool) : State :=
  let all := s.ledger.arraysOf units
  let worn := all.filter (fun x => decide (100000 ≤ (s.array x.2.1 x.2.2.1 x.2.2.2).wear))
  let dead := (worn.map Prod.fst).eraseDups
  let asks := worn.map (fun x => ({ kind := jkArray, key := arrayKey x.2.1 x.2.2.1 x.2.2.2, what := jwState, val := 2 } : JournalChange))
    ++ (all.filter (fun x => !dead.contains x.1)).map (fun x =>
      ({ kind := jkArray, key := arrayKey x.2.1 x.2.2.1 x.2.2.2, what := jwCycle } : JournalChange))
  let s1 : State := { s with ledger := { s.ledger with waiting := if soon then asks ++ s.ledger.waiting else s.ledger.waiting ++ asks } }
  dead.foldl (fun (t : State) c => t.copyLost c) s1

/-- Table 6-8: bytes 0 to 223 of a journal entry. -/
def JournalRec.head (r : JournalRec) : List Byte :=
  leBytes 8 r.seq ++ leBytes 2 r.kind ++ leBytes 2 r.payload.length ++ bytesAt (r.payload ++ leBytes 212 0) 0 212

/-- R180: the entries that follow sequence `n`, up to the first whose `mac` fails or whose `seq` breaks the sequence. -/
def journalFrom : Nat → List JournalRec → List JournalRec
  | _, [] => []
  | n, r :: rest => if r.seq = n + 1 ∧ r.mac = Config.journalMac r.head then r :: journalFrom r.seq rest else []

/-- R178: a journal entry, of a record's index and new contents, written in every copy that stands; before the journal goes on to an
array, that array's cycle is put to the ledger (R159, R160; log 141). -/
def State.journalWritten (s : State) (kind : Nat) (r : Nat × List Byte) : State :=
  let l := s.ledger
  let seq := Nat.max l.seqA l.seqB + 1
  let e : JournalRec := { seq := seq, kind := kind, payload := leBytes 4 r.1 ++ r.2 }
  let s1 : State := { s with ledger := { l with
      seqA := if l.copyA.isSome ∧ !l.lostA then l.seqA + 1 else l.seqA
      seqB := if l.copyB.isSome ∧ !l.lostB then l.seqB + 1 else l.seqB
      journal := l.journal + 1
      entries := l.entries ++ [{ e with mac := Config.journalMac e.head }]
      wallCommit := s.wallNow.getD l.wallCommit } }
  if seq % 1024 = 1000 then s1.ledgerWear [journalPlace (seq + 24)] true else s1

/-- LEDGER_COMMIT (R178): the oldest waiting change is programmed and verified in copy A and then copy B, and takes effect; the
entry holds the record as the change leaves it. After a power failure only a commit that had started completes (R423). -/
def State.commitOne (s : State) : State :=
  match s.ledger.waiting with
  | [] => s
  | c :: rest =>
    if s.powered && s.ledger.writable && (!s.mod.powerFail || decide (0 < s.ledger.inHand)) then
      let s1 : State := { s with ledger := { s.ledger with waiting := rest, inHand := s.ledger.inHand - 1 } }
      let s2 := s1.journalWritten c.kind ((s1.applyChange c).recordOf c)
      s2.applyChange c
    else s

/-- The fields that are powered. -/
def State.poweredFields (s : State) : List Nat := allFields.filter (fun f => (s.field f).power.converterOn)

/-- R178: a field's record is committed. -/
def State.fieldCommitted (s : State) (f : Nat) : State :=
  (s.journalWritten jkField (f, (s.field f).record)).updField f (fun v => { v with ageKept := v.ageAcc })

/-- LEDGER_COUNTER_COMMIT (R178): the age and powered-time counters are committed: a record for each powered field and the
header. -/
def execLedgerCounterCommit (s : State) : Out :=
  .next (if s.powered && !s.mod.powerFail && s.clock.running && s.ledger.writable then
    let secs := s.since s.ledger.counterAt / 10 ^ 9
    let s1 := s.poweredFields.foldl (fun (t : State) f =>
      let u := t.updField f (fun v => { v with poweredS := v.poweredS + secs })
      u.fieldCommitted f) s
    let s2 := s1.journalWritten jkHeader (0, s1.ledgerHeader s1.ledger.snapSeq)
    { s2 with ledger := { s2.ledger with
        counterAt := BitVec.ofNat 64 (s2.ledger.counterAt.toNat + secs * 10 ^ 9), poweredS := s2.ledger.poweredS + secs } }
  else s)

/-- R179: seconds between snapshots and entries that fill three quarters of the journal. -/
def snapshotEvery : Nat := 86400 * 10 ^ 9
def journalFull : Nat := 24576

/-- R176, Table 6-5: the arrays of a slot, (core of the field, engine, array). -/
def slotArrays (slot : Nat) : List (Nat × Nat × Nat) :=
  (List.range 16).flatMap (fun e => (List.range arraysPerEngine).map (fun a => (66 + slot, e, a)))

/-- R159: whether the cycle of an array of the slot that the snapshot goes to still waits for its commit. -/
def State.slotWears (s : State) : Bool :=
  (s.ledger.arraysOf (slotArrays (1 - s.ledger.slot))).any (fun x => s.arrayWaits x.2.1 x.2.2.1 x.2.2.2 jwCycle)

/-- R179, R348, R358: starts a snapshot of the ledger as it stands, with the changes of the owner area that wait; the cycles of the
slot's arrays are put to the ledger. -/
def State.startSnapshot (s : State) : State :=
  let l := s.ledger
  let s1 : State := { s with ledger := { l with
    snapping := true
    snapNext := { seq := l.snapSeq + 1, last := Nat.max l.seqA l.seqB, body := s.slotBody, owner := ownerArea l.ownerDue } } }
  if l.snapping then s1 else s1.ledgerWear (slotArrays (1 - l.slot)) false

/-- LEDGER_SNAPSHOT (R179): every 86,400 s, or when the journal is three-quarters full, a snapshot is begun. -/
def execLedgerSnapshot (s : State) : Out :=
  .next (if s.powered && !s.mod.powerFail && s.ledger.writable && !s.ledger.snapping
      && (decide (snapshotEvery ≤ s.since s.ledger.snapAt) || decide (journalFull ≤ s.ledger.journal)) then s.startSnapshot
    else s)

/-- R348: an owner change that both copies hold takes effect; a claim grants level 0 to its session. -/
def State.ownerChanged (s : State) : State :=
  match s.ledger.ownerNext with
  | none => s
  | some (digest, conn, tag) =>
    let s1 : State := { s with ledger := { s.ledger with
      owner := digest, ownerSeq := s.ledger.ownerSeq + 1, ownerNext := none } }
    let s2 := match s.owedOn conn tag with
      | some d =>
        if (s.conn d).sess.outst.any (fun o => o.is conn tag && decide (o.op = rowSsAuth.op)) then
          s1.updSess d (fun v => { v with level := some 0, keyDigest := digest })
        else s1
      | none => s1
    s2.finish conn tag stOk

/-- R357, R358: a firmware image stands in both copies; `commit_svn` raises `min_svn` in the same snapshot. -/
def State.firmwareWritten (s : State) : State :=
  match s.ledger.fwNext with
  | none => s
  | some (img, commit, conn, tag) =>
    let l := s.ledger
    let raise := commit && decide (l.minSvn < img.svn)
    ({ s with ledger := { l with
        fwNext := none
        minSvn := if raise then img.svn else l.minSvn
        ownerSeq := if raise then l.ownerSeq + 1 else l.ownerSeq } } : State).finish conn tag stOk

/-- R180: the loss is cleared once no copy is lost. -/
def State.copyLossCleared (s : State) : State :=
  if s.ledger.lostA || s.ledger.lostB then s
  else { s with mod := { s.mod with eventsSeen := s.mod.eventsSeen.filter (fun x => x ≠ evLedgerCopyLost) } }

/-- R348, R358: with both copies again, a change of the owner area or the firmware that waits starts a snapshot into both. -/
def State.snapshotOwed (s : State) : State :=
  if s.ledger.whole && !s.ledger.snapping && (s.ledger.ownerNext.isSome || s.ledger.fwNext.isSome) then s.startSnapshot else s

/-- R176: the field that held a copy holds none. -/
def State.copyLeft (s : State) (old : Option Nat) : State :=
  match old with
  | some f => s.updField f (fun v => { v with ledgerCopy := 0 })
  | none => s

/-- LEDGER_COPY_REBUILT (R180): a rebuilt copy is the ledger's again. -/
def execLedgerCopyRebuilt (copyB : Bool) (s : State) : Out :=
  let l := s.ledger
  .next (if !s.powered || s.mod.powerFail then s
    else if copyB then
      match l.rebuildB with
      | some f => ({ ((s.copyLeft l.copyB).updField f (fun v => { v with ledgerCopy := 2 })) with
          ledger := { l with copyB := some f, lostB := false, okB := true, seqB := l.seqA, rebuildB := none } } : State).copyLossCleared.snapshotOwed
      | none => s
    else
      match l.rebuildA with
      | some f => ({ ((s.copyLeft l.copyA).updField f (fun v => { v with ledgerCopy := 1 })) with
          ledger := { l with copyA := some f, lostA := false, okA := true, seqA := l.seqB, rebuildA := none } } : State).copyLossCleared.snapshotOwed
      | none => s)

/-- LEDGER_SNAPSHOT_DONE (R179, R348, R358): the snapshot, the cycles of whose arrays are committed (R159), is signed and written into
the other slot, and the journal goes on after the snapshot's last sequence; an owner change or an image takes effect where both
copies hold it. -/
def execLedgerSnapshotDone (s : State) : Out :=
  .next (if s.powered && !s.mod.powerFail && s.ledger.writable && s.ledger.snapping && !s.slotWears then
    let l := s.ledger
    let slot := 1 - l.slot
    let s1 : State := { s with ledger := { l with
      snapping := false, slot := slot, snapSeq := l.snapSeq + 1, snapAt := s.stamp
      journal := (l.entries.filter (fun r => decide (l.snapNext.last < r.seq))).length
      entries := l.entries.filter (fun r => decide ((l.slots.getD l.slot {}).last < r.seq))
      slots := l.slots.set slot l.snapNext.signed, snapNext := {}
      fw := match l.fwNext with
        | some x => l.fw.set slot x.1
        | none => l.fw } }
    if l.whole then s1.ownerChanged.firmwareWritten else s1
  else s)

/-! Table 6-1: the acceleration factor of whole degrees 0 to 127, in units of 2^-16, rounded up (R161). -/
def ageTable0 : List Nat := [32, 37, 43, 50, 58, 67, 78, 91, 105, 121, 140, 162, 187, 215, 248, 285]
def ageTable1 : List Nat := [327, 376, 431, 494, 566, 647, 740, 845, 964, 1098, 1251, 1423, 1618, 1839, 2087, 2367]
def ageTable2 : List Nat :=
  [2682, 3036, 3435, 3883, 4386, 4950, 5583, 6291, 7085, 7971, 8963, 10070, 11305, 12683, 14219, 15929]
def ageTable3 : List Nat :=
  [17833, 19949, 22302, 24915, 27814, 31031, 34596, 38546, 42918, 47755, 53103, 59012, 65536, 72737, 80679, 89433]
def ageTable4 : List Nat :=
  [99076, 109692, 121373, 134217, 148334, 163840, 180862, 199537, 220016, 242459, 267042, 293955, 323402, 355605, 390804,
   429256]
def ageTable5 : List Nat :=
  [471241, 517060, 567037, 621524, 680896, 745559, 815951, 892542, 975838, 1066381, 1164756, 1271590, 1387556, 1513376,
   1649825, 1797732]
def ageTable6 : List Nat :=
  [1957989, 2131549, 2319431, 2522728, 2742609, 2980322, 3237205, 3514684, 3814283, 4137630, 4486462, 4862632, 5268116,
   5705020, 6175590, 6682216]
def ageTable7 : List Nat :=
  [7227444, 7813984, 8444721, 9122720, 9851242, 10633754, 11473938, 12375705, 13343208, 14380854, 15493320, 16685565,
   17962849, 19330745, 20795160, 22362350]

/-- R161: AF at a temperature in whole degrees, held to the table's ends. -/
def ageFactor (t : Int) : Nat :=
  let i := (max 0 (min 127 t)).toNat
  (ageTable0 ++ ageTable1 ++ ageTable2 ++ ageTable3 ++ ageTable4 ++ ageTable5 ++ ageTable6 ++ ageTable7).getD i 0

/-- R161: a sensor code in whole degrees, rounded up. -/
def codeDegUp (c : Nat) : Int := (ceilDiv c 16 : Nat) - 50

/-- R161: the temperature at which a field ages. -/
def State.ageTemp (s : State) (f : Nat) : Int :=
  let v := s.field f
  if v.sensorList.any (fun x => x.broken) then 95
  else if v.sleep = .cold then
    codeDegUp ((s.poweredFields.map (fun g => (s.field g).hottest)).foldl Nat.max 0)
  else codeDegUp v.hottest

/-- R162: the age of an array in whole equivalent seconds. -/
def State.arrayAge (s : State) (k e a : Nat) : Nat := (s.field (k / coresPerField)).ageAcc / 2 ^ 16 - (s.array k e a).stamp

/-- R168: ages in equivalent seconds at which a refresh opens and falls due. -/
def ageOpen : Nat := 2073600
def ageDue : Nat := 2592000

/-- R168: an array falls due. -/
def State.arrayDue (s : State) (k e a : Nat) : State :=
  if (s.array k e a).refDue then s
  else (s.updArray k e a (fun v => { v with refDue := true, overdueAt := some s.stamp })).event evRefreshDue
    (packedArray k e a)

/-- R168: the events of an array's age. -/
def State.arrayCalendar (s : State) (k e a : Nat) : State :=
  let age := s.arrayAge k e a
  let s1 := if ageOpen ≤ age ∧ !(s.array k e a).refOpen then
      (s.updArray k e a (fun v => { v with refOpen := true })).event evRefreshOpen (packedArray k e a)
    else s
  if ageDue ≤ age then s1.arrayDue k e a else s1

/-- R163: every array is due. -/
def State.allArraysDue (s : State) : State :=
  let s1 := s.cores.entries.foldl (fun (t : State) c => c.2.engines.entries.foldl (fun (t : State) e =>
    e.2.arrays.entries.foldl (fun (t : State) a => t.arrayDue c.1 e.1 a.1) t) t) s
  { s1 with ledger := { s1.ledger with allDue := true } }

/-- Applies a function to every array that the state lists. -/
def State.overArrays (s : State) (g : State → Nat → Nat → Nat → State) : State :=
  s.cores.entries.foldl (fun (t : State) c => c.2.engines.entries.foldl (fun (t : State) e =>
    e.2.arrays.entries.foldl (fun (t : State) a => g t c.1 e.1 a.1) t) t) s

/-- AGE_ACCUMULATE (R161, R168): once every second AF(T) is added to each field's accumulator, and arrays pass the points of
the calendar. -/
def execAgeAccumulate (s : State) : Out :=
  .next (if s.powered && s.clock.running then
    let fs := allFields.filter (fun f => match (s.field f).agedAt with
      | some t => decide (10 ^ 9 ≤ s.since t)
      | none => true)
    let s1 := fs.foldl (fun (t : State) f => t.updField f (fun v => { v with
      ageAcc := (v.ageAcc + ageFactor (s.ageTemp f)) % 2 ^ 64, agedAt := some s.stamp })) s
    s1.overArrays (fun t k e a => t.arrayCalendar k e a)
  else s)

/-- Whether an engine holds weights: it stands in the engine map of a core whose edition is loaded. -/
def State.holdsWeights (s : State) (k e : Nat) : Bool :=
  decide ((s.core k).edition ≠ 0) && (s.core k).emap.contains e

/-- REFRESH_OVERDUE (R168): every 86,400 s that an array is past due and holds weights. -/
def execRefreshOverdue (c : CoreRef) (e a : Nat) (s : State) : Out :=
  let v := s.array c.key e a
  .next (match v.overdueAt with
    | some t => if c.ok ∧ s.powered ∧ v.refDue ∧ s.holdsWeights c.key e ∧ snapshotEvery ≤ s.since t then
        (s.updArray c.key e a (fun v => { v with overdueAt := some s.stamp })).event evRefreshOverdue (packedArray c.key e a)
      else s
    | none => s)

end Sys2Proof.Machine
end

