-- ==== Sys2Proof/Machine/Placing.lean ====
section
/-! DEFINITION. Where placed work stands: the relocation map (R11, R120), the stores and resident regions of a placed core
(R100, R103, R121 to R123), and the engines that hold an edition's rows. -/

namespace Sys2Proof.Machine

/-- R121: the placement entry of a core in an edition. -/
def Edition.coreRec (e : Edition) (place : Nat) : Option CoreRec :=
  e.placement.bind (fun p => p.cores.find? (fun c => c.core = place))

/-- R121: the placement cores of an edition. -/
def Edition.places (e : Edition) : List Nat := (e.placement.map (fun p => p.cores.map CoreRec.core)).getD []

/-- R17: the sections of an edition. -/
def Edition.sections (e : Edition) : Nat := (e.placement.map (fun p => p.sections.length)).getD 0

/-- R17: the placement cores of a section. -/
def Edition.sectionPlaces (e : Edition) (sect : Nat) : List Nat :=
  (e.placement.map (fun p => (p.cores.filter (fun c => c.sect = sect)).map CoreRec.core)).getD []

/-- R122: the slice of a core. -/
def Edition.slice (e : Edition) (place : Nat) : Option Slice := e.slices.find? (fun x => x.core = place)

/-- R121: the resident regions of a core. -/
def Edition.residentsOf (e : Edition) (c : CoreRec) : List ResRec :=
  (e.placement.map (fun p => (p.residents.drop c.resFirst).take c.resCount)).getD []

/-- The physical cores that run an edition, and their fields. -/
def State.edCores (s : State) (ed : Nat) : List Nat := (s.edition ed).places.map s.physOf
def State.edFields (s : State) (ed : Nat) : List Nat :=
  (s.edCores ed).foldl (fun l k => insertNat (k / coresPerField) l) []

/-- The fields of a section of an edition. -/
def State.sectFields (s : State) (ed sect : Nat) : List Nat :=
  ((s.edition ed).sectionPlaces sect).foldl (fun l p => insertNat (s.physOf p / coresPerField) l) []

/-- Little-endian words of bytes, keyed by word index. -/
def wordMap (l : List Byte) : Map Word :=
  { entries := (List.range (l.length / 4)).map (fun i => (i, BitVec.ofNat 32 (natAt l (4 * i) 4))) }

/-- R103, R123: loads the program and command stores of the core that serves `place` with the edition's slice; the program
store beyond it reads 0xFFFF_FFFF. -/
def State.loadStores (s : State) (k ed place : Nat) : State :=
  let e := s.edition ed
  match e.coreRec place, e.slice place with
  | some r, some sl => s.updCore k (fun c => { c with
      prog := wordMap sl.code, progFill := 0xFFFFFFFF, cmds := wordMap sl.cs, entry := r, start := sl.entry
      edition := ed, residents := e.residentsOf r, placeId := some place })
  | _, _ => s

/-- R100: fills the resident regions of a core from their stack sources. -/
def State.fillResidents (s : State) (k : Nat) : State :=
  let c := s.core k
  let p := s.corePart k
  c.residents.foldl (fun (t : State) r =>
    match t.resolve p c.edition r.src r.length with
    | some g => (t.regionTouched g (stackOff r.src) r.length p).spWrite k r.addr (t.regionBytes g (stackOff r.src) r.length)
    | none => t) s

/-- R243: the resident regions of a field's cores, in MiB, rounded up. -/
def State.countResident (s : State) (f : Nat) : State :=
  let n := ((List.range coresPerField).map (fun c =>
    ((s.core (coreKey f c)).residents.map ResRec.length).sum)).sum
  s.updField f (fun v => { v with resident := ceilDiv n (2 ^ 20) })

/-- R145, R149: a placed core takes its slice and its resident regions. -/
def State.placeCore (s : State) (ed place : Nat) : State :=
  let k := s.physOf place
  ((s.loadStores k ed place).fillResidents k).countResident (k / coresPerField)

/-- R224: the holding fields: service fields with cores of an edition not in FREE. -/
def State.holdingFields (s : State) : List Nat :=
  let used := s.editions.entries.foldl (fun l e => if e.2.state = .free then l
    else (s.edFields e.1).foldl (fun l f => insertNat f l) l) []
  s.serviceFields.filter (fun f => used.contains f)

/-- The editions of a field: those not in FREE with cores on it. -/
def State.fieldEditions (s : State) (f : Nat) : List Nat :=
  (s.editions.entries.filter (fun e => e.2.state ≠ .free ∧ (s.edFields e.1).contains f)).map Prod.fst

/-- The partitions with cores in a field (R233, R244). -/
def State.fieldParts (s : State) (f : Nat) : List Nat :=
  (List.range placeCores).foldl (fun l c =>
    let p := s.ownerOf (((s.core (coreKey f c)).placeId).getD (coreKey f c))
    if p < partitionCount then insertNat p l else l) []

/-- R256: the attach field of a stack that is not its active one. -/
def State.otherAttach (s : State) (k : Nat) : Nat := if (s.stack k).link = .home then stackAlternate k else stackHome k

/-- R257: whether a field can carry a stack's link: one whose short is detected and not confirmed may still clear. -/
def State.carries (s : State) (f : Nat) : Bool :=
  decide ((s.power f).iso = .none ∨ (s.power f).iso = .detected) && (s.field f).lanesOk && !(s.field f).fenced

/-- R257: the stacks whose active attach field is `f`. -/
def State.attachedStacks (s : State) (f : Nat) : List Nat :=
  (List.range stackCount).filter (fun k => s.attachField k = some f)

/-- R257, R277: whether a field is the active attach of a stack, or is to become it by a failover still pending; such a field does
not enter COLD. -/
def State.stackField (s : State) (f : Nat) : Bool :=
  (List.range stackCount).any (fun k => decide (s.attachField k = some f)
    || ((s.stack k).switchAt.isSome && decide (s.otherAttach k = f)))

end Sys2Proof.Machine
end

