-- ==== Sys2Proof/Machine/Sleep.lean ====
section
/-! DEFINITION. Sleep states of fields: entry, wake and the limits on their choice (R243 to R246). -/

namespace Sys2Proof.Machine

/-- Table 8-9: the depth of a state, LIT 0 to COLD 4. -/
def Sleep.depth : Sleep → Nat
  | .lit => 0 | .idle => 1 | .dim => 2 | .dark => 3 | .cold => 4

/-- Table 8-9: entry times in ns. -/
def Sleep.entryNs : Sleep → Nat
  | .dim => 500 | .dark => 20000 | .cold => 50000 | _ => 0

/-- Table 8-9: wake times in ns, with the MiB of resident regions. -/
def Sleep.wakeNs (z : Sleep) (mib : Nat) : Nat :=
  match z with
  | .dim => 2000 | .dark => 180000 | .cold => 4000000 + 40000 * mib | _ => 0

/-- Table 8-9: minimum gaps in ns. -/
def Sleep.minGap (z : Sleep) (mib : Nat) : Nat :=
  match z with
  | .dim => 3750 | .dark => 315000 | .cold => 5629000 + 45300 * mib | _ => 0

/-- R403: a field's time in its present sleep state goes to that state's counter, and the state becomes `z`. -/
def State.setSleep (s : State) (f : Nat) (z : Sleep) : State :=
  let v := s.field f
  (s.countField f (fcSleepNs + v.sleep.depth) (s.since v.sleepAt)).updField f (fun v => { v with
    sleep := z, sleepAt := s.stamp })

/-! Distance table (R263). -/

/-- R263: a record of the distance table. -/
def State.distanceRecord (s : State) (f : Nat) : List Byte :=
  leBytes 1 f ++ leBytes 7 0 ++ (List.range stackCount).flatMap (fun k =>
    leBytes 1 (match s.attachField k with
      | some g => s.hops f g
      | none => 255))

/-- R263: the distance table, one record for each present field. -/
def State.distanceTable (s : State) : List Byte := allFields.flatMap s.distanceRecord

/-- R263: the table is issued again to the control node (its packet is this model's choice, log 31). -/
def State.reissueTable (s : State) : State :=
  let c := s.alaok.active
  if (s.conn c).sess.level.isSome then
    s.reportOn c rowMmInfo.op none 0xFFFFFFFF stOk 0 0 s.distanceTable
  else s

/-- R26, R263: the detours change, and with them the distance table. -/
def State.reroute (s : State) : State := s.loadDetours.reissueTable

/-- R243, R244: begins the entry into a state; for COLD the detours around the field are loaded first. -/
def State.beginSleep (s : State) (f : Nat) (z : Sleep) : State :=
  if z.entryNs = 0 then s.setSleep f z
  else
    let s1 := s.updField f (fun v => { v with
      sleepTo := some (z, BitVec.ofNat 64 (s.now + z.entryNs)), detour := v.detour || decide (z = .cold) })
    if z = .cold then s1.reroute else s1

/-- R245, R246: begins a wake to LIT, once an entry in progress has completed; a wake for a scrub pass goes on to LIT. No field is
lit again after a power failure (R423). -/
def State.beginWake (s0 : State) (f : Nat) : State :=
  let v := s0.field f
  let s := if v.scrubWake then s0.updField f (fun v => { v with scrubWake := false }) else s0
  if v.power.iso = .off ∨ v.power.iso = .declared ∨ v.wakeAt.isSome ∨ s.mod.powerFail then s
  else if v.sleepTo.isSome then s.updField f (fun v => { v with wakeWanted := true })
  else if v.sleep = .lit then s
  else if v.sleep = .idle then s.setSleep f .lit
  else
    (s.updField f (fun w => { w with wakeAt := some (BitVec.ofNat 64 (s.now + v.sleep.wakeNs v.resident)), wakeWanted := false })).updPower
      f (fun p => { p with converterOn := true })

/-- Wakes every field of a list. -/
def State.wakeAll (s : State) (fs : List Nat) : State := fs.foldl (fun (t : State) f => t.beginWake f) s

/-- R246: the time until a field can take work. -/
def State.wakeDelay (s : State) (f : Nat) : Nat :=
  let v := s.field f
  match v.wakeAt, v.sleepTo with
  | some t, _ => t.toNat - s.now
  | none, some (z, t) => t.toNat - s.now + z.wakeNs v.resident
  | none, none => v.sleep.wakeNs v.resident

/-- R100: COLD loses every byte of a scratchpad, and ends every gating (R249). -/
def Scratch.lose (p : Scratch) : Scratch :=
  { p with mem := {}, errs := .empty, filled := false, written := [], voidBanks := 0, gated := 0, gateReq := []
           rewrote := [], scrubbed := .empty }

/-- A field's cores with `g` applied. -/
def State.overCores (s : State) (f n : Nat) (g : State → Nat → State) : State :=
  (List.range n).foldl (fun (t : State) c => g t (coreKey f c)) s

/-- R257: a field that a stack's link comes to does not enter COLD: an entry begun ends where it stands, with its wake if one is
wanted, and a field in COLD wakes (log 196). -/
def State.keepFromCold (s : State) (f : Nat) : State :=
  let v := s.field f
  match v.sleepTo with
  | some (.cold, _) =>
    let s1 := (s.updField f (fun v => { v with sleepTo := none, wakeWanted := false, detour := v.fenced })).reroute
    if v.wakeWanted then s1.beginWake f else s1
  | _ => if v.sleep = .cold then s.beginWake f else s

/-- R170, R414: whether a refresh phase runs on an engine of a field. -/
def State.refreshRuns (s : State) (f : Nat) : Bool :=
  ((List.range coresPerField).map (coreKey f)).any (fun k => (s.core k).engines.vals.any (fun e =>
    match e.refresh with
    | some r => decide (1 ≤ r.phase ∧ r.phase ≤ 6)
    | none => false))

/-- R414: in Stopped a field with no running refresh phase enters DIM; the gate field stays in IDLE. -/
def State.dimField (s : State) (f : Nat) : State :=
  let v := s.field f
  if s.mod.state ≠ .stopped ∨ v.sleepTo.isSome ∨ v.wakeAt.isSome ∨ !v.power.converterOn ∨ v.fenced then s
  else if f = gateField then (if v.sleep = .lit then s.setSleep f .idle else s)
  else if s.refreshRuns f ∨ 2 ≤ v.sleep.depth then s
  else s.beginSleep f .dim

/-- R414: every field at the beginning of a stop; one whose entry, wake or refresh is under way follows once that ends. -/
def State.dimAll (s : State) : State := allFields.foldl (fun (t : State) f => t.dimField f) s

/-- SLEEP_ENTRY_DONE (R246): a field has entered a sleep state; a pending wake then begins. An entry into COLD of a field that a
stack's link has come to meanwhile is not completed (R257, log 196). -/
def execSleepEntryDone (f : Nat) (s : State) : Out :=
  .next (match (s.field f).sleepTo with
    | none => s
    | some (z, t) =>
      if s.powered && fieldExists f && decide (t.toNat ≤ s.now) then
        if z = .cold ∧ s.stackField f = true then s.keepFromCold f
        else
          let s1 := (s.setSleep f z).updField f (fun v => { v with sleepTo := none, darkSince := s.stamp })
          let s2 := if z = .cold then
              (s1.overCores f coresPerField (fun t k => t.updCore k (fun c => { c with
                sp := c.sp.lose, prog := .empty, cmds := .empty }))).updPower f (fun p => { p with converterOn := false })
            else s1
          (if (s.field f).wakeWanted then s2.beginWake f else s2).dimField f
      else s)

/-- R244: how long a field stays in DARK before it is woken for a scrub pass. -/
def darkScrubNs : Nat := 60 * 10 ^ 9

/-- DARK_SCRUB_WAKE (R244): a field in DARK for 60 s is woken to DIM for one scrub pass. -/
def execDarkScrubWake (f : Nat) (s : State) : Out :=
  let v := s.field f
  .next (if s.powered && fieldExists f && decide (v.sleep = .dark) && v.sleepTo.isNone && v.wakeAt.isNone
      && decide (darkScrubNs ≤ s.since v.darkSince) then
    (s.beginWake f).updField f (fun v => { v with scrubWake := true })
  else s)

/-- R244: whether a field that wakes from COLD has had a full belfry round since the wake began. -/
def Field.roundSince (v : Field) (wakeAt : U64) : Bool :=
  decide (v.sleep ≠ .cold) || decide (wakeAt.toNat ≤ v.belfry.stamp.toNat + v.sleep.wakeNs v.resident)

/-- FIELD_AWAKE (R244, R245): a waking field can take work; after COLD one belfry round has completed, its stores and resident regions
are refilled and the detours around it removed. One woken for a scrub pass is in DIM; while Stopped it goes back to DIM (R414). -/
def execFieldAwake (f : Nat) (s : State) : Out :=
  .next (match (s.field f).wakeAt with
    | none => s
    | some t =>
      if s.powered && fieldExists f && decide (t.toNat ≤ s.now) && (s.field f).roundSince t then
        let cold := decide ((s.field f).sleep = .cold)
        let s1 := if cold then
            s.overCores f coresPerField (fun t k => match (t.core k).placeId with
              | some p => (t.loadStores k (t.core k).edition p).fillResidents k
              | none => t)
          else s
        let s2 := (s1.setSleep f (if (s.field f).scrubWake then .dim else .lit)).updField f (fun v => { v with wakeAt := none })
        (if cold then (s2.updField f (fun v => { v with detour := v.fenced })).reroute else s2).dimField f
      else s)

/-- R244: the deepest state allowed for a field by its partitions, the gate and ledger fields, and refresh settling. -/
def State.depthLimit (s : State) (f : Nat) : Nat :=
  let byParts := (s.fieldParts f).foldl (fun m p => Nat.min m ((s.part p).maxDepth + 1)) 4
  let settling := (List.range coresPerField).any (fun c => (s.core (coreKey f c)).engines.vals.any (fun e =>
    match e.refresh with | some r => decide (r.phase = 4) | none => false))
  if f = gateField then Nat.min byParts 1
  else if (s.field f).ledgerCopy ≠ 0 then Nat.min byParts 2
  else if settling ∨ s.stackField f then Nat.min byParts 3
  else byParts

/-- R233: the least gap before COLD for a field, in ns: the greatest `cold_min_ms` of its partitions. -/
def State.coldMin (s : State) (f : Nat) : Nat :=
  ((s.fieldParts f).map (fun p => (s.part p).coldMin)).foldl Nat.max 0 * 10 ^ 6

/-- R243: the deepest state allowed for a gap of `gap` ns. -/
def State.chooseSleep (s : State) (f gap : Nat) : Sleep :=
  let lim := s.depthLimit f
  let mib := (s.field f).resident
  if 4 ≤ lim ∧ Sleep.minGap .cold mib ≤ gap ∧ s.coldMin f ≤ gap then .cold
  else if 3 ≤ lim ∧ Sleep.minGap .dark mib ≤ gap then .dark
  else if 2 ≤ lim ∧ Sleep.minGap .dim mib ≤ gap then .dim
  else if 1 ≤ lim then .idle else .lit

end Sys2Proof.Machine
end

