-- ==== Sys2Proof/Machine/Program.lean ====
section
/-! DEFINITION. Programming of rows by the agents (R140 to R143), wear and defects (R159, R160, R173), trims (R164 to R167) and
the engine refresh (R168 to R172). -/

namespace Sys2Proof.Machine

/-- R48: the row whose every column stands at level 8. -/
def levelEightRow : List Byte := List.replicate 512 0x88

/-- A new job's number (log 28). -/
def State.takeJob (s : State) : State := { s with ledger := { s.ledger with nextJob := s.ledger.nextJob + 1 } }

/-- R5: the logical engine that a physical engine of a core serves, and the placement address of that engine. -/
def Core.logicalOf (c : Core) (e : Nat) : Option Nat := c.emap.findIdx? (fun x => x = e)
def placeEngine (place logical : Nat) : Nat := packedEngine place logical

/-! Sources of rows (R140, R170, R174). -/

/-- R174: the row's place in the golden copy, in rows. -/
def goldenIndex (target row : Nat) : Nat → List (Nat × Nat × Nat) → Option Nat
  | _, [] => none
  | n, (t, first, count) :: rest =>
    if t = target ∧ first ≤ row ∧ row < first + count then some (n + (row - first)) else goldenIndex target row (n + count) rest

/-- R140, R156, R170: the engine that a row's target names now: physical core and engine. -/
def State.engineOfTarget (s : State) (target : Nat) : Nat × Nat :=
  let k := s.physOf ((unpackKey target).getD 0)
  (k, (s.core k).emap.getD (unpackEngine target) 0)

/-- R156: the pool engines that take a layer, one entry a row. -/
def State.layerEngines (s : State) (ed layer : Nat) : List (Nat × Nat) :=
  (Config.forerunnerRows ed layer).map (fun r => s.engineOfTarget r.2.1)

/-- R156: whether a batch on pool engines that the slot's layer takes fires in this window, or is in a reload span that began before:
the slot's span then waits (log 173). -/
def State.spanBlocked (s : State) (x : Slot) : Bool :=
  s.plan.slots.any (fun y => decide ((s.edition y.edition).kind = .forerunner)
    && decide (y.sect < (s.edition y.edition).sections)
    && decide ((y.edition, y.sect, y.layer, y.wait) ≠ (x.edition, x.sect, x.layer, x.wait))
    && decide (y.wait = 0 ∨ y.spanAt.toNat < x.spanAt.toNat ∨ (y.spanAt = x.spanAt ∧ y.id < x.id))
    && (s.layerEngines y.edition y.layer).any (fun e => (s.layerEngines x.edition x.layer).contains e))

/-- R156: whether a slot's reload span stands before its last window on a pool engine: no sample is taken yet. -/
def State.spanEarly (s : State) (k e : Nat) : Bool :=
  s.plan.slots.any (fun x => decide (1 < x.wait) && (s.layerEngines x.edition x.layer).contains (k, e))

/-- R156: the rows of a forerunner layer, read from the edition's stack-tier region: (placement engine, engine row, levels). -/
def State.forerunnerLayer (s : State) (ed layer : Nat) : List (Nat × Nat × List (Byte × Bool)) :=
  let e := s.edition ed
  let rows := e.staged.vals.flatMap (fun x => if x.kind = 5 then
    (List.range (x.payload.length / 512)).map (fun i => x.stackDst + 512 * i) else [])
  (Config.forerunnerRows ed layer).filterMap (fun r =>
    match rows[r.1]?, e.regions.find? 3 with
    | some o, some g => some (r.2.1, r.2.2, s.regionBytes g o 512)
    | _, _ => none)

/-- R17: the layers of an edition. -/
def Edition.layers (e : Edition) : List Nat :=
  ((e.placement.map (fun p => p.sections)).getD []).flatMap (fun x =>
    (List.range (x.lastLayer + 1 - x.firstLayer)).map (fun i => x.firstLayer + i))

/-- R156: whether a forerunner edition reloads layers into an array of a placement engine. -/
def State.poolArray (s : State) (ed target a : Nat) : Bool :=
  let e := s.edition ed
  decide (e.kind = .forerunner) && e.layers.any (fun l => (Config.forerunnerRows ed l).any (fun r =>
    decide (r.2.1 = target) && decide (r.2.2 / arrayRows = a)))

/-- R174: a row of the golden copy as `PROG_ROW` takes it, and whether it reads poisoned; none where the copy has no such row. A
forerunner edition's reload rows serve as its copy: the layer last reloaded into the row. -/
def State.goldenRow (s : State) (ed target row : Nat) : Option (List (Byte × Bool)) :=
  let e := s.edition ed
  if e.kind = .forerunner then
    e.reloads.reverse.findSome? (fun x => ((s.forerunnerLayer ed x.1).find? (fun r => r.1 = target ∧ r.2.1 = row)).map (fun r => r.2.2))
  else match goldenIndex target row 0 e.goldenRuns, e.regions.find? 4 with
  | some i, some r => if 512 * i + 512 ≤ r.size then
      some ((s.regionBytes r (512 * i) 512).map (fun b => (b.1 ^^^ 0x88, b.2)))
    else none
  | _, _ => none

/-- R156, R268 to R272: what the read of a forerunner layer's rows leaves behind. -/
def State.layerTouched (s : State) (ed layer : Nat) (only : Nat × Nat → Bool) : State :=
  let e := s.edition ed
  let rows := e.staged.vals.flatMap (fun x => if x.kind = 5 then
    (List.range (x.payload.length / 512)).map (fun i => x.stackDst + 512 * i) else [])
  (Config.forerunnerRows ed layer).foldl (fun (t : State) r => match rows[r.1]?, e.regions.find? 3 with
    | some o, some g => if only r.2 then t.regionTouched g o 512 e.partition else t
    | _, _ => t) s

/-- R174, R268 to R272: what the read of a row of the golden copy leaves behind. -/
def State.goldenTouched (s : State) (ed target row : Nat) : State :=
  let e := s.edition ed
  if e.kind = .forerunner then
    match e.reloads.reverse.find? (fun x => (s.forerunnerLayer ed x.1).any (fun r => decide (r.1 = target) && decide (r.2.1 = row))) with
    | some x => s.layerTouched ed x.1 (fun r => decide (r.1 = target) && decide (r.2 = row))
    | none => s
  else match goldenIndex target row 0 e.goldenRuns, e.regions.find? 4 with
    | some i, some r => if 512 * i + 512 ≤ r.size then s.regionTouched r (512 * i) 512 e.partition else s
    | _, _ => s

/-- R134: whether a shard holds a row of an engine. -/
def ShardRec.holds (x : ShardRec) (target row : Nat) : Bool :=
  decide (x.kind = 3) && decide (x.target = target) && decide (x.firstRow ≤ row) && decide (row < x.firstRow + x.rowCount)

/-- R140: a row from the shards still staged. -/
def Edition.stagedRow (e : Edition) (target row : Nat) : Option (List Byte) :=
  (e.staged.vals.find? (fun x => x.holds target row && !x.payload.isEmpty)).map (fun x =>
    bytesAt x.payload (512 * (row - x.firstRow)) 512)

/-- Whether an edition's shards name a row, or its golden copy holds it. -/
def Edition.namesRow (e : Edition) (target row : Nat) : Bool :=
  e.staged.vals.any (fun x => x.holds target row) || (goldenIndex target row 0 e.goldenRuns).isSome

/-- R173: whether an edition's array-row shards name an array of a placement engine. -/
def Edition.namesArray (e : Edition) (target a : Nat) : Bool :=
  (List.range 1024).any (fun r => e.namesRow target (1024 * a + r))

/-- R65, R143: the levels at the columns delivered of a row as it is programmed, 512 bytes. -/
def Array.rowBytes (a : Array) (map : List (BitVec 16)) (row : Nat) : List Byte :=
  packLevels ((List.range 1024).map (fun c => a.level row (deliveredColumn map c)))

/-- R140, R148, R170: a row that no shard of an edition names: level 8, but in a rolling edition the base edition's row as long as that
edition or its copies hold it, and levels that no source gives after that; the arrays are never read (log 142). -/
def State.unnamedRow (s : State) (ed target row : Nat) : List Byte :=
  let e := s.edition ed
  let b := s.edition e.base
  if e.kind ≠ .rolling then levelEightRow
  else match (s.goldenRow e.base target row).bind (fun g => if spPoison g then none else some (g.map Prod.fst)), b.stagedRow target row with
    | some g, _ => g
    | none, some g => g
    | none, none =>
      if b.state ≠ .free ∧ b.kind ≠ .rolling ∧ !b.namesRow target row then levelEightRow
      else packLevels ((List.range 1024).map (fun c => (Config.unsourcedLevel ed target row c).toNat))

/-- R170, R175: a row of a placement engine, from the golden copy or from staging; none where it is needed from the control node; the
second part says whether the golden copy failed by poison. -/
def State.sourcedRow (s : State) (ed target r : Nat) : Option (List Byte) × Bool :=
  let v := s.edition ed
  match s.goldenRow ed target r with
  | some g => if spPoison g then (none, true) else (some (g.map Prod.fst), false)
  | none => if v.namesRow target r then (v.stagedRow target r, false) else (some (s.unnamedRow ed target r), false)

/-! The programming agents (R140, R142). -/

/-- Whether one of the agent's commands stands at an engine. -/
def Engine.agentBusy (v : Engine) : Bool := (v.queue ++ (v.done.map Prod.snd).toList).any (fun m => m.seq.isNone)

/-- R159, R160: asks for a wear raise before a job's row program; a job that would take the count above 100,000 retires the
array instead. -/
def State.wearAsk (s : State) (k e a job : Nat) (second : Bool) : State :=
  if s.arrayWaits k e a jwRaise ∨ s.arrayWaits k e a jwRaise2 ∨ s.arrayWaits k e a jwState then s
  else if 100000 ≤ (s.array k e a).wear then s.journalArray k e a jwState 2
  else s.journalArray k e a (if second then jwRaise2 else jwRaise) job

/-- Table 3-3: the agent's `PROG_ROW`. -/
def agentCmd (job row : Nat) (levels : List Byte) : Cmd :=
  { bytes := leBytes 1 2 ++ leBytes 1 (row / 1024) ++ leBytes 2 (row % 1024) ++ leBytes 28 0, rows := levels, job := job }

/-- The engine of a core whose refresh an engine is the spare of. -/
def State.refreshOwner (s : State) (k spare : Nat) : Option (Nat × Refresh) :=
  (s.core k).engines.entries.findSome? (fun v => match v.2.refresh with
    | some r => if 0 < r.phase ∧ r.spare = spare then some (v.1, r) else none
    | none => none)

/-- R170 phase 1: the wear raises of a refresh on all arrays of its spare are committed before a row is programmed. -/
def State.charge (s : State) (k e : Nat) : State :=
  match s.refreshOwner k e with
  | some (o, r) =>
    if r.phase ≠ 1 then s
    else
      let todo := (List.range arraysPerEngine).filter (fun a => decide ((s.array k e a).state = 0) && decide ((s.array k e a).job ≠ r.job))
      if todo.isEmpty then s.updEngine k o (fun v => { v with refresh := some { r with phase := 3 } })
      else todo.foldl (fun (t : State) a => t.wearAsk k e a r.job false) s
  | none => s

/-- R170 phase 1: whether the spare's raises are still to be committed. -/
def State.charging (s : State) (k e : Nat) : Bool := ((s.refreshOwner k e).map (fun x => decide (x.2.phase = 1))).getD false

/-- R142, R352: the agent of an engine issues its next row when the wear raise stands, the field's concurrency allows one more, the
field is awake and no clear of the core is owed. -/
def State.agentRow (s : State) (k e : Nat) : State :=
  let v := s.engine k e
  let f := k / coresPerField
  match v.rowsLeft with
  | [] => s
  | (job, row, levels) :: rest =>
    let a := s.array k e (row / 1024)
    if v.failed ∨ v.agentBusy ∨ a.state ≠ 0 ∨ s.mod.powerFail ∨ (s.field f).fenced ∨ (s.core k).clearing ∨ s.charging k e then s
    else if a.job ≠ job then s.wearAsk k e (row / 1024) job false
    else if a.jobRows.contains (row % 1024) ∧ !a.jobTwice then s.wearAsk k e (row / 1024) job true
    else if !(s.field f).awake then s.beginWake f
    else if (s.power f).conc ≤ (s.power f).progBusy ∨ 4 ≤ v.queue.length then s
    else
      (s.updEngine k e (fun v => { v with rowsLeft := rest, queue := v.queue ++ [agentCmd job row levels] })).updPower f
        (fun p => { p with progBusy := p.progBusy + 1 })

/-- R142, R170: what an engine's agent may do now: the raises of a refresh first, then its next row. -/
def State.agentIssue (s : State) (k e : Nat) : State := if (s.core k).clearing then s else (s.charge k e).agentRow k e

/-- The agents of a field's engines issue what they may. -/
def State.agentsOf (s : State) (f : Nat) : State :=
  (s.cores.entries.filter (fun (c : Nat × Core) => c.1 / coresPerField = f)).foldl (fun (t : State) c =>
    c.2.engines.keys.foldl (fun (t : State) e => t.agentIssue c.1 e) t) s

/-- Hands rows to an engine's agent. -/
def State.queueRows (s : State) (k e job : Nat) (rows : List (Nat × List Byte)) : State :=
  (s.updEngine k e (fun v => { v with rowsLeft := v.rowsLeft ++ rows.map (fun r => (job, r.1, r.2)) })).agentIssue k e

/-! Engine refresh (R170) and the replacement of a retired array's engine (R173). -/

/-- Table 11-15, R336: the assist that asks for an engine's shards, and the body of its wish (the numbering of the shards is the
model's, log 29); none, counted, where the partition may have no more outstanding. -/
def State.askShards (s : State) (part unit : Nat) (wanted : List Nat) : State × Option Nat :=
  if s.assistRoom part then
    let id := s.alaok.nextAssist.toNat
    (s.sendAssist { fn := 4, sub := 1, partition := part, req := unit, kept := wanted } 0xFFFFFFFF
      (leBytes 4 unit ++ leBytes 8 s.now ++ leBytes 4 wanted.length ++ wanted.flatMap (leBytes 4)), some id)
  else (s.countPart part pcAssistLate 1, none)

/-- R170: rows are asked of the control node. -/
def State.askRows (s : State) (q : RowAsk) : State :=
  let a := s.askShards (s.edition q.edition).partition q.unit q.wanted
  { a.1 with plan := { a.1.plan with asks := a.1.plan.asks ++ [{ q with assist := a.2 }] } }

/-- R170: whether rows of an engine are still wanted of the control node. -/
def State.asked (s : State) (k e : Nat) : Bool := s.plan.asks.any (fun q => decide (q.key = k) && decide (q.engine = e))

/-- Rows that are wanted no more, and their assists. -/
def State.dropAsks (s : State) (gone : RowAsk → Bool) : State :=
  let ids := (s.plan.asks.filter gone).filterMap RowAsk.assist
  { s with
    plan := { s.plan with asks := s.plan.asks.filter (fun q => !gone q) }
    alaok := { s.alaok with assists := s.alaok.assists.filter (fun a => !ids.contains a.id.toNat) } }

/-- R170, R336: rows whose assist found no room are asked for once there is. -/
def State.askAgainRows (s : State) : State :=
  s.plan.asks.foldl (fun (t : State) q =>
    if q.assist.isSome ∨ !t.assistRoom (t.edition q.edition).partition then t
    else (t.dropAsks (fun x => decide (x = q))).askRows { q with wanted := q.wanted.filter (fun i => !q.got.contains i), got := [] }) s

/-- The shards that name an engine. -/
def Edition.shardsOf (e : Edition) (target : Nat) : List Nat :=
  (e.staged.entries.filter (fun x => x.2.kind = 3 ∧ x.2.target = target)).map Prod.fst

/-- R155: the edition whose rows an engine of a core takes: the rolling edition that is being written over its own, past the drain. -/
def State.rowsEdition (s : State) (ed : Nat) : Nat :=
  ((s.editions.entries.find? (fun (x : Nat × Edition) => decide (x.2.base = ed) && decide (x.2.kind = .rolling) && (match x.2.rolling with
    | some r => decide (r.phase = .rewrite ∨ r.phase = .close ∨ r.phase = .resume)
    | none => false))).map Prod.fst).getD ed

/-- R155: the work that an edition being built has on a core: the edition and its placement core. -/
def State.buildWork (s : State) (k : Nat) : Option (Nat × Nat) :=
  s.editions.entries.findSome? (fun (x : Nat × Edition) =>
    if x.2.state = .building ∨ x.2.state = .verifying then (x.2.places.find? (fun p => s.physOf p = k)).map (fun p => (x.1, p)) else none)

/-- The work that core `k` has or takes over: the edition whose rows it takes, and the placement core. -/
def State.workOn (s : State) (k : Nat) : Option (Nat × Nat) :=
  let c := s.core k
  if c.edition ≠ 0 ∧ c.placeId.isSome then some (s.rowsEdition c.edition, c.placeId.getD k)
  else match s.plan.outUnits.find? (fun u => u.dest = k ∧ u.phase = 2 ∧ u.kind ≠ .engine) with
    | some u => match unpackKey u.unit with
      | some o => some (s.rowsEdition (s.core o).edition, (s.core o).placeId.getD o)
      | none => none
    | none => s.buildWork k

/-- R140, R170: the edition and the placement engine whose rows a physical engine holds or takes: its own, or as a spare those of the
engine that is refreshed. -/
def State.rowsOf (s : State) (k e : Nat) : Option (Nat × Nat) :=
  (s.workOn k).bind (fun w => match s.refreshOwner k e with
    | some (o, r) => ((s.core k).logicalOf o).map (fun l => (r.edition, placeEngine w.2 l))
    | none => ((s.core k).logicalOf e).map (fun l => (w.1, placeEngine w.2 l)))

/-- R170, R175: rows of placement engine `target` go to the agent of an engine from their source; those that neither the golden copy
nor staging holds are asked of the control node, and a golden copy that reads poisoned is reported. -/
def State.queueSourced (s : State) (k e job ed target : Nat) (rows : List Nat) : State :=
  let src := rows.map (fun r => (r, s.sourcedRow ed target r))
  let here := src.filterMap (fun x => x.2.1.map (fun b => (x.1, b)))
  let miss := (src.filter (fun x => x.2.1.isNone)).map Prod.fst
  let s0 := rows.foldl (fun (t : State) r => t.goldenTouched ed target r) s
  let s1 := if src.any (fun x => x.2.2) then s0.event evGoldenPoison (packedEngine k e) else s0
  let s2 := if miss.isEmpty then s1
    else s1.askRows { key := k, engine := e, target := target, edition := ed, job := job, unit := packedEngine k e, rows := miss
                      wanted := (s.edition ed).shardsOf target }
  s2.queueRows k e job here

/-- R170 phases 1 to 3: a refresh of engine `e` begins on `spare`: its rows are sourced and handed to the agent, whose first row
waits for the raises. -/
def State.startRefresh (s : State) (k e spare : Nat) (repair : Bool) : State :=
  let c := s.core k
  let ed := s.rowsEdition c.edition
  let target := placeEngine (c.placeId.getD k) ((c.logicalOf e).getD 0)
  let job := s.ledger.nextJob
  let r : Refresh := { spare := spare, phase := 1, edition := ed, inPlace := decide (spare = e), repair := repair, job := job }
  (s.takeJob.updEngine k e (fun v => { v with refresh := some r })).queueSourced k spare job ed target (List.range 8192)

/-- R172: a refresh is abandoned: the rows of its job that its spare has not programmed are dropped; the raises stand. -/
def State.dropRefresh (s : State) (k e : Nat) : State :=
  match (s.engine k e).refresh with
  | none => s
  | some r => (((s.updEngine k e (fun v => { v with refresh := none })).updEngine k r.spare (fun v => { v with
      rowsLeft := v.rowsLeft.filter (fun x => x.1 ≠ r.job) })).dropAsks (fun q => decide (q.key = k) && decide (q.job = r.job))).dimField
      (k / coresPerField)

/-- R155, R396: what the agent of an engine that runs no more had to do is dropped. -/
def State.stopAgent (s : State) (k e : Nat) : State :=
  let v := s.engine k e
  let s1 := if v.agentBusy then s.updPower (k / coresPerField) (fun p => { p with progBusy := p.progBusy - 1 }) else s
  (s1.updEngine k e (fun w => { w with
    rowsLeft := [], queue := w.queue.filter (fun m => m.seq.isSome), done := w.done.filter (fun x => x.2.seq.isSome) })).dropAsks
    (fun q => decide (q.key = k) && decide (q.engine = e))

/-- R171: without a working spare the core's work is to move, while the core serves on; a due engine is meanwhile refreshed in place
under a barrier of its partition, the policy `hold`. -/
def State.noSpareRefresh (s : State) (k e : Nat) : State :=
  let ed := (s.core k).edition
  let s0 := s.event evSpareLow (packedCore k)
  let s1 : State := if s0.plan.outUnits.any (fun u => u.unit = packedCore k) then s0
    else { s0 with plan := { s0.plan with outUnits := s0.plan.outUnits ++ [{ unit := packedCore k, kind := .core, serves := true }] } }
  if (s.engine k e).arrays.vals.any (fun a => a.refDue) ∧ (s.part (s.edition ed).partition).refreshPolicy = 0
      ∧ (s.edition ed).rolling.isNone then
    s1.updEdition ed (fun v => { v with rolling := some { base := ed, refresh := true } })
  else s1

/-- R173: the engine of a core whose refresh holds a working spare that the repair of another may take: one that is no repair and not
at its swap. -/
def State.spareTaken (s : State) (k : Nat) : Option Nat :=
  (s.core k).engines.entries.findSome? (fun v => match v.2.refresh with
    | some r => if 0 < r.phase ∧ r.phase < 7 ∧ !r.repair ∧ !r.inPlace then some v.1 else none
    | none => none)

/-- R173: the engine of a retired array is replaced by a working spare of the core, but for `avoid` if there is another; a refresh
that holds the last one gives it up. Where no working spare is left the core's work moves. -/
def State.replaceEngine (s : State) (k e : Nat) (avoid : Option Nat := none) : State :=
  match (s.freeSpares k).find? (fun p => some p ≠ avoid), s.freeSpare k, s.spareTaken k with
  | some p, _, _ => s.startRefresh k e p true
  | none, some p, _ => s.startRefresh k e p true
  | none, none, some o =>
    let t := s.dropRefresh k o
    match t.freeSpare k with
    | some p => t.startRefresh k e p true
    | none => s.noSpareRefresh k e
  | none, none, none => s.noSpareRefresh k e

/-- R172: a serving engine fails: a spare whose refresh of it is past phase 6 takes over at the swap that waits; else the refresh is
abandoned, and the other spare replaces it. -/
def State.failedServing (s : State) (k e : Nat) : State :=
  match (s.engine k e).refresh with
  | some r => if r.phase = 7 then s else (s.dropRefresh k e).replaceEngine k e (if r.phase = 0 then none else some r.spare)
  | none => s.replaceEngine k e

/-- R172, R173: an array of engine `e` has been retired: the engine is replaced if it serves an edition whose shards name the array;
a spare that fails during a refresh is left for the other spare. -/
def State.arrayRetired (s : State) (k e a : Nat) : State :=
  let c := s.core k
  let s1 := (s.updEngine k e (fun v => { v with rowsLeft := [] })).dropAsks (fun q => decide (q.key = k) && decide (q.engine = e))
  match c.engines.entries.find? (fun v => match v.2.refresh with
      | some r => decide (0 < r.phase ∧ r.spare = e ∧ v.1 ≠ e)
      | none => false) with
  | some owner => (s1.updEngine k owner.1 (fun v => { v with refresh := none })).replaceEngine k owner.1
  | none => match c.logicalOf e with
    | some l =>
      let target := placeEngine (c.placeId.getD k) l
      if c.edition ≠ 0 ∧ ((s.edition c.edition).namesArray target a ∨ s.poolArray c.edition target a) then s1.failedServing k e else s1
    | none => s1

/-! Defects (R173). -/

/-- R176: entries of the stuck list. -/
def stuckListSize : Nat := 524288

/-- R43, Table 6-4: a stuck cell that reads its target level is accepted and listed; none fits once the list is full. -/
def State.listStuck (s : State) (k e a row col : Nat) : State × Bool :=
  let key := arrayKey k e a
  let used := s.ledger.stuckCount + (s.ledger.waiting.filter (fun c => c.kind = jkStuck)).length
  if s.ledger.stuckList.contains (key, row, col) ∨ s.ledger.waiting.any (fun c => c.kind = jkStuck ∧ c.key = key ∧ c.vals = [row, col])
  then (s, true)
  else if used < stuckListSize then (s.journal { kind := jkStuck, key := key, vals := [row, col] }, true)
  else (s.event evStuckListFull (packedArray k e a), false)

/-- R43, R65: whether spare `i` of an array can carry a column: each of its stuck cells reads the level that the column has there
(log 157). -/
def Array.spareFits (a : Array) (map : List (BitVec 16)) (i col : Nat) : Bool :=
  a.stuck.entries.all (fun x => decide (x.1 % arrayColumns ≠ 1032 + i)
    || decide (a.level (x.1 / arrayColumns) (deliveredColumn map col) = x.2.toNat % 16))

/-- R67: whether a column is in use: one that holds no weight is at level 8 in every row (R48); reference columns are
(log 157). -/
def Array.columnUsed (a : Array) (map : List (BitVec 16)) (col : Nat) : Bool :=
  decide (1024 ≤ col) || (List.range arrayRows).any (fun r => decide (a.level r (deliveredColumn map col) ≠ 8))

/-- R65: a column map with a column on its first free spare that can carry it, in place of one that cannot; none when all 8 are
used or unfit. -/
def Array.freeSpare (a : Array) (now map : List (BitVec 16)) (col : Nat) : Option (List (BitVec 16)) :=
  let m := (List.range 8).map (fun i => map.getD i 0)
  let m1 := match spareOf m col with
    | some i => m.set i 0
    | none => m
  ((List.range 8).find? (fun i => (mapColumn (m1.getD i 0)).isNone && decide (spareOf m col ≠ some i) && a.spareFits now i col)).map
    (fun i => m1.set i (BitVec.ofNat 16 (0x8000 + col)))

/-- R67: the same, giving up the replacements of columns that the placed layer does not use where no spare is free. -/
def Array.mapSpare (a : Array) (now map : List (BitVec 16)) (col : Nat) : Option (List (BitVec 16)) :=
  (a.freeSpare now map col).or (a.freeSpare now (map.map (fun e => match mapColumn e with
    | some c => if a.columnUsed now c then e else 0
    | none => e)) col)

/-- R43: the column whose code a physical column's cells make: its own, or the one that a spare replaces. -/
def servedColumn (map : List (BitVec 16)) (col : Nat) : Option Nat :=
  if col < 1032 then (if (spareOf map col).isSome then none else some col) else (map[col - 1032]?).bind mapColumn

/-- R65, R173, R175: rows `rs` of an array are programmed again from their source as one repair job, with those the agent already
holds for it; an array without work waits for its next programming. -/
def State.repairRows (s : State) (k e a : Nat) (rs : List Nat) : State :=
  match s.rowsOf k e with
  | none => s
  | some (ed, target) =>
    let job := s.ledger.nextJob
    let left := (s.engine k e).rowsLeft.map (fun x => x.2.1)
    let s1 := s.takeJob.updEngine k e (fun v => { v with
      rowsLeft := v.rowsLeft.map (fun x => if x.2.1 / arrayRows = a then (job, x.2.1, x.2.2) else x) })
    s1.queueSourced k e job ed target ((rs.map (fun x => arrayRows * a + x)).filter (fun x => !left.contains x))

/-- R43, R65, R67, R173: an array's stuck cells, and columns `more` handled as ones with a stuck cell: accepted cells are listed; a
column with a cell off target takes a spare column, which is programmed in every row as one repair job. With no spare left for a
column in use the array is retired-defect; a column not in use takes one only where one is free. -/
def State.absorb (s : State) (k e a : Nat) (more : List Nat := []) : State :=
  let arr := s.array k e a
  let map := arr.progMap
  let r := arr.stuck.entries.foldl (fun (t : State × List Nat) x =>
    let row := x.1 / arrayColumns
    let cols := (servedColumn map (x.1 % arrayColumns)).toList
    if x.2.toNat % 16 = arr.level row (x.1 % arrayColumns) then
      let q := t.1.listStuck k e a row (x.1 % arrayColumns)
      (q.1, if q.2 then t.2 else cols.foldl (fun l c => insertNat c l) t.2)
    else (t.1, cols.foldl (fun l c => insertNat c l) t.2)) (s, more)
  match (r.2.filter (arr.columnUsed map)).foldl (fun m c => m.bind (fun x => arr.mapSpare map x c)) (some map) with
  | none => if r.1.arrayWaits k e a jwState then r.1 else r.1.journalArray k e a jwState 1
  | some m1 =>
    let m := (r.2.filter (fun c => !arr.columnUsed map c)).foldl (fun x c => (arr.freeSpare map x c).getD x) m1
    if m = map then r.1
    else (r.1.journalArray k e a jwMap 0 (m.map (fun x => x.toNat))).repairRows k e a (List.range arrayRows)

/-! Trims (R164 to R167). -/

/-- R164: the input of row `r`, 0 to 1023, in firing `p` of a trim sample. -/
def calInput (p r : Nat) : Int :=
  let n := 4 + 4 * (p / 32)
  if r / 64 ≠ p % 16 ∨ n ≤ r % 64 then 0
  else
    let m : Int := 1 + ((7 * (r % 64) + 13 * p) % 15 : Nat)
    if p / 16 % 2 = 1 then -m else m

/-- R164: the mode word of a trim sample. -/
def trimMode : ModeWord := ModeWord.ofNat 0x00000534

/-- R164: the firings of a sample; a reload's trims come from a single one (R156, log 143). -/
def Array.sampleFirings (a : Array) : List Nat := if a.reload then [Config.reloadFiring % 256] else List.range 256

/-- R164: the observations of a reference column in a sample: (32 c, v, X) for each firing. -/
def trimObs (ctr : Nat) (a : Array) (col : Nat) : List (Int × Int × Int) :=
  a.sampleFirings.map (fun p =>
    let q := (List.range 1024).map (fun r => calInput p r)
    (32 * (columnCode (ctr + p) a trimMode trimMode.k q col).1, columnValue q (fun r => refLevel col r), q.foldl (· + ·) 0))

/-- Sums of products over observations. -/
def obsSum (l : List (Int × Int × Int)) (g : Int × Int × Int → Int) : Int := (l.map g).foldl (· + ·) 0

/-- A fit y = (A v + Z X) / D by least squares. -/
structure TrimFit where
  a : Int
  z : Int
  d : Int
deriving DecidableEq, Repr

/-- R164 step 2: the fit over columns 1024 to 1028. -/
def trimFit (ctr : Nat) (a : Array) : TrimFit :=
  let l := [1024, 1025, 1026, 1027, 1028].flatMap (trimObs ctr a)
  let vv := obsSum l (fun o => o.2.1 * o.2.1)
  let vx := obsSum l (fun o => o.2.1 * o.2.2)
  let xx := obsSum l (fun o => o.2.2 * o.2.2)
  let yv := obsSum l (fun o => o.1 * o.2.1)
  let yx := obsSum l (fun o => o.1 * o.2.2)
  { a := yv * xx - yx * vx, z := yx * vv - yv * vx, d := vv * xx - vx * vx }

/-- A quotient rounded to nearest, halves away from zero (the rounding of R164's "round" is this model's reading, log 30). -/
def roundQuot (n d : Int) : Int :=
  if d = 0 then 0 else if (0 ≤ n) = (0 < d) then (2 * n.natAbs + d.natAbs : Nat) / (2 * d.natAbs : Nat)
  else -((2 * n.natAbs + d.natAbs : Nat) / (2 * d.natAbs : Nat) : Int)

/-- R63: a record of trims held to their limits. -/
def trimRecord (g z : Int) : Word :=
  BitVec.ofNat 32 (bitsOf 16 (max (-1024) (min 1024 z)) * 65536 + bitsOf 16 (max (-4096) (min 4096 g)))

/-- R63: whether a trim stands on a limit. -/
def trimOnLimit (w : Word) : Bool := decide ((trimGain w).natAbs = 4096) || decide ((trimZero w).natAbs = 1024)

/-- R164 step 3: the trims after a fit. -/
def trimAfter (w : Word) (f : TrimFit) : Word :=
  trimRecord (trimGain w - roundQuot ((f.a - f.d) * 2 ^ 15) f.d) (trimZero w + roundQuot (f.z * 2 ^ 10) f.d)

/-- R164: whether the residual of columns 1029 to 1031 exceeds 1.5 codes RMS: observations of 32 c in units of 1/32 code. -/
def trimResidual (ctr : Nat) (a : Array) (f : TrimFit) : Bool :=
  let l := [1029, 1030, 1031].flatMap (trimObs ctr a)
  decide ((l.length : Int) * (48 * f.d) * (48 * f.d) < obsSum l (fun o =>
    let r := o.1 * f.d - f.a * o.2.1 - f.z * o.2.2
    r * r))

/-- R164: a field's mean working-sensor reading in whole degrees, rounded down (log 30). -/
def Field.meanTemp (f : Field) : Int :=
  let w := f.working
  if w.isEmpty then 95 else codeDeg ((w.map Sensor.code).sum / w.length)

/-- R167: whether the drift of an array's trims makes it due at once. -/
def Array.drifted (a : Array) : Bool :=
  let dg := trimGain a.sampled - trimGain a.birth - 39 * (a.tTrim - a.tBirth)
  let dz := trimZero a.sampled - trimZero a.birth
  decide (1638 < dg.natAbs) || decide (307 < dz.natAbs)

/-- R164 to R167: what the second pass of a sample leaves: `trim`, the birth trims after a full programming, and an early due
date; `res` says whether the residual was too large. -/
def State.keepTrim (s : State) (k e a : Nat) (w : Word) (res : Bool) : State :=
  let t := (s.field (k / coresPerField)).meanTemp
  let s1 := s.updArray k e a (fun v =>
    let full := decide (v.jobRows.length = arrayRows)
    { v.shadowed w v.progMap with
      samplePass := false, trimmed := true, sampled := w, tTrim := t, sampledAt := s.stamp
      birth := if full then w else v.birth
      tBirth := if full then t else v.tBirth })
  let s2 := s1.journalArray k e a jwTrim w.toNat
  let d := (s2.array k e a).drifted
  let s3 := if res ∨ d then s2.event evDriftEarly (packedArray k e a) else s2
  if d then s3.arrayDue k e a else s3

/-- One pass of a sample: the trims it fits, and whether its residual is too large. -/
def State.samplePass (s : State) (k e a : Nat) : State × Word × Bool :=
  let v := s.array k e a
  let f := trimFit s.free v
  ({ s with free := s.free + 512 }, trimAfter v.trim f, trimResidual (s.free + 256) v f)

/-! Settling and the end of a job (R143, R162). -/

/-- R143: ns after a row's program before its re-verify. -/
def settleNs : Nat := 120 * 10 ^ 9

/-- R143, R145: whether every row of an array's job has been re-verified and its trims taken; a reload's rows need no re-verify
(R156). -/
def Array.settled (a : Array) : Bool := (a.reload || a.jobRows.all (fun r => a.verified.contains r)) && a.trimmed

/-- R162: ends an array's job; `stamp` follows a job that programmed every row. -/
def State.closeJob (s : State) (k e a : Nat) : State :=
  let v := s.array k e a
  let s1 := if v.jobRows.length = arrayRows then
      s.journalArray k e a jwStamp ((s.field (k / coresPerField)).ageAcc / 2 ^ 16)
    else s
  s1.updArray k e a (fun v => { v with job := 0, jobRows := [], verified := [], reprog := [], jobTwice := false, reload := false })

/-- R170 phases 6 and 7: once the spare's arrays are trimmed their jobs end, and the swap waits for its commit and the release. -/
def State.refreshTrimmed (s : State) (k e : Nat) : State :=
  match (s.engine k e).refresh with
  | none => s
  | some r =>
    if r.phase ≠ 6 ∨ !(s.engine k r.spare).arrays.vals.all (fun a => a.trimmed || decide (a.state = 1 ∨ a.state = 2)) then s
    else
      let s1 := (s.engine k r.spare).arrays.keys.foldl (fun (t : State) a => t.closeJob k r.spare a) s
      let s2 := s1.updEngine k e (fun v => { v with refresh := some { r with phase := 7 } })
      (if r.inPlace then s2.updEngine k e (fun v => { v with refresh := none })
        else s2.journal { kind := jkCore, key := k, what := jwEmap
                          vals := (s2.core k).emap.map (fun x => if x = e then r.spare else x) }).dimField (k / coresPerField)

/-- R170: a refresh goes on once the agent has no more rows for its spare, and, in phase 5, once every row is verified. -/
def State.refreshRowsDone (s : State) (k spare : Nat) : State :=
  match s.refreshOwner k spare with
  | none => s
  | some (e, r) =>
    let v := s.engine k spare
    if !v.rowsLeft.isEmpty ∨ v.agentBusy ∨ s.asked k spare then s
    else if r.phase = 3 then
      let r1 : Refresh := { r with phase := 4, settleAt := BitVec.ofNat 64 (s.now + settleNs) }
      s.updEngine k e (fun v => { v with refresh := some r1 })
    else if r.phase = 5 ∧ v.arrays.vals.all (fun a => a.jobRows.all (fun x => a.verified.contains x)) then
      (s.updEngine k e (fun v => { v with refresh := some { r with phase := 6 } })).refreshTrimmed k e
    else s

/-- R39, R190: the credits that a window holds back in a field, and those of them that no work outside the plan has taken. -/
def State.heldAll (s : State) (f : Nat) : Nat := ceilDiv (s.plan.w / 100 * ((s.power f).allow / 10)) 16
def State.heldLeft (s : State) (f : Nat) : Nat :=
  let p := s.power f
  s.heldAll f - (if p.heldUse.1 = s.plan.window then p.heldUse.2 else 0)

/-- R39, R165: takes up to `n` credits for work outside the plan: those the bucket holds, and in service no more than `room`; the
second part says how many. -/
def State.takeRoom (s : State) (f n room : Nat) : State × Nat :=
  let most := if s.serving then Nat.min (s.power f).bucket room else (s.power f).bucket
  let take := Nat.min n most
  (s.updPower f (fun p => { p with
    bucket := p.bucket - take
    heldUse := (s.plan.window, (if p.heldUse.1 = s.plan.window then p.heldUse.2 else 0) + take) }), take)

/-- R39, R165: the same from the held-back allowance of this window. -/
def State.takeHeld (s : State) (f n : Nat) : State × Nat := s.takeRoom f n (s.heldLeft f)

/-- R376: the same for the firings of self-tests, which take at most a quarter of the credits held back in any window. -/
def State.takeQuarter (s : State) (f n : Nat) : State × Nat :=
  let u := (s.power f).testUse
  let used := if u.1 = s.plan.window then u.2 else 0
  let q := s.takeRoom f n (Nat.min (s.heldLeft f) (s.heldAll f / 4 - used))
  (q.1.updPower f (fun p => { p with testUse := (s.plan.window, used + q.2) }), q.2)

/-- R164, R372: a whole sample at once, in bring-up, where no firing uses the array's trims: the second pass runs under the first's
trims, and the result is loaded at a release (log 146). -/
def State.sampleWhole (s : State) (k e a : Nat) : State :=
  let w := (s.array k e a).trim
  let p := s.samplePass k e a
  let q := (p.1.updArray k e a (fun v => { v with trim := p.2.1 })).samplePass k e a
  (q.1.updArray k e a (fun v => { v with trim := w })).keepTrim k e a q.2.1 q.2.2

/-- R170, R173: what the end of a sample means for a refresh of the array's engine: a trim on a limit right after it retires the
array, and the last array trimmed ends phase 6. -/
def State.sampleOfRefresh (s : State) (k e a : Nat) (w : Word) : State :=
  match s.refreshOwner k e with
  | none => s
  | some (o, r) =>
    if r.phase ≠ 6 then s
    else if (trimOnLimit w) ∧ !s.arrayWaits k e a jwState then s.journalArray k e a jwState 1
    else s.refreshTrimmed k o

/-- R164, R165: a pass of a sample whose credits are paid: the first pass loads its trims at the next release, the second, or a
reload's only one, keeps them. -/
def State.samplePassDone (s : State) (k e a : Nat) : State :=
  let n := (s.array k e a).sampleFirings.length
  let s1 := (s.countField (k / coresPerField) fcSegEvals n).updArray k e a (fun v =>
    { v with firings := if s.counting then satCount v.firings n else v.firings, samplePaid := 0 })
  let r := s1.samplePass k e a
  if (s.array k e a).samplePass ∨ (s.array k e a).reload then (r.1.keepTrim k e a r.2.1 r.2.2).sampleOfRefresh k e a r.2.1
  else r.1.updArray k e a (fun v => { v.shadowed r.2.1 v.progMap with samplePass := true })

/-- TRIM_SAMPLE (R156, R164, R165): one pass of 256 firings, that of a reload in the last window of its span, whose credits come from the held-back allowance (R39), over several windows
where one does not hold enough. -/
def execTrimSample (c : CoreRef) (e a : Nat) (s : State) : Out :=
  let k := c.key
  let v := s.array k e a
  let f := c.field
  .next (if !(c.ok && s.powered && decide (e < enginesPerCore) && decide (a < arraysPerEngine)) then s
    else if v.state = 1 ∨ v.state = 2 ∨ (s.engine k e).fenced ∨ (s.field f).fenced ∨ 4 ≤ (s.engine k e).queue.length
        ∨ (v.samplePass ∧ v.shadow.isSome) ∨ (v.reload ∧ s.spanEarly k e) then s
    else if !(s.field f).awake then s.beginWake f
    else
      let n := v.sampleFirings.length
      let q := s.takeHeld f (n - v.samplePaid)
      if v.samplePaid + q.2 < n then
        (q.1.countField f fcStallWaits 1).updArray k e a (fun w => { w with samplePaid := v.samplePaid + q.2 })
      else q.1.samplePassDone k e a)

/-- R142, R143: the completion of an agent's row program. -/
def State.agentDone (s : State) (k e : Nat) (m : Cmd) : State :=
  let f := k / coresPerField
  let a := maintArray m.bytes
  let row := maintRow m.bytes
  let s1 := s.updPower f (fun p => { p with progBusy := p.progBusy - 1 })
  let s2 := (s1.updArray k e a (fun v => { v with trimmed := false, samplePass := false, samplePaid := 0
                                                  verified := v.verified.filter (fun x => x ≠ row) })).absorb k e a
  ((s2.agentIssue k e).agentsOf f).refreshRowsDone k e

/-- ENGINE_COMPLETION (R42, R43, R82, R111): an engine's completion enters the completion queue of its core; that of the programming
agent goes to the agent. A core's own row program wears its array by a cycle, and its stuck cells are handled too (log 140). -/
def execEngineCompletion (c : CoreRef) (e : Nat) (s : State) : Out :=
  .next (match (s.engine c.key e).done with
    | none => s
    | some (w, m) =>
      if c.ok ∧ e < enginesPerCore then
        let s1 := s.updEngine c.key e (fun v => { v with done := none })
        if m.seq.isNone then s1.agentDone c.key e m
        else ((if natAt m.bytes 0 1 = 2 ∧ w.toNat / 2 ^ 24 ≠ csBadCmd ∧ w.toNat / 2 ^ 24 ≠ csPoisonIn then
          (s1.journalArray c.key e (maintArray m.bytes) jwCycle 0).absorb c.key e (maintArray m.bytes) else s1).complete c.key w m)
      else s)

/-- REFRESH_SETTLE_DONE (R170): after 120 s the spare is read back; rows with cells off target (engine row, column, level) are
programmed once more and read back at once (ROW_REVERIFY), and the spare is then trimmed. -/
def execRefreshSettleDone (c : CoreRef) (e : Nat) (bad : List (Nat × Nat × Nat)) (s : State) : Out :=
  let k := c.key
  .next (match (s.engine k e).refresh with
    | none => s
    | some r =>
      if !(c.ok && s.powered && decide (r.phase = 4) && decide (r.settleAt.toNat ≤ s.now)) then s
      else if !(s.field c.field).awake then s.beginWake c.field
      else
        let rows := bad.foldl (fun l x => insertNat x.1 l) []
        let s1 := (s.updEngine k e (fun v => { v with refresh := some { r with phase := 5 } })).updEngine k r.spare (fun v => { v with
          arrays := v.arrays.mapVals (fun a w => { w with
            verified := w.jobRows.filter (fun x => w.verified.contains x || !rows.contains (arrayRows * a + x)) }) })
        (match s1.rowsOf k r.spare with
          | some (ed, target) => s1.queueSourced k r.spare r.job ed target rows
          | none => s1).refreshRowsDone k r.spare)

/-- ROW_REVERIFY (R143): a row settled for 120 s is read back; cells more than 0.3 level off (column, level) have it programmed
once more, after which such cells are stuck cells. A forerunner's reload rows are not re-verified (R156). -/
def execRowReverify (c : CoreRef) (e a row : Nat) (off stuck : List (Nat × Nat)) (s : State) : Out :=
  let k := c.key
  let v := s.array k e a
  let again := v.reprog.contains row
  .next (if !(c.ok && s.powered && decide (e < enginesPerCore) && decide (a < arraysPerEngine)) || v.reload || !v.jobRows.contains row
      || v.verified.contains row || (s.engine k e).rowsLeft.any (fun r => r.2.1 = 1024 * a + row)
      || (s.engine k e).agentBusy then s
    else if !(again || decide (settleNs ≤ s.since (v.progAt.find row 0))) then s
    else if off.isEmpty ∨ again then
      let cells := stuck ++ (if again then off else [])
      let s1 := s.updArray k e a (fun w => { w with
        verified := insertNat row w.verified
        stuck := cells.foldl (fun m x => m.put (row * arrayColumns + x.1) (BitVec.ofNat 8 x.2)) w.stuck })
      (s1.absorb k e a).refreshRowsDone k e
    else s.queueRows k e v.job [(1024 * a + row, v.rowBytes v.progMap row)])

/-- R156: whether a slot's layer has been reloaded since its span began, every row programmed and the trims sampled. -/
def State.layerLoaded (s : State) (x : Slot) : Bool :=
  (s.edition x.edition).reloads.any (fun r => decide (r.1 = x.layer) && decide (x.spanAt.toNat ≤ r.2.toNat))
    && (Config.forerunnerRows x.edition x.layer).all (fun r =>
      let at' := s.engineOfTarget r.2.1
      let v := s.engine at'.1 at'.2
      v.rowsLeft.isEmpty && !v.agentBusy && (s.array at'.1 at'.2 (r.2.2 / arrayRows)).trimmed)

/-- R156: whether a slot that no earlier batch keeps back is in the reload span of a layer. -/
def State.spanOpen (s : State) (ed layer : Nat) : Bool :=
  s.plan.slots.any (fun x => decide (x.edition = ed) && decide (x.layer = layer) && decide (x.wait ≠ 0) && !s.spanBlocked x)

/-- FORERUNNER_RELOAD (R156, R273): in the reload span of a layer its rows are loaded into the pool cores' scratchpads (log 143) and handed
to the agents of the pool engines, as one job; rows that read poisoned are programmed as they read (log 137) and make the step suspect. -/
def execForerunnerReload (ed layer : Nat) (s : State) : Out :=
  let e := s.edition ed
  .next (if s.serving && decide (e.kind = .forerunner)
      && decide (e.state = .ready ∨ e.state = .current ∨ e.state = .retained ∨ e.state = .retiring) && s.spanOpen ed layer then
    let job := s.ledger.nextJob
    let rows := s.forerunnerLayer ed layer
    let s1 := (s.layerTouched ed layer (fun _ => true)).takeJob.updEdition ed (fun v => { v with
      reloads := v.reloads.filter (fun x => s.since x.2 < 86400 * 10 ^ 9) ++ [(layer, s.stamp)] })
    let s2 : State := { s1 with plan := { s1.plan with slots := s1.plan.slots.map (fun x =>
      if x.edition = ed ∧ x.layer = layer ∧ x.wait ≠ 0 then { x with badLoad := rows.any (fun r => spPoison r.2.2) } else x) } }
    rows.foldl (fun (t : State) r =>
      let at' := t.engineOfTarget r.1
      let t1 := t.spWrite at'.1 (Config.reloadBuffer (coreKey 0 (at'.1 % coresPerField)) at'.2 r.2.1) r.2.2
      (t1.updArray at'.1 at'.2 (r.2.1 / arrayRows) (fun v => { v with reload := true, trimmed := false })).queueRows at'.1 at'.2 job
        [(r.2.1, r.2.2.map Prod.fst)]) s2
  else s)

end Sys2Proof.Machine
end

