-- ==== Sys2Proof/Machine/Upkeep.lean ====
section
/-! DEFINITION. Upkeep of scratchpads and stacks: scrub (R98) and line remap (R99), patrol (R270) and granule remap (R271),
region fills (R262), cleared extents (R353), cleared cores (R352) and stack failover (R257). -/

namespace Sys2Proof.Machine

/-- R249: the lines of a power bank, and whether each has been written. -/
def Scratch.bankWritten (p : Scratch) (bank : Nat) : Bool :=
  (p.written.filter (fun l => decide (l * spLine / spBank = bank))).length == 4096

/-- R98, R101, R249: whether scrub reads a line now. -/
def Scratch.scrubs (p : Scratch) (line : Nat) : Bool :=
  let bank := line * spLine / spBank
  (p.filled || decide (p.written.length = 32768)) && !p.gated.getLsbD bank
    && (!p.voidBanks.getLsbD bank || p.bankWritten bank)

/-- R98: scrub runs while the field is in LIT, IDLE or DIM. -/
def Field.scrubRuns (f : Field) : Bool := f.power.converterOn && decide (f.sleep.depth ≤ 2) && f.wakeAt.isNone

/-- R98: rewrites a corrected byte in place, and watches its first read. -/
def Scratch.rewrite (p : Scratch) (a : Nat) (b : SpByte) : Scratch :=
  match b.fixed with
  | some pos => { (p.store (p.phys a) (eccWord b.byte)) with rewrote := p.rewrote ++ [(a, pos)] }
  | none => p

/-- SCRUB_PASS (R98): background scrub reads a line, rewrites what needed correction and marks the line hard-failed. -/
def execScrubPass (c : CoreRef) (line : Nat) (s : State) : Out :=
  let k := c.key
  let p := (s.core k).sp
  .next (if c.ok && decide (line < 32768) && s.powered && (s.field c.field).scrubRuns && p.scrubs line then
    let a := line * spLine
    let v := p.view k a spLine
    (s.spTouched k a spLine).updSp k (fun q =>
      { ((List.range spLine).zip v).foldl (fun (q : Scratch) b => q.rewrite (a + b.1) b.2) q with
        scrubbed := q.scrubbed.put line s.stamp })
  else s)

/-- LINE_REMAP_COPY_DONE (R99): the copy of a hard-failed line to its spare line completes; the entry waits for its commit and
the next release. -/
def execLineRemapCopyDone (c : CoreRef) (line : Nat) (s : State) : Out :=
  let k := c.key
  .next (match (s.core k).sp.copying.find? (fun r => r.line = line) with
    | none => s
    | some r =>
      if c.ok && s.powered then
        let v := (s.core k).sp.view k (line * spLine) spLine
        ((s.spTouched k (line * spLine) spLine).updSp k (fun p =>
          let q := ((List.range spLine).zip v).foldl (fun (q : Scratch) b =>
            q.store ((32768 + r.spare) * spLine + b.1)
              (if b.2.poison then eccWord b.2.byte ^^^ eccPoison else eccWord b.2.byte)) p
          { q with copying := q.copying.filter (fun x => x.line ≠ line), waiting := q.waiting ++ [r] })).journal
            { kind := jkCore, key := k, what := jwRemap, vals := [line, r.spare] }
      else s)

/-- R277, R413: patrol, remap copies, clears and fills pause from the moment a stop takes hold until it ends; a stack whose
active attach field is in COLD is not reached (R257). -/
def State.stackBackground (s : State) (k : Nat) : Bool :=
  s.powered && !s.stopHolds && (s.stack k).trained && !(s.stack k).void
    && (match s.attachField k with
      | some f => decide ((s.field f).sleep ≠ .cold)
      | none => false)

/-- The regions of the module: of partitions and of editions. -/
def State.allRegions (s : State) : List Region :=
  s.parts.vals.flatMap (fun p => p.regions.vals) ++ s.editions.vals.flatMap (fun e => e.regions.vals)

/-- R262: the regions whose fill has not completed. -/
def State.fillsOpen (s : State) : List Region := s.allRegions.filter (fun r => r.filling.isSome)

/-- R262: whether a region's fill is the first accepted of those that run on its stacks. -/
def State.fillTurn (s : State) (r : Region) : Bool :=
  s.fillsOpen.all (fun x => decide (r.fillAt ≤ x.fillAt) || !(x.stackSet.any r.stackSet.contains))

/-- Whether a region has an extent on a stack. -/
def Region.covers (r : Region) (k extent : Nat) : Bool :=
  (r.stackSet.zip r.extents).any (fun p => decide (p.1 = k) && p.2.contains extent)

/-- PATROL (R270): reads a codeblock of an initialised region and rewrites it if it needed correction. -/
def execPatrol (k cb : Nat) (s : State) : Out :=
  .next (if decide (k < stackCount) && s.stackBackground k
      && s.allRegions.any (fun r => r.inited && !r.void && r.covers k (cb / cbPerExtent)) then
    let r := (s.stack k).read k cb
    ((s.countStack k scPatrolCb 1).cbChecked k cb r).updStack k (fun t => { t with patrolled := t.patrolled.put cb s.stamp })
  else s)

/-- R271: copies codeblock `i` of a granule to its spare, through the decoder; a void read leaves its place as it is. -/
def State.copyCb (s : State) (k g spare i : Nat) : State :=
  let r := (s.stack k).read k (g * cbPerGranule + i)
  if (s.stack k).void then s
  else (s.cbChecked k (g * cbPerGranule + i) r).updStack k (fun u => u.storeCb (cbPerStack + spare * cbPerGranule + i) r.data r.poison)

/-- GRANULE_REMAP (R271): the copy of a hard-failed granule completes; its entry takes effect at the next release. -/
def execGranuleRemap (k g : Nat) (s : State) : Out :=
  .next (match (s.stack k).copying.find? (fun e => e.granule = g) with
    | none => s
    | some e =>
      if decide (k < stackCount) && s.stackBackground k then
        ((List.range cbPerGranule).foldl (fun (t : State) i => t.copyCb k g e.spare i) s).updStack k (fun u =>
          { u with copying := u.copying.filter (fun x => x.granule ≠ g), waiting := u.waiting ++ [e] })
      else s)

/-- Whether a stored codeblock belongs to an extent: in place, or in the spare granule of one of its granules. -/
def Stack.inExtent (t : Stack) (x pcb : Nat) : Bool :=
  if pcb < cbPerStack then decide (pcb / cbPerExtent = x)
  else (t.remap ++ t.copying ++ t.waiting).any (fun e =>
    decide (e.spare = (pcb - cbPerStack) / cbPerGranule) && decide (e.granule * cbPerGranule / cbPerExtent = x))

/-- R262, R353: writes zero to every codeblock of an extent, with clean check bytes and poison flags. -/
def Stack.zeroExtent (t : Stack) (x : Nat) : Stack :=
  { t with
    mem := t.mem.drop (fun a => t.inExtent x (a / cbBytes))
    errs := t.errs.keep (fun a _ => !t.inExtent x (a / cbStored))
    parErr := t.parErr.filter (fun a => !t.inExtent x (a / cbStored))
    flags := t.flags.keep (fun p _ => !t.inExtent x p)
    rewrote := t.rewrote.filter (fun r => r.1 / cbPerExtent ≠ x)
    writtenCb := if t.filled then t.writtenCb
      else (List.range cbPerExtent).foldl (fun l i => insertNat (x * cbPerExtent + i) l) t.writtenCb }

/-- The bytes that tell a region's stack set (R332): [23:0]. -/
def stackSetBytes (l : List Nat) : List Byte := leBytes 4 ((l.map (fun k => 2 ^ k)).sum)

/-- R272: the codeblocks of an extent whose poison flag is set. -/
def Stack.poisonIn (t : Stack) (x : Nat) : Nat := (t.flags.keys.filter (fun c => t.inExtent x c && t.flag c)).length

/-- R262, R272, R353: an extent is written with zeros, and the poison this clears is counted, for a partition where one is named. -/
def State.zeroAt (s : State) (k x : Nat) (p : Option Nat) : State :=
  let n := (s.stack k).poisonIn x
  let s1 := s.updStack k (fun t => t.zeroExtent x)
  if n = 0 then s1
  else match p with
    | some p => (s1.countStack k scPoisonCleared n).countPart p pcPoisonCleared n
    | none => s1.countStack k scPoisonCleared n

/-- R257, R262: a region's share of a stack is written with zeros; on a lost stack the writes are void and counted. -/
def State.zeroShare (s : State) (k : Nat) (ext : List Nat) (p : Nat) : State :=
  if (s.stack k).link = .lost then
    s.updStack k (fun t => { t with voidWrites := t.voidWrites + ext.length * cbPerExtent })
  else ext.foldl (fun (t : State) x => t.zeroAt k x (some p)) s

/-- REGION_FILL_DONE (R262, R413): the zero fill of a region completes, after those accepted before it on its stacks and not while a
stop holds or a stack of its set fails over; it is initialised and `MM_CREATE` gets its final `OK`. -/
def execRegionFillDone (p sel : Nat) (s : State) : Out :=
  .next (match (s.part p).regions.find? sel with
    | none => s
    | some r => match r.filling with
      | none => s
      | some (conn, tag) =>
        if s.powered && !s.stopHolds && s.fillTurn r
            && r.stackSet.all (fun k => !(s.stack k).void || decide ((s.stack k).link = .lost)) then
          let s1 := (r.stackSet.zip r.extents).foldl (fun (t : State) e => t.zeroShare e.1 e.2 p) s
          (s1.updPart p (fun v => { v with regions := v.regions.put sel { r with inited := true, filling := none } })).finish
            conn tag stOk 0 none (stackSetBytes r.stackSet)
        else s)

/-- EXTENT_CLEARED (R353): the zero writing of an extent completes, and it becomes free. -/
def execExtentCleared (k extent : Nat) (s : State) : Out :=
  .next (if decide (k < stackCount) && s.stackBackground k && (s.stack k).clearing.contains extent then
    (s.zeroAt k extent none).updStack k (fun t => { t with
      clearing := t.clearing.filter (fun x => x ≠ extent), used := t.used.filter (fun x => x ≠ extent), owner := t.owner.erase extent })
  else s)

/-- R42, R352: an array of a core that is cleared: every row is programmed to level 8. -/
def Array.cleared (a : Array) (now : U64) : Array :=
  (List.range arrayRows).foldl (fun (b : Array) r => b.programRow r levelEightRow [] now true) { a with trimmed := false }

/-- R352: the arrays that a clear programs, (engine, array): those not retired. -/
def State.clearArrays (s : State) (k : Nat) : List (Nat × Nat) :=
  ((List.range enginesPerCore).flatMap (fun e => (List.range arraysPerEngine).map (fun a => (e, a)))).filter (fun x =>
    decide ((s.array k x.1 x.2).state = 0))

/-- R248, R249, R352: the zero fill of a scratchpad: gated banks are not written, and read poisoned once they are ungated. -/
def Scratch.zeroFill (p : Scratch) : Scratch :=
  { p with mem := {}, errs := .empty, filled := true, written := [], voidBanks := p.gated, rewrote := [] }

/-- R248, R352: the rows, the scratchpad and the stores of a core are cleared; writes that reach gated banks are counted and
reported. -/
def State.clearCore (s : State) (k : Nat) : State :=
  let s1 := (s.clearArrays k).foldl (fun (t : State) x => t.updArray k x.1 x.2 (fun v => v.cleared s.stamp)) s
  let s2 := s1.updCore k (fun v => { v with
    sp := v.sp.zeroFill, prog := .empty, progFill := 0, cmds := .empty, residents := [], edition := 0, entry := {}
    clearDone := true })
  if (s.core k).sp.gated = 0 then s2
  else (s2.countField (k / coresPerField) fcGatedWrites 1).event evGatedWrite (packedCore k)

/-- CORE_CLEAR (R159, R165, R352): a core that changes owner is cleared as one repair job: the wear raises of its arrays are
committed, then, at a concurrency above 0 (R142), its rows, scratchpad and stores are written, and the clear ends once the trims
of its arrays are sampled (log 122). -/
def execCoreClear (c : CoreRef) (s : State) : Out :=
  let k := c.key
  let f := c.field
  let v := s.core k
  let l := s.clearArrays k
  .next (if !(c.ok && s.powered && v.clearing) then s
    else if !(s.field f).awake then s.beginWake f
    else if v.clearDone then
      if !l.all (fun x => (s.array k x.1 x.2).trimmed) then s
      else ((l.foldl (fun (t : State) x => t.closeJob k x.1 x.2) s).updCore k (fun v => { v with
        clearing := false, clearJob := none, clearDone := false })).agentsOf f
    else match v.clearJob with
      | none => s.takeJob.updCore k (fun v => { v with clearJob := some s.ledger.nextJob })
      | some job =>
        let raise := l.filter (fun x => decide ((s.array k x.1 x.2).job ≠ job))
        if (s.power f).conc = 0 then s
        else if !raise.isEmpty then raise.foldl (fun (t : State) x => t.wearAsk k x.1 x.2 job false) s
        else if (List.range enginesPerCore).any (fun e => (s.engine k e).agentBusy) then s
        else s.clearCore k)

/-- STACK_FAILOVER (R257): the other link of a stack becomes active, if its field has not been fenced meanwhile (R277)
and has left COLD. -/
def execStackFailover (k : Nat) (s : State) : Out :=
  .next (if decide (k < stackCount) && s.powered && (s.stack k).switchAt.isSome && decide ((s.stack k).link ≠ .lost)
      && !(s.field (s.otherAttach k)).fenced && decide ((s.field (s.otherAttach k)).sleep ≠ .cold) then
    let s1 := s.updStack k (fun t => { t with
      link := if t.link = .home then .alternate else .home, switchAt := none })
    (s1.event evStackFailover k).reissueTable
  else s)

end Sys2Proof.Machine
end

