-- ==== Sys2Proof/Machine/Route.lean ====
section
/-! DEFINITION. What the fabric's packets take their way by: packet types and lanes (R282, R285, R286), the first link of a packet
(R289, R290), a job's packets and the tree of its ranks (R302). -/

namespace Sys2Proof.Machine

/-! Packet types (Table 10-7). -/
def ftWrite : Nat := 0x01
def ftAck : Nat := 0x02
def ftKvManifest : Nat := 0x08
def ftKvPage : Nat := 0x09
def ftKvDone : Nat := 0x0A
def ftKvNak : Nat := 0x0B
def ftArrive : Nat := 0x10
def ftRelease : Nat := 0x11
def ftPartial : Nat := 0x20
def ftResult : Nat := 0x21
def ftMcast : Nat := 0x30
def ftMcastStatus : Nat := 0x31
def ftProbe : Nat := 0x40
def ftReply : Nat := 0x41

/-- Table 10-7: whether a type is listed. -/
def typeListed (t : Nat) : Bool :=
  [ftWrite, ftAck, ftKvManifest, ftKvPage, ftKvDone, ftKvNak, ftArrive, ftRelease, ftPartial, ftResult, ftMcast, ftMcastStatus,
   ftProbe, ftReply].contains t

/-- Table 10-7: the first version that allows a type. -/
def typeSince (t : Nat) : Nat :=
  if t = ftKvManifest ∨ t = ftKvPage ∨ t = ftKvDone ∨ t = ftKvNak then 3
  else if t = ftMcast ∨ t = ftMcastStatus then 2 else 1

/-- Table 10-6: whether a type travels on VL2. -/
def isBulk (t : Nat) : Bool := decide (t = ftWrite ∨ t = ftKvPage ∨ t = ftPartial ∨ t = ftResult ∨ t = ftMcast)

/-- Table 10-6: the greatest payload of a type's packets: one flit on VL0, 256 bytes on VL1; a version's limit holds on VL2 too. -/
def lanePayload (t : Nat) : Nat :=
  if t = ftArrive ∨ t = ftRelease ∨ t = ftProbe ∨ t = ftReply then 32 else if isBulk t then 2048 else 256

/-- R285: flits of a packet; Table 10-12: greatest payload of a version. -/
def pktFlits (p : FabPkt) : Nat := ceilDiv (32 + p.payload.length) 64
def versionPayload (v : Nat) : Nat := if v ≤ 1 then 1024 else 2048

/-! Lanes (R282, R283). -/

/-- R281, R283: the good lanes of a port. -/
def Port.good (t : Port) : BitVec 8 := t.record.laneMask &&& ~~~ t.bad

/-- Lanes in a mask. -/
def laneCount (m : BitVec 8) : Nat := ((List.range 8).filter (fun i => m.getLsbD i)).length

/-- R282: the `n` lowest-numbered lanes of a mask. -/
def lowestLanes (m : BitVec 8) (n : Nat) : BitVec 8 :=
  ((List.range 8).filter (fun i => m.getLsbD i)).take n |>.foldl (fun b i => b ||| BitVec.twoPow 8 i) 0

/-- R282, Table 10-12: the width of a number of good lanes on a version. -/
def widthOf (version n : Nat) : Nat :=
  let widths := if version ≤ 1 then [8, 4] else if version = 2 then [8, 4, 2] else [8, 6, 4, 2, 1]
  (widths.find? (fun w => w ≤ n)).getD 0

/-- R282: a port's width, and the lanes that it uses, from its good lanes and its version. -/
def Port.train (t : Port) : Port :=
  let w := widthOf t.version (laneCount t.good)
  { t with width := w, lanes := lowestLanes t.good w }

/-- Table 10-3: payload rate of a width in bytes per ns. -/
def payloadRate (w : Nat) : Nat := 26 * w

/-- Table 10-3: flit time of a width, in 10^-4 ns. -/
def flitTime (w : Nat) : Nat :=
  if w = 8 then 3077 else if w = 6 then 4103 else if w = 4 then 6154 else if w = 2 then 12308 else 24615

/-- Table 10-1: one-way latency of a port's class, in 10^-4 ns, and its timestamp asymmetry in ns. -/
def PortLatency (r : PortRec) : Nat :=
  if r.cls = 1 then 1100000 else if r.cls = 2 then 1200000
  else if r.cls = 3 then 1400000 + 5000 * r.lengthDm.toNat else 200000
def portAsym (r : PortRec) : Nat := if r.cls = 1 ∨ r.cls = 2 then 4 else if r.cls = 3 then 10 else 0

/-! Routes (R289, R290). -/

/-- R289: the level of traffic to a module. -/
def routeLevel (r : RouteRec) (d : Nat) : Nat :=
  let x := r.moduleId.toNat ^^^ d
  let m := r.memberBits.toNat
  let l1 := m + r.l1Bits.toNat
  let l2 := l1 + r.l2Bits.toNat
  if x / 2 ^ m = 0 then 0 else if x / 2 ^ l2 ≠ 0 then 3 else if x / 2 ^ l1 ≠ 0 then 2 else 1

/-- The module's own ID. -/
def State.moduleId (s : State) : Nat := s.fabric.route.moduleId.toNat

/-- R280: whether a port is set to loopback, where it carries what the module sends to itself and nothing else. -/
def Port.loops (t : Port) : Bool := decide (t.record.cls = 4)

/-- R280, R290: the lowest port that is up to a group member; a loopback port leads to the module itself alone. -/
def State.groupPort (s : State) (member : Nat) : Option Nat :=
  (List.range portCount).find? (fun p =>
    (s.port p).up && decide ((s.port p).record.role = 1) && decide ((s.port p).record.peerMember.toNat = member)
      && (!(s.port p).loops || decide (member = s.moduleId % 2 ^ s.fabric.route.memberBits.toNat)))

/-- R290: the live uplinks, rising. -/
def State.liveUplinks (s : State) : List Nat :=
  (List.range portCount).filter (fun p => (s.port p).up && decide ((s.port p).record.role = 2) && !(s.port p).loops)

/-- R290: the first link of a packet, none where its destination cannot be reached (the hash reads each part as a word,
log 34). -/
def State.firstPort (s : State) (p : FabPkt) : Option Nat :=
  let r := s.fabric.route
  let direct := if routeLevel r p.dst = 0 then s.groupPort (p.dst % 2 ^ r.memberBits.toNat) else none
  match direct with
  | some q => some q
  | none =>
    let up := s.liveUplinks
    if up.isEmpty then none
    else
      let h := (crc32c (leBytes 4 p.dst ++ leBytes 4 p.job ++ leBytes 4 p.ref.toNat ++ leBytes 4 p.partition)).toNat
      up[h % up.length]?

/-! A job's packets. -/

/-- R285: the header of a job's packets to a rank; version 1 carries no epoch. -/
def Job.packet (j : Job) (type dst : Nat) (payload : List Byte) : FabPkt :=
  { version := j.version, type := type, last := true, epoch := if j.version ≤ 1 then 0 else j.epoch, dst := dst, job := j.id
    partition := j.partition, ref := BitVec.ofNat 32 j.rank, payload := payload }

/-- R302: the lowest bit set of a rank, and the ranks that send to it, rising. -/
def lowBit (r : Nat) : Nat := ((List.range 16).find? (fun i => r.testBit i)).getD 16
def childRanks (r n : Nat) : List Nat :=
  ((List.range (if r = 0 then 16 else lowBit r)).map (fun i => r + 2 ^ i)).filter (fun c => c < n)
def parentRank (r : Nat) : Nat := r - 2 ^ lowBit r

/-- R302: the ranks that a member of a job's collective hears from or sends to. -/
def Job.near (j : Job) : List Nat :=
  childRanks j.rank j.members.length ++ (if j.rank = 0 then [] else [parentRank j.rank])

/-- R290: the first link of this member's packets to a rank of a job. -/
def State.rankPort (s : State) (j : Job) (r : Nat) : Option Nat := s.firstPort (j.packet ftPartial (j.members.getD r 0) [])

end Sys2Proof.Machine
end

