-- ==== Sys2Proof/Machine/Serving.lean ====
section
/-! DEFINITION. The timetable's arithmetic (R35, R187 to R192): frames, periods, entry limits and the plan of one request. -/

namespace Sys2Proof.Machine

/-- Table 7-5: the default classes. -/
def defaultClass (c : Nat) : ClassRec :=
  let t : List (Nat × Nat × Nat × Nat × Bool) :=
    [(20000, 80, 7, 2, true), (50000, 250, 6, 2, true), (100000, 1000, 5, 1, true), (250000, 5000, 4, 1, true),
     (500000, 10000, 3, 1, false), (1000000, 50000, 2, 1, false), (5000000, 250000, 1, 0, false), (0, 0, 0, 0, false)]
  let x := t.getD c (0, 0, 0, 0, false)
  { firstUs := BitVec.ofNat 32 x.1, betweenUs := BitVec.ofNat 32 x.2.1, priority := BitVec.ofNat 8 x.2.2.1
    replay := BitVec.ofNat 8 x.2.2.2.1, guaranteed := x.2.2.2.2 }

/-- R187: a partition's class record. -/
def State.classOf (s : State) (p c : Nat) : ClassRec := (s.part p).classes.find c (defaultClass c)

/-- R133: the digest of an edition's placement image. -/
def Edition.digest (e : Edition) : Nat := natAt e.manifest 16 48

/-- R174: whether replays and repairs of an edition have a golden source. -/
def Edition.hasGolden (e : Edition) : Bool := e.golden || decide (e.kind = .forerunner)

/-- R188, R382: the replay allowance of a class in an edition. -/
def Edition.allowance (e : Edition) (r : Nat) : Nat :=
  if 16 < e.drep ∨ (!e.hasGolden ∧ 0 < e.arrayRows) then 0 else r

/-- R188: the largest allowance of a partition's classes and of the copies that its requests hold. -/
def State.rmax (s : State) (p ed : Nat) : Nat :=
  let table := (List.range 8).map (fun c => (s.classOf p c).replay.toNat)
  let copies := (s.reqs.vals.filter (fun r => r.state ≠ .free ∧ r.partition = p)).map (fun r => r.cls.replay.toNat)
  (s.edition ed).allowance ((table ++ copies).foldl Nat.max 0)

/-- R188: δas at a window length. -/
def State.assistDelay (s : State) (p w : Nat) : Nat :=
  if s.assisted p 2 ∨ s.assisted p 3 then ceilDiv 10000 w else 0

/-- R156: ρ of a forerunner layer at a window length. -/
def State.layerSpan (s : State) (ed layer w : Nat) : Nat :=
  let rows := (s.layerEngines ed layer).map (fun e => e.1 * 32 + e.2)
  let fields := rows.foldl (fun l k => insertNat (k / 32 / coresPerField) l) []
  let t := fields.foldl (fun m f =>
    let mine := rows.filter (fun k => k / 32 / coresPerField = f)
    let busiest := mine.foldl (fun m k => Nat.max m (mine.filter (fun j => j = k)).length) 0
    let c := Nat.max 1 (s.power f).conc
    Nat.max m ((ceilDiv mine.length c + busiest) * 160000 + 10000)) 10000
  ceilDiv t w

/-- R188, R156: the pass length: S, or S′ of a forerunner edition. -/
def State.passLength (s : State) (ed w : Nat) : Nat :=
  let e := s.edition ed
  if e.kind = .forerunner then
    (((e.placement.map (fun p => p.sections)).getD []).flatMap (fun x =>
      (List.range (x.lastLayer + 1 - x.firstLayer)).map (fun i => s.layerSpan ed (x.firstLayer + i) w + 1))).sum
  else e.sections

/-- R188: the frame F of an edition at a window length. -/
def State.frameOf (s : State) (ed w : Nat) : Nat :=
  let p := (s.edition ed).partition
  s.passLength ed w + 1 + s.assistDelay p w + s.rmax p ed * (s.edition ed).drep

/-- R190, R342: the credits of a field in a window for an edition's partition. -/
def State.windowCredits (s : State) (p f w : Nat) : Nat :=
  let c := w / 100 * ((s.power f).allowNext / 10)
  if (s.fieldParts f).length ≤ 1 then c else c * (s.part p).entry.fireShare.toNat / 256

/-! Window need (R35). -/

/-- R32: a section's pace floor: the lowest among its fields. -/
def State.sectFloor (s : State) (ed sect : Nat) : Nat :=
  let fs := (s.sectFields ed sect).map (fun f => (s.power f).floor)
  (leastBy id fs).getD 0

/-- R191: a section's allowance: 1,200 ns if its critical path contains a stack access, to stack-tier weights or to KV pages
(log 134). -/
def State.allowanceNs (s : State) (ed sect : Nat) (r : SectionRec) : Nat :=
  let e := s.edition ed
  if r.stackTier || (decide (((e.serving.map ServingRec.groups).getD 0) ≠ 0) && Config.kvOnPath e.digest sect) then 1200 else 0

/-! Planned collectives (R294). -/

/-- R283, R301: the payload rate of a job's collective: that of the slowest of the links that lead to the ranks it hears from or sends
to, as they are now; none where no link does. -/
def State.collectiveRate (s : State) (j : Job) : Nat :=
  let rates := (j.near.filterMap (s.rankPort j)).map (fun n => payloadRate (s.port n).width)
  (leastBy id rates).getD 0

/-- R294: the stack traffic of a planned collective of a job on a stack in a window: its elements read and, on the members where the
result lands, its result written, no more than the collective's links move in the window (log 151). -/
def State.collectiveBytes (s : State) (j : Job) (k : Nat) : Nat :=
  match j.reduce with
  | none => 0
  | some r =>
    let n := r.count * (if r.fmt = 2 then 2 else 4)
    let on := fun (addr : Nat) => match s.resolve j.partition 0 addr n with
      | some g => if g.stackSet.contains k then ceilDiv n g.stackSet.length else 0
      | none => 0
    let written := if r.all ∨ j.rank = 0 then on r.dst else 0
    if r.planned ∧ r.cmd.isSome then Nat.min (on r.src + written) (s.collectiveRate j * s.plan.w) else 0

/-- R294: the jobs with a planned collective under way. -/
def State.plannedJobs (s : State) : List Job := s.fabric.jobs.filter (fun j => match j.reduce with
  | some r => r.planned && r.cmd.isSome
  | none => false)

/-- R294: what the planned collectives of a partition add to the `fixed_ns` of the sections that wait for them: their traffic on the
busiest stack at 1.5 TB/s. -/
def State.collectiveNs (s : State) (p : Nat) : Nat :=
  let l := s.plannedJobs.filter (fun j => decide (j.partition = p))
  if l.isEmpty then 0
  else (List.range stackCount).foldl (fun m k => Nat.max m (ceilDiv (l.map (fun j => s.collectiveBytes j k)).sum 1500)) 0

/-- R265, R294: the window length in which the planned collectives' traffic fits the planned 80 % of every stack. -/
def State.collectiveW (s : State) : Nat :=
  let l := s.plannedJobs
  if l.isEmpty then 0
  else (List.range stackCount).foldl (fun m k => Nat.max m (ceilDiv (l.map (fun j => s.collectiveBytes j k)).sum 1200)) 0

/-- R35: the window length that a section needs; one with a field that has no floor takes no work and needs none. -/
def State.windowNeed (s : State) (ed sect : Nat) (r : SectionRec) : Nat :=
  let p := s.sectFloor ed sect
  let h := (s.sectFields ed sect).foldl (fun m f => Nat.max m (s.hops f gateField)) 0
  if p = 0 then 0
  else (stagesToPs (r.workStages + 2 * (8 * h + 4)) p + 999) / 1000 + r.fixedNs
    + (if Config.waitsCollective (s.edition ed).digest sect then s.collectiveNs (s.edition ed).partition else 0)
    + s.allowanceNs ed sect r

/-- R35: the window length that covers every section of an edition. -/
def State.edNeed (s : State) (ed : Nat) : Nat :=
  match (s.edition ed).placement with
  | some p => ((List.range p.sections.length).zip p.sections).foldl (fun m x => Nat.max m (s.windowNeed ed x.1 x.2)) 0
  | none => 0

/-- R20: the longest window. -/
def longestWindow : Nat := 65536

/-- R30, R20: whether the timetable gives a section work: each of its fields takes work, and a window can be long enough for its
edition (log 135). -/
def State.sectRuns (s : State) (ed sect : Nat) : Bool :=
  (s.sectFields ed sect).all (fun f => (s.power f).takesWork) && decide (s.edNeed ed ≤ longestWindow)

/-- R30, R20: whether the timetable can give every section of an edition work. -/
def State.plannable (s : State) (ed : Nat) : Bool :=
  (s.edFields ed).all (fun f => (s.power f).takesWork) && decide (s.edNeed ed ≤ longestWindow)

/-- Whether an edition carries tokens: it is past READY and its fields are all in service. -/
def Edition.carries (e : Edition) : Bool :=
  decide (e.state = .ready ∨ e.state = .current ∨ e.state = .retained ∨ e.state = .retiring) && !e.noService

/-- R20, R35, R294: the window length that covers every section of the editions it can cover, and what planned collectives take. -/
def State.planW (s : State) : Nat :=
  s.editions.keys.foldl (fun m ed =>
    if (s.edition ed).carries && decide (s.edNeed ed ≤ longestWindow) then Nat.max m (s.edNeed ed) else m)
    (Nat.max 500 (Nat.min longestWindow s.collectiveW))

/-- R190: B_max and the entry limit E of an edition at a window length; nothing enters one that the timetable gives no work (R30). -/
def State.entryLimitOf (s : State) (ed w : Nat) : Nat × Nat :=
  let e := s.edition ed
  let b := (s.edFields ed).foldl (fun m f =>
    let ef := Config.segEvals e.digest f
    let c := s.windowCredits e.partition f w
    if ef = 0 then m else Nat.min m ((c - ceilDiv c 16) / ef)) 256
  if s.plannable ed then (b, b - ceilDiv b 16) else (0, 0)

/-! The replay pool (R384). -/

/-- R11: whether an edition's work stands on a core, or is on its way there. -/
def State.coreTaken (s : State) (k : Nat) : Bool :=
  s.editions.vals.any (fun e => decide (e.state ≠ .free) && e.places.any (fun p => decide (s.physOf p = k)))
    || s.ledger.relocNext.any (fun x => decide (x.2 = k))
    || s.ledger.waiting.any (fun c => decide (c.kind = jkRelocation) && decide (c.val = k))
    || s.plan.outUnits.any (fun u => decide (u.dest = k) && decide (2 ≤ u.phase))

/-- R383, R396, R176: whether a core can take over another's work: good, free, and no ledger core. -/
def State.coreFree (s : State) (k : Nat) : Bool :=
  let c := s.core k
  c.good && !c.failed && !c.fenced && c.placeId.isNone && !c.clearing && !s.ledgerCore k && !s.coreTaken k

/-- R121: the layers of a section of an edition. -/
def Edition.layersOf (e : Edition) (sect : Nat) : Nat × Nat :=
  match e.placement.bind (fun p => p.sections[sect]?) with
  | some r => (r.firstLayer, r.lastLayer)
  | none => (0, 0)

/-- R368, R398: whether a field is in service or in reserve, neither lost nor isolated. -/
def State.fieldOk (s : State) (f : Nat) : Bool :=
  let v := s.field f
  s.inReserve f || (decide (v.role = .service) && !v.lost && !v.fenced && decide ((s.power f).iso = .none))

/-- R384: whether the cores of a field may replay: in service or reserve, and with credits to fire by (log 150). -/
def State.poolField (s : State) (f : Nat) : Bool := s.fieldOk f && decide ((s.power f).allow ≠ 0)

/-- R5, R11: whether a physical core is spare, as the relocation map says: it serves no placement core. -/
def State.spareCore (s : State) (k : Nat) : Bool :=
  !s.ledger.relocation.vals.contains k && (decide (64 ≤ k % coresPerField) || (s.ledger.relocation.find? k).isSome)

/-- R382, R384: the pool cores of a replay of a section, at most 64, lowest first: spare cores of service fields and the cores of
reserve fields, none in a field that holds a core of the section. -/
def State.poolCores (s : State) (ed sect : Nat) : List Nat :=
  let own := s.sectFields ed sect
  ((allFields.filter (fun f => s.poolField f && !own.contains f)).flatMap (fun f =>
    (((List.range coresPerField).map (coreKey f)).filter (fun k => decide ((s.field f).role ≠ .service) || s.spareCore k)).filter
      s.coreFree)).take 64

/-- R385: the pace floor of the pool. -/
def State.poolFloor (s : State) : Nat :=
  (leastBy id ((allFields.filter s.poolField).map (fun f => (s.power f).floor))).getD 0

/-- R384: what a replay of a section owes the buckets of its pool cores' fields, (field, credits): each core takes its share of every
layer's output columns, at one credit per 65,536 MACs. -/
def State.poolCharge (s : State) (ed sect : Nat) (pool : List Nat) : List (Nat × Nat) :=
  let e := s.edition ed
  let n := pool.length
  let span := e.layersOf sect
  ((List.range n).zip pool).map (fun x =>
    (x.2 / coresPerField, ceilDiv (((List.range (span.2 + 1 - span.1)).map (fun l =>
      let cols := Config.layerOutputs e.digest (span.1 + l)
      (cols * (x.1 + 1) / n - cols * x.1 / n) * Config.columnMacs e.digest (span.1 + l))).sum) 65536))

/-- R188, R385: δrep of an edition at a window length: the whole windows in which phases 2 to 5 of its slowest section end, at the
pool's pace floor, before the planned boundary; past 16 where some section has no pool core to replay it. -/
def State.drepOf (s : State) (ed w : Nat) : Nat :=
  let e := s.edition ed
  if (List.range e.sections).any (fun i => (s.poolCores ed i).isEmpty) then 17
  else ((List.range e.sections).map (fun i =>
    (1000 * Config.replayLoadNs e.digest i + stagesToPs (Config.replayStages e.digest i) s.poolFloor) / (1000 * w) + 1)).foldl Nat.max 1

/-- R188, R190: recomputes the grid terms of an edition at a window length. -/
def State.gridOf (s : State) (ed w : Nat) : State :=
  let s1 := s.updEdition ed (fun v => { v with drep := s.drepOf ed w })
  let b := s1.entryLimitOf ed w
  s1.updEdition ed (fun v => { v with frame := s1.frameOf ed w, bmax := b.1, entryLimit := b.2 })

/-- R231: the timetable as it will be once the limits decided are in force: their W, F and E. -/
def State.ahead (s : State) : State :=
  let l := (allFields.filter (fun f => !(s.power f).drops.isEmpty)).map (fun f => (f, (s.power f).nextLimits))
  if l.isEmpty then s
  else
    let t := s.withLimits l
    let u : State := { t with plan := { t.plan with wNext := t.planW } }
    (u.editions.keys.filter (fun ed => (u.edition ed).carries)).foldl (fun (v : State) ed => v.gridOf ed u.plan.wNext) u

/-! The grid (R189, R192). -/

/-- R192: `visit_period`. -/
def visitPeriod (w f r drep d : Nat) : Nat :=
  if d = 0 then 64 * f
  else (([6, 5, 4, 3, 2, 1, 0].map (fun j => f * 2 ^ j)).find? (fun p => w * (p + r * drep) ≤ d)).getD 0

/-- Whether a request's slots enter the timetable. -/
def Req.active (r : Req) : Bool :=
  decide (r.state = .admitted ∨ r.state = .prefill ∨ r.state = .running) && !r.kvWait

/-- R189: whether a request visits section 0 in window `n`. -/
def Req.visits (r : Req) (n : Nat) : Bool :=
  r.active && decide (r.period ≠ 0) && decide (r.nextVisit ≤ n) && decide ((n - r.nextVisit) % r.period = 0)

/-- Prefill slots of a request planned in window `n`. -/
def Req.prefillAt (r : Req) (n : Nat) : Nat := ((r.prefill.filter (fun x => x.1 = n)).map Prod.snd).sum

/-- Slots of section 0 that a request holds in window `n`. -/
def Req.slotsAt (r : Req) (n : Nat) : Nat :=
  (if r.visits n then 1 + r.depth else 0) + (if r.active then r.prefillAt n else 0)

/-- The slots held in window `n` of an edition. -/
def State.load (s : State) (ed n : Nat) : Nat :=
  ((s.reqs.vals.filter (fun r => r.edition = ed)).map (fun r => r.slotsAt n)).sum

/-- The entries free in window `n`. -/
def State.freeEntries (s : State) (ed n : Nat) : Nat := (s.edition ed).entryLimit - s.load ed n

/-- R192 step 4: prefill slots from window `n` on until `need` have a place. -/
def State.prefillFrom (s : State) (ed : Nat) : Nat → Nat → Nat → Option (List (Nat × Nat))
  | _, _, 0 => some []
  | 0, _, _ => none
  | fuel + 1, n, need =>
    let k := Nat.min need (s.freeEntries ed n)
    if k = 0 then s.prefillFrom ed fuel (n + 1) need
    else (s.prefillFrom ed fuel (n + 1) (need - k)).map (fun l => (n, k) :: l)

/-- R192 step 5: whether visits from `w0` on find `k` entries free over one grid repetition. -/
def State.fits (s : State) (ed w0 period k : Nat) : Bool :=
  let n := if period = 0 then 0 else 64 * (s.edition ed).frame / period
  (List.range n).all (fun v => decide (k ≤ s.freeEntries ed (w0 + v * period)))

/-- What the plan of a request answers. -/
inductive PlanRes where
  /-- Prefill, first visit, and the windows from the one in progress to the end of prefill. -/
  | ok (prefill : List (Nat × Nat)) (w0 : Nat) (we : Int)
  | capacity
  | bound
deriving DecidableEq, Repr

/-- The terms of a plan: edition, window in progress, prefill slots, period, slots of a visit, windows of replay allowance,
first-token bound in ns (0 none), window length, host wait in ns, first window with entries. -/
structure PlanReq where
  ed     : Nat
  a      : Nat
  need   : Nat
  period : Nat
  slots  : Nat
  extra  : Nat
  bound  : Nat
  w      : Nat
  wait   : Nat
  first  : Nat
deriving DecidableEq, Repr

/-- R192 step 6: t_ft for a prefill that ends in window `we`. -/
def State.firstNs (s : State) (q : PlanReq) (we : Int) : Int :=
  (we - q.a + (s.passLength q.ed q.w : Nat) + q.extra) * q.w + q.wait

/-- R192 steps 4 to 6, from a start `shift` windows late on; `we0` is the w_e that step 4 planned first. With no prefill w_e moves with
the start (log 190). -/
def State.planFrom (s : State) (q : PlanReq) : Nat → Nat → Option Int → PlanRes
  | 0, _, _ => .capacity
  | fuel + 1, shift, we0 =>
    let f := (s.edition q.ed).frame
    let start := q.first + shift
    match s.prefillFrom q.ed (64 * f * (q.need + 1)) start q.need with
    | none => .capacity
    | some l =>
      let we : Int := if q.need = 0 then (start : Int) - f else ((l.getLastD (start, 0)).1 : Int)
      let late := decide (q.bound ≠ 0) && decide ((q.bound : Int) < s.firstNs q we)
      let moved := decide (q.bound = 0) && decide ((64 * f : Nat) ≤ we - we0.getD we) && we0.isSome
      if (late && we0.isSome) || moved then .capacity
      else
        let lo := (we + f).toNat
        match ((List.range (q.period + 1 - f)).map (fun i => lo + i)).find? (fun w0 => s.fits q.ed w0 q.period q.slots) with
        | none => s.planFrom q fuel (shift + 1) (some (we0.getD we))
        | some w0 =>
          if !late then .ok l w0 we
          else
            let e := (s.edition q.ed).entryLimit
            let best : Int := if q.need = 0 then (q.a : Int) + 1 - f
              else (q.a : Int) + (if e = 0 then q.need else ceilDiv q.need e : Nat)
            if (q.bound : Int) < s.firstNs q best then .bound else .capacity

/-- R192: the plan of a request. -/
def State.planRequest (s : State) (q : PlanReq) : PlanRes :=
  if q.period = 0 then .bound
  else s.planFrom q (if q.bound = 0 then 64 * (s.edition q.ed).frame * (q.need + 2) + 1 else q.bound / q.w + (s.edition q.ed).frame + 2) 0 none

/-! KV pages (R192 step 2). -/

/-- R202: KV pages of `n` positions in an edition. -/
def Edition.pagesFor (e : Edition) (n : Nat) : Nat :=
  match e.serving with
  | some r => if r.posPerPage = 0 then 0 else r.groups * ceilDiv n r.posPerPage
  | none => 0

/-- R192: bytes of a KV page. -/
def pageBytes : Nat := 65536

/-- The pages of a partition's KV region that no request holds (log 32: lowest first). -/
def State.freePages (s : State) (p : Nat) : List Nat :=
  let total := match (s.part p).regions.find? 2 with
    | some r => r.size / pageBytes
    | none => 0
  let used := (s.reqs.vals.filter (fun r => r.state ≠ .free ∧ r.partition = p)).flatMap (fun r => r.pages)
  (List.range total).filter (fun i => !used.contains i)

/-! Request table (R182, R183). -/

/-- R182: the entry that has been free the longest. -/
def State.freeEntry (s : State) (p : Nat) : Option Nat :=
  let v := s.part p
  if v.fresh < v.entry.reqCount.toNat then some (v.entry.reqFirst.toNat + v.fresh)
  else v.freed.head?

/-- R182: takes that entry off the free list. -/
def Partition.takeEntry (v : Partition) : Partition :=
  if v.fresh < v.entry.reqCount.toNat then { v with fresh := v.fresh + 1 } else { v with freed := v.freed.drop 1 }

/-- Table 7-1: index and generation of a tag. -/
def tagIndex (w : Word) : Nat := w.toNat % 2 ^ 17
def tagGen (w : Word) : BitVec 7 := w.extractLsb' 17 7

/-- R186, R351: an entry becomes FREE: its pages return, its generation is raised, and it is the partition's whose range holds it. -/
def State.freeReq (s : State) (i : Nat) : State :=
  let r := s.req i
  let s0 : State := { s with alaok := { s.alaok with assists := s.alaok.assists.filter (fun a =>
    !((a.fn = 2 || a.fn = 3) && a.req = i)) } }
  let s1 := s0.updReq i (fun _ => { gen := r.gen + 1 })
  { s1 with parts := s1.parts.mapVals (fun _ v =>
    let lo := v.entry.reqFirst.toNat
    if v.entry.valid ∧ lo ≤ i ∧ i < lo + v.entry.reqCount.toNat then { v with freed := v.freed ++ [i] } else v) }

/-- R152: the edition that a descriptor's request runs in its partition. -/
def State.editionFor (s : State) (p : Nat) (d : Desc) : Nat :=
  if d.edition.toNat = 0xFFFF then (s.part p).current else d.edition.toNat

end Sys2Proof.Machine
end

