-- ==== Sys2Proof/Machine/Ring.lean ====
section
/-! DEFINITION. What reaches the control node about a request: ring entries (R220, R221, R333), late reports (R193), siding and
return (R195 to R197), retirement (R185); the sampling context (R208) and grammar tables (R214). -/

namespace Sys2Proof.Machine

/-- R183: the tag of a request. -/
def State.tag (s : State) (i : Nat) : Word := tagOf i (s.req i).gen

/-! Ring entries. -/

/-- Table 7-15: the flags of an entry but its phase. -/
structure EntryFlags where
  late       : Bool := false
  broken     : Bool := false
  final      : Bool := false
  notoken    : Bool := false
  drafted    : Bool := false
  replayed   : Bool := false
  assistLate : Bool := false
  sided      : Bool := false
  eos        : Bool := false
deriving DecidableEq, Repr

def EntryFlags.toNat (f : EntryFlags) (phase : Bool) : Nat :=
  phase.toNat + 2 * f.late.toNat + 4 * f.broken.toNat + 8 * f.final.toNat + 16 * f.notoken.toNat + 32 * f.drafted.toNat
    + 64 * f.replayed.toNat + 128 * f.assistLate.toNat + 256 * f.sided.toNat + 512 * f.eos.toNat

/-- R220: the phase of entry `n` in a ring. -/
def ringPhase (n entries : Nat) : Bool := if entries = 0 then true else decide (n / entries % 2 = 0)

/-- Table 11-14: the item of an entry. -/
def Req.item (r : Req) (tag : Word) (token edition : Nat) (f : EntryFlags) (stamp : Nat) : List Byte :=
  let n := r.desc.ringEntries.toNat
  leBytes 8 (r.desc.ringBase.toNat + 16 * (if n = 0 then 0 else r.number % n)) ++ leBytes 4 tag.toNat ++ leBytes 4 r.number
    ++ leBytes 4 token ++ leBytes 2 edition ++ leBytes 2 (f.toNat (ringPhase r.number n)) ++ leBytes 8 stamp

/-- R333: an item in a terminus packet. -/
def State.sendItem (s : State) (i : Nat) (item : List Byte) : State :=
  s.sendOn s.alaok.active { op := opTerminus, report := true, partition := (s.req i).partition, reqTag := s.tag i
                            stamp := s.stamp, detail := 1, body := item }

/-- R221: entries placed in the ring and not yet acknowledged as consumed. -/
def Req.unconsumed (r : Req) : Nat := (r.number + 2 ^ 32 - r.consumed) % 2 ^ 32 - r.buffered.length

/-- R220, R221: writes an entry: into the ring, or into the request's buffer while the ring is full. -/
def State.writeEntry (s : State) (i token edition : Nat) (f : EntryFlags) (stamp : Nat) : State :=
  let r := s.req i
  let item := r.item (s.tag i) token edition f stamp
  let s1 := s.updReq i (fun v => { v with number := (v.number + 1) % 2 ^ 32 })
  if r.buffered.isEmpty ∧ r.unconsumed < r.desc.ringEntries.toNat then s1.sendItem i item
  else s1.updReq i (fun v => { v with buffered := v.buffered ++ [item] })

/-- R221: sends from a request's buffer what its ring now takes. -/
def State.flushRing (s : State) (i : Nat) : State :=
  let r := s.req i
  let k := Nat.min r.buffered.length (r.desc.ringEntries.toNat - r.unconsumed)
  (r.buffered.take k).foldl (fun (t : State) item => t.sendItem i item)
    (s.updReq i (fun v => { v with buffered := v.buffered.drop k }))

/-- R333: entries of a request that wait for stream-3 credits. -/
def State.ringWaiting (s : State) (i : Nat) : Nat :=
  let tag := s.tag i
  (((s.conn s.alaok.active).tx.find 3 {}).queue.filter (fun p => p.op = opTerminus ∧ p.reqTag = tag)).length

/-- R221, R333: whether ring and buffer have room for `n` entries. -/
def State.ringRoom (s : State) (i n : Nat) : Bool :=
  let r := s.req i
  let wait := s.ringWaiting i
  let ring := if wait = 0 then r.desc.ringEntries.toNat - r.unconsumed else 0
  decide (n ≤ ring + (8 - (r.buffered.length + wait)))

/-! Reports. -/

/-- R334: a `LATE` report. -/
def State.lateReport (s : State) (i cause kind bound excess stamp : Nat) : State :=
  let r := s.req i
  s.report opServingReport (some r.partition) (s.tag i) stLate cause 0
    (leBytes 8 r.desc.cookie.toNat ++ leBytes 1 kind ++ leBytes 7 0 ++ leBytes 8 bound ++ leBytes 8 excess ++ leBytes 8 stamp)

/-- R334: a siding report. -/
def State.sidedReport (s : State) (i cause detail : Nat) : State :=
  let r := s.req i
  s.report opServingReport (some r.partition) (s.tag i) stSided cause detail
    (leBytes 8 r.desc.cookie.toNat ++ leBytes 8 s.plan.window)

/-- R193: records the cause that delays a request's next token; the first one stands. -/
def State.blame (s : State) (i cause : Nat) : State :=
  s.updReq i (fun r => if r.lateCause = 0 then { r with lateCause := cause } else r)

/-- Whether a token of a request is in flight: one of its slots or replays is. -/
def State.inFlight (s : State) (i : Nat) : Bool :=
  s.plan.slots.any (fun x => decide (x.req = i)) || s.plan.replays.any (fun x => decide (x.slot.req = i))

/-- R193: records it for every request that `p` names. -/
def State.blameAll (s : State) (p : Nat → Req → Bool) (cause : Nat) : State :=
  { s with reqs := s.reqs.mapVals (fun i r =>
    if (r.active || decide (r.state = .draining ∨ r.state = .siding) && s.inFlight i) && p i r && decide (r.lateCause = 0) then { r with lateCause := cause } else r) }

/-- R193: the bound of a request's next token in ns and the time it runs from; none where its class has none (R187) or it is
suspended (R197). -/
def Req.nextBound (r : Req) : Option (Nat × Nat) :=
  if r.suspended then none
  else if r.firstDone then (if r.cls.betweenUs = 0 then none else some (r.betweenNs, r.lastStamp.toNat))
  else if r.cls.firstUs = 0 then none else some (r.firstNs, r.acceptedAt.toNat)

/-- R193: by how much a token stamped `stamp` passes a request's bound, with the bound; none where it keeps it or there is none. -/
def Req.overrun (r : Req) (stamp : Nat) : Option (Nat × Nat) :=
  match r.nextBound with
  | none => none
  | some (b, t) => if t + b < stamp then some (b, stamp - t - b) else none

/-- R193, R194: the cause with which a broken bound is reported: the one recorded, 0x08 while a guaranteed request is kept at
P = F, 0x0A where there is no other. -/
def Req.brokenCause (r : Req) : Nat := if r.lateCause ≠ 0 then r.lateCause else if r.kept then 0x08 else 0x0A

/-- R185, R193, R199, R220: delivers a token: its entry, its late report, and the request's clocks. -/
def State.deliverToken (s : State) (i token edition stamp : Nat) (f : EntryFlags) : State :=
  let r := s.req i
  let overrun := r.overrun stamp
  let broken := overrun.isSome
  let past := decide (r.desc.deadline ≠ 0) && decide (r.desc.deadline.toNat < stamp)
  let g := { f with late := broken || past || f.late, broken := broken, sided := r.sidedFlag }
  let s1 := (s.writeEntry i token edition g stamp).countPart r.partition pcTokens 1
  let s2 := match overrun with
    | some (bound, excess) =>
      ((s1.countPart r.partition pcLate 1).countPart r.partition pcBoundBroken 1).lateReport i r.brokenCause r.firstDone.toNat
        bound excess stamp
    | none => if g.late then s1.countPart r.partition pcLate 1 else s1
  s2.updReq i (fun v => { v with
    firstDone := true, lastStamp := BitVec.ofNat 64 stamp, lateCause := 0
    suspended := v.suspended && decide (v.state = .siding), sidedFlag := false
    tokens := v.tokens + 1 })

/-! Retirement. -/

/-- R185: a request enters RETIRED with a status; while its buffer still holds entries it drains until they are written
(Table 7-16). -/
def State.retire (s : State) (i status : Nat) : State :=
  s.updReq i (fun r => { r with
    state := if r.buffered.isEmpty then .retired else .draining, closing := if r.buffered.isEmpty then none else some false
    ended := some status, finalStatus := status, prefill := [], period := 0, kvWait := false })

/-- R185: a final entry that carries no token. -/
def State.finalEntry (s : State) (i status : Nat) : State :=
  let r := s.req i
  s.writeEntry i status r.edition { final := true, notoken := true } s.now

/-- Table 11-10: the body of an admission reply. -/
def admitBody (d : Desc) (period w first between missing : Nat) : List Byte :=
  leBytes 8 d.cookie.toNat ++ leBytes 4 period ++ leBytes 4 w ++ leBytes 8 first ++ leBytes 8 between ++ leBytes 4 missing
    ++ leBytes 4 0

/-- R323, R328: a request that ends in `kv_wait` gives its `SV_KV_OPEN` the final reply, with the body of Table 11-10 (log 181). -/
def State.kvEnds (s : State) (i status : Nat) : State :=
  let r := s.req i
  match r.kvCmd with
  | none => s
  | some (c, tag) => (s.finish c tag status 0 (some (s.tag i)) (admitBody r.desc 0 s.plan.wNext 0 0 0)).updReq i (fun r => { r with kvCmd := none })

/-- R185: a final entry without a token, and RETIRED; one whose final entry stands already only waits for its ring. -/
def State.endRequest (s : State) (i status : Nat) : State :=
  if (s.req i).closing.isSome ∨ (s.req i).state = .retired then s else ((s.kvEnds i status).finalEntry i status).retire i status

/-- R200: a cancelled request: its pages return, and its entry becomes FREE, once its last entries are written (log 136). -/
def State.freeCancelled (s : State) (i : Nat) : State :=
  if (s.req i).buffered.isEmpty then s.freeReq i
  else s.updReq i (fun r => { r with
    state := .draining, closing := some true, ended := some stCancelled, finalStatus := stCancelled, pages := [], prefill := []
    period := 0, kvWait := false })

/-- Table 7-16: a request whose last buffered entry is written retires, or after a cancel becomes FREE. -/
def State.closeWritten (s : State) (i : Nat) : State :=
  let r := s.req i
  if !r.buffered.isEmpty then s
  else match r.closing with
    | none => s
    | some false => s.retire i r.finalStatus
    | some true => s.freeReq i

/-! The siding. -/

/-- R195: causes of the siding: bits 0 POWER, 1 RING, 2 ASSIST, 3 PAUSE; their reports carry 1 to 4. -/
def causePower : Nat := 0
def causeRing : Nat := 1
def causeAssist : Nat := 2
def causePause : Nat := 3

/-- R185, R195, R197: a request moves to the siding for a cause, or records one more. -/
def State.toSiding (s : State) (i cause : Nat) : State :=
  let r := s.req i
  if r.causes.getLsbD cause ∨ !(r.active || decide (r.state = .siding)) then s
  else
    let s1 := s.updReq i (fun v => { v with
      causes := v.causes ||| BitVec.twoPow 4 cause
      suspended := v.suspended || decide (cause ≠ causeAssist) })
    let s2 := if r.state = .siding then s1
      else { (s1.updReq i (fun v => { v with
          state := .siding, sidedFrom := r.state, prefill := [], period := 0, sidedOrder := s.plan.order })).countPart
          r.partition pcSided 1 with plan := { s1.plan with order := s1.plan.order + 1 } }
    s2.sidedReport i (cause + 1) 0

/-- R195: a cause clears. -/
def State.clearCause (s : State) (i cause : Nat) : State :=
  s.updReq i (fun r => { r with causes := r.causes &&& ~~~ BitVec.twoPow 4 cause })

/-! The serving region (R208, R214). -/

/-- The serving region of a partition (selector 0), its steering (1) and KV region (2). -/
def State.servingRegion (s : State) (p : Nat) : Option Region := (s.part p).regions.find? 0

/-- R264, R272: writes bytes anywhere in a region: the codeblocks they touch are read, changed and written whole; a codeblock of which
poisoned bytes are left stays poisoned. -/
def State.patchRegion (s : State) (r : Region) (o : Nat) (bytes : List Byte) (p : Nat) : State :=
  if bytes.isEmpty ∨ r.size < o + bytes.length then s
  else
    let lo := o / cbBytes * cbBytes
    let old := s.regionBytes r lo ((cbSpan o bytes.length).length * cbBytes)
    let new := ((List.range old.length).zip old).map (fun (x : Nat × Byte × Bool) =>
      if o - lo ≤ x.1 ∧ x.1 < o - lo + bytes.length then (bytes.getD (x.1 - (o - lo)) 0, false) else x.2)
    s.regionWrite r lo new p

/-- The bytes of a region of a partition; none where they do not lie in it. -/
def State.partBytes (s : State) (p sel o n : Nat) : Option (List (Byte × Bool)) :=
  match (s.part p).regions.find? sel with
  | some r => if !r.void ∧ o + n ≤ r.size then some (s.regionBytes r o n) else none
  | none => none

/-- R268 to R272: what the read of bytes of a region of a partition leaves behind. -/
def State.partTouched (s : State) (p sel o n : Nat) : State :=
  match (s.part p).regions.find? sel with
  | some r => if !r.void ∧ o + n ≤ r.size ∧ n ≠ 0 then s.regionTouched r o n p else s
  | none => s

/-- Table 7-13: the header of a grammar table. -/
structure GramHead where
  states   : Nat
  start    : Nat
  trans    : Nat
  stateOff : Nat
  transOff : Nat
deriving DecidableEq, Repr

def GramHead.ofBytes (l : List Byte) : GramHead :=
  { states := natAt l 4 4, start := natAt l 8 4, trans := natAt l 12 4, stateOff := natAt l 16 8, transOff := natAt l 24 8 }

/-- Table 7-13: a state of a grammar. -/
structure GramState where
  mask  : Nat
  first : Nat
  count : Nat
  dflt  : Nat
  stop  : Bool
deriving DecidableEq, Repr

def GramState.ofBytes (l : List Byte) : GramState :=
  { mask := natAt l 0 8, first := natAt l 8 4, count := natAt l 12 4, dflt := natAt l 16 4, stop := bitAt (natAt l 20 4) 0 }

/-- R214: the header of a registered grammar. -/
def State.gramHead (s : State) (p handle : Nat) : Option GramHead :=
  match (s.part p).grammars.find? handle with
  | some g => (s.partBytes p 0 g.offset 32).map (fun b => GramHead.ofBytes (b.map Prod.fst))
  | none => none

/-- R214: a state of a registered grammar. -/
def State.gramState (s : State) (p handle st : Nat) : Option GramState :=
  match s.gramHead p handle with
  | some h => if st < h.states then
      (s.partBytes p 0 (h.stateOff + 32 * st) 32).map (fun b => GramState.ofBytes (b.map Prod.fst)) else none
  | none => none

/-- "No next state" of R214. -/
def noState : Nat := 0xFFFFFFFF

/-- R215: the next state after token `t` in state `st`. -/
def State.gramNext (s : State) (p handle st t : Nat) : Nat :=
  match s.gramHead p handle, s.gramState p handle st with
  | some h, some g =>
    let b := ((s.partBytes p 0 (h.transOff + 8 * g.first) (8 * g.count)).getD []).map Prod.fst
    match (List.range g.count).find? (fun i => natAt b (8 * i) 4 % 2 ^ 18 = t) with
    | some i => natAt b (8 * i + 4) 4
    | none => g.dflt
  | _, _ => noState

/-- R214, R268 to R272: what the sampler's reads for an advance by token `t` from state `st` to state `n` leave behind: the header, the
record of each state, and the transition found; which others the search reads the spec does not say. -/
def State.gramTouched (s : State) (p handle st t n : Nat) : State :=
  match (s.part p).grammars.find? handle, s.gramHead p handle with
  | some g, some h =>
    let s1 := (s.partTouched p 0 g.offset 32).partTouched p 0 (h.stateOff + 32 * st) 32
    let s2 := match s.gramState p handle st with
      | some v =>
        let b := ((s.partBytes p 0 (h.transOff + 8 * v.first) (8 * v.count)).getD []).map Prod.fst
        match (List.range v.count).find? (fun i => natAt b (8 * i) 4 % 2 ^ 18 = t) with
        | some i => s1.partTouched p 0 (h.transOff + 8 * (v.first + i)) 8
        | none => s1
      | none => s1
    if n < h.states then s2.partTouched p 0 (h.stateOff + 32 * n) 32 else s2
  | _, _ => s

/-- Table 7-10: the sampling context of a request. -/
def State.contextBytes (s : State) (i : Nat) : List Byte :=
  let r := s.req i
  let d := r.desc
  let mask := if d.grammar.toNat = 0xFFFF then 2 ^ 64 - 1
    else ((s.gramState r.partition d.grammar.toNat r.gstate.toNat).map GramState.mask).getD (2 ^ 64 - 1)
  leBytes 4 d.temperature.toNat ++ leBytes 4 d.topP.toNat ++ leBytes 2 (if d.topK = 0 then 64 else d.topK.toNat)
    ++ leBytes 1 r.depth ++ leBytes 1 0 ++ leBytes 4 r.gstate.toNat ++ leBytes 8 d.seed.toNat ++ leBytes 8 d.mask.toNat
    ++ leBytes 8 mask ++ leBytes 4 r.committed ++ leBytes 4 0 ++ d.eos.toList.flatMap (fun e => leBytes 4 e.toNat)

/-- R208: writes the sampling context of a request into its partition's serving region. -/
def State.writeContext (s : State) (i : Nat) : State :=
  let r := s.req i
  match s.servingRegion r.partition with
  | some g => s.patchRegion g (64 * (i - (s.part r.partition).entry.reqFirst.toNat)) (s.contextBytes i) r.partition
  | none => s

end Sys2Proof.Machine
end

