-- ==== Sys2Proof/Machine/Admit.lean ====
section
/-! DEFINITION. Admission (R184, R192, R201, R328): `SV_ADMIT` and `SV_KV_OPEN`. -/

namespace Sys2Proof.Machine

/-- R184: an FP32 field that is negative or not finite. -/
def badFloat (w : Word) : Bool :=
  decide (w.extractLsb' 23 8 = 0xFF) || (w.getLsbD 31 && decide (w.extractLsb' 0 31 ≠ 0))

/-- R184: whether `n` bytes from an offset of a partition's region `sel` lie in it. -/
def State.inRegion (s : State) (p sel o n : Nat) : Bool :=
  match (s.part p).regions.find? sel with
  | some r => !r.void && decide (o + n ≤ r.size)
  | none => false

/-- R213: bytes of an allowed-token bitmap, padded. -/
def bitmapBytes (vocab : Nat) : Nat := ceilDiv (ceilDiv vocab 8) 2048 * 2048

/-- R340: whether a steering index lies in a partition's range. -/
def State.steerInRange (s : State) (p i : Nat) : Bool :=
  let e := (s.part p).entry
  decide (e.steerFirst.toNat ≤ i) && decide (i < e.steerFirst.toNat + e.steerCount.toNat)

/-- R201: whether a partition's role takes the command. -/
def Role.takes (r : Role) (d : Desc) (opens : Bool) : Bool :=
  match r with
  | .mixed => true
  | .prefill => opens && d.ship
  | .decode => !opens

/-- R184, R201: the descriptors refused with `BAD_PARAM`. -/
def State.descBad (s : State) (p ed : Nat) (d : Desc) (opens : Bool) : Bool :=
  let e := s.edition ed
  decide (7 < d.cls.toNat)
  || !decide (d.ringEntries.toNat ∈ (List.range 13).map (fun i => 2 ^ (i + 4)))
  || decide (d.ringBase.toNat % 16 ≠ 0)
  || decide (d.promptLen = 0)
  || decide (d.maxLen.toNat < d.promptLen.toNat + 1)
  || (match e.serving with
      | some r => decide (r.maxLen < d.maxLen.toNat) || decide (r.draftMax < d.draftDepth.toNat)
      | none => false)
  || decide (7 < d.draftDepth.toNat)
  || (decide (d.draftDepth ≠ 0) && decide (d.grammar ≠ 0xFFFF))
  || decide (64 < d.topK.toNat)
  || badFloat d.temperature || badFloat d.topP
  || (decide (d.grammar ≠ 0xFFFF) && !(s.part p).grammars.has d.grammar.toNat)
  || (decide (d.steer ≠ 0xFFFFFFFF) && !(s.steerInRange p d.steer.toNat && (s.part p).steers.has d.steer.toNat))
  || (decide (d.mask ≠ 0xFFFFFFFFFFFFFFFF)
      && !(decide (d.mask.toNat % 2048 = 0)
          && s.inRegion p 0 d.mask.toNat (bitmapBytes ((e.serving.map ServingRec.vocab).getD 0))))
  || (opens && !s.inRegion p 0 d.promptOff.toNat (4 * d.promptLen.toNat))
  || !(s.part p).role.takes d opens

/-- R152, R154, R148: what stands against the edition that a descriptor names or follows. -/
def State.editionBad (s : State) (p : Nat) (d : Desc) : Option Nat :=
  let pinned := decide (d.edition ≠ 0xFFFF)
  let id := s.editionFor p d
  let e := s.edition id
  if pinned then
    if id = 0 ∨ e.partition ≠ p ∨ e.state = .free then some stNoSuch
    else if !decide (e.state = .ready ∨ e.state = .current ∨ e.state = .retained) || e.noPinned then some stBadState
    else none
  else if id = 0 then some stBadState else none

/-! Holds and wakes that admission counts (R150, R246, R397). -/

/-- Table 5-6, phase 3: the bound of programming rows, over the fields of a list of (core, engine, rows) at their concurrency, in
ns. -/
def rewriteNsAt (conc : Nat → Nat) (rows : List (Nat × Nat × Nat)) : Nat :=
  let fields := rows.foldl (fun l r => insertNat (r.1 / coresPerField) l) []
  fields.foldl (fun m f =>
    let mine := rows.filter (fun r => r.1 / coresPerField = f)
    let n := (mine.map (fun r => r.2.2)).sum
    let engines := mine.foldl (fun l r => insertNat (r.1 * 32 + r.2.1) l) []
    let busiest := engines.foldl (fun m k => Nat.max m
      ((mine.filter (fun r => r.1 * 32 + r.2.1 = k)).map (fun r => r.2.2)).sum) 0
    Nat.max m ((ceilDiv n (Nat.max 1 (conc f)) + busiest) * 160000)) 0

/-- The same at the concurrency that each field has now. -/
def State.rewriteNs (s : State) (rows : List (Nat × Nat × Nat)) : Nat := rewriteNsAt (fun f => (s.power f).conc) rows

/-- The rows that the agents still hold for the cores of a list. -/
def State.rowsWaiting (s : State) (cores : List Nat) : List (Nat × Nat × Nat) :=
  cores.flatMap (fun k => ((s.core k).engines.entries.filter (fun e => !e.2.rowsLeft.isEmpty)).map (fun e =>
    (k, e.1, e.2.rowsLeft.length)))

/-- R396 steps 2 and 6: the test in place and the close, in ns. -/
def unitTestNs : Nat := 30 * 10 ^ 6
def closeNs : Nat := 20 * 10 ^ 6

/-- The hold that remains for an edition: a rolling switch or refresh hold past its gate (R150), a unit taken out (R397) or a
field being rebuilt (R398). -/
def State.holdLeft (s : State) (ed : Nat) : Nat :=
  let e := s.edition ed
  let rolls := s.editions.vals.foldl (fun m v => match v.rolling with
    | some r => if v.partition = e.partition ∧ r.phase ≠ .waiting then Nat.max m (r.gateAt.toNat + r.hUs * 1000 - s.now) else m
    | none => m) 0
  let units := s.plan.outUnits.foldl (fun m u =>
    if !u.editions.contains ed then m
    else if u.phase = 0 ∨ u.phase = 1 then Nat.max m (unitTestNs + s.rewriteNs (s.rowsWaiting [u.dest]) + closeNs)
    else if u.phase = 2 then Nat.max m (s.rewriteNs (s.rowsWaiting [u.dest]) + closeNs)
    else m) 0
  let fields := s.plan.rebuilds.foldl (fun m r =>
    if (s.edFields ed).contains r.1 then
      Nat.max m (s.rewriteNs (s.rowsWaiting ((List.range coresPerField).map (coreKey r.2))) + closeNs) else m) 0
  Nat.max rolls (Nat.max units fields)

/-- R246: the time until every field of an edition can take work. -/
def State.wakeLeft (s : State) (ed : Nat) : Nat := (s.edFields ed).foldl (fun m f => Nat.max m (s.wakeDelay f)) 0

/-- The first window whose start is at least `ns` away. -/
def State.windowAfter (s : State) (ns : Nat) : Nat :=
  s.plan.window + 1 + (if s.now + ns ≤ s.plan.tNext.toNat ∨ s.plan.wNext = 0 then 0
    else ceilDiv (s.now + ns - s.plan.tNext.toNat) s.plan.wNext)

/-! The grid part of admission (R192 steps 3 to 6). -/

/-- What steps 3 to 6 answer: a refusal, or P, prefill slots, first visit and t_ft. -/
inductive GridRes where
  | refuse (status : Nat)
  | ok (period : Nat) (prefill : List (Nat × Nat)) (w0 tft : Nat)
deriving DecidableEq, Repr

/-- R192 steps 3 to 6 for a request of `need` prefill positions with `wait` ns already gone, on the grid of the limits decided
(R231). -/
def State.gridPlan (s : State) (ed : Nat) (cls : ClassRec) (depth need wait : Nat) : GridRes :=
  let t := s.ahead
  let e := t.edition ed
  let r := e.allowance cls.replay.toNat
  let period := visitPeriod t.plan.wNext e.frame r e.drep (cls.betweenUs.toNat * 1000)
  let q : PlanReq :=
    { ed := ed, a := s.plan.window, need := need, period := period, slots := 1 + depth, extra := r * e.drep
      bound := cls.firstUs.toNat * 1000, w := t.plan.wNext, wait := wait
      first := s.windowAfter (Nat.max (s.wakeLeft ed) (s.holdLeft ed)) }
  match t.planRequest q with
  | .ok l w0 we => .ok period l w0 (t.firstNs q we).toNat
  | .capacity => .refuse stRefusedCapacity
  | .bound => .refuse stRefusedBound

/-- R231: the window length that admission plans with. -/
def State.aheadW (s : State) : Nat := s.ahead.plan.wNext

/-- R192 step 6: W × (P + r × δrep), as the reply gives it. -/
def State.betweenOf (s : State) (ed : Nat) (cls : ClassRec) (period : Nat) : Nat :=
  let e := s.ahead.edition ed
  s.aheadW * (period + e.allowance cls.replay.toNat * e.drep)

/-- R192: reserves visits: the grid part of a request's entry. -/
def State.reserveVisits (s : State) (i ed : Nat) (period : Nat) (prefill : List (Nat × Nat)) (w0 tft : Nat) : State :=
  (s.updReq i (fun r => { r with
    kvWait := false, period := period, prefill := prefill, nextVisit := w0, acceptedWin := s.plan.window, firstNs := tft
    betweenNs := s.betweenOf ed r.cls period })).wakeAll (s.edFields ed)

/-- R192 steps 1 and 2: a free entry and the KV pages; the pages short where the region does not hold them. -/
def State.entryPages (s : State) (p ed : Nat) (d : Desc) : Option (Nat × List Nat) × Nat :=
  match s.freeEntry p with
  | none => (none, 0)
  | some i =>
    let n := (s.edition ed).pagesFor d.maxLen.toNat
    let free := s.freePages p
    if free.length < n then (none, n - free.length) else (some (i, free.take n), 0)

/-- R185: a request's entry at admission, its visits aside. -/
def Req.opened (r : Req) (p ed : Nat) (d : Desc) (cls : ClassRec) (pages : List Nat) (accepted : U64) (order : Nat)
    (start : Word) (kv : Bool) : Req :=
  { gen := r.gen, state := .admitted, partition := p, kvWait := kv, desc := d, cls := cls, edition := ed
    follow := decide (d.edition = 0xFFFF), acceptedAt := accepted, order := order, depth := d.draftDepth.toNat, pages := pages
    gstate := start, committed := if kv then d.promptLen.toNat else 0 }

/-- R192, R208: opens entry `i` for a request: takes it off the free list, with its copy of the class record, and writes the sampling
context. -/
def State.openReq (s : State) (i p ed : Nat) (d : Desc) (cls : ClassRec) (pages : List Nat) (accepted : U64) (kv : Bool) : State :=
  let start : Word := if d.grammar = 0xFFFF then 0xFFFFFFFF
    else BitVec.ofNat 32 (((s.gramHead p d.grammar.toNat).map GramHead.start).getD 0xFFFFFFFF)
  let s1 := (s.updPart p Partition.takeEntry).updReq i (fun r => r.opened p ed d cls pages accepted s.plan.order start kv)
  (({ s1 with plan := { s1.plan with order := s1.plan.order + 1 } } : State).countPart p pcAdmitted 1).writeContext i

/-- Table 11-5: the command set that a descriptor's field values need. -/
def descFields (d : Desc) : Nat :=
  if d.ship then 0x0500
  else if d.draftDepth ≠ 0 ∨ d.draftAdapt ∨ d.grammar ≠ 0xFFFF then 0x0400
  else if d.steer ≠ 0xFFFFFFFF then 0x0301 else 0x0300

/-- R289: a module ID with a set bit above the digits names no module. -/
def RouteRec.idBad (r : RouteRec) (id : Nat) : Bool :=
  decide (2 ^ (r.memberBits.toNat + r.l1Bits.toNat + r.l2Bits.toNat + r.l3Bits.toNat) ≤ id)

/-- R203: the module and the tag that a descriptor ships to. -/
def shipModule (d : Desc) : Nat := d.shipTo.toNat % 2 ^ 18
def shipTag (d : Desc) : Nat := d.shipTo.toNat / 2 ^ 18 % 2 ^ 24

/-- What admission answers: a refusal (status, detail, pages missing), or entry, pages and grid. -/
inductive AdmitRes where
  | refuse (status missing : Nat)
  | ok (entry : Nat) (pages : List Nat) (period : Nat) (prefill : List (Nat × Nat)) (w0 tft : Nat)
deriving DecidableEq, Repr

/-- R277: whether a region of an edition touches a lost stack. -/
def State.edStackLost (s : State) (ed : Nat) : Bool :=
  (s.edition ed).regions.vals.any (fun r => r.stackSet.any (fun k => decide ((s.stack k).link = .lost)))

/-- R192 step 3: a request's period under the terms in force. -/
def State.periodOf (s : State) (r : Req) : Nat :=
  let e := s.edition r.edition
  visitPeriod s.plan.wNext e.frame (e.allowance r.cls.replay.toNat) e.drep (r.cls.betweenUs.toNat * 1000)

/-- R157: 24 h of timebase, and the most reloads that a pool row takes in them. -/
def dayNs : Nat := 86400 * 10 ^ 9
def poolRowLimit : Nat := 144

/-- R157: passes that a request can make through its edition in 24 h: its prefill windows, and its visits as far as it has tokens. -/
def passesPerDay (w period prefill tokens : Nat) : Nat :=
  prefill + (if period = 0 ∨ w = 0 then 0 else Nat.min tokens (ceilDiv dayNs (period * w)))

/-- R157: whether `passes` more passes in 24 h would program some pool row of a forerunner edition too often. -/
def State.poolBusy (s : State) (ed passes : Nat) : Bool :=
  let e := s.edition ed
  let uses := e.layers.flatMap (fun l => (Config.forerunnerRows ed l).map (fun r => (r.2, l)))
  uses.any (fun u =>
    let mine := (uses.filter (fun v => v.1 = u.1)).map Prod.snd
    let done := (e.reloads.filter (fun x => decide (s.since x.2 < dayNs) && mine.contains x.1)).length
    decide (poolRowLimit < done + mine.length * passes))

/-- R157: the passes that a request can make in 24 h; one in the siding counts with the prefill windows and visits of its return, of
which the windows are as few as the entry limit allows. -/
def State.reqPasses (s : State) (r : Req) : Nat :=
  let sided := decide (r.state = .siding)
  let left := if r.sidedFrom = .running then 0 else r.desc.promptLen.toNat - Nat.max r.prefillPos r.committed
  passesPerDay s.aheadW (if sided then s.periodOf r else r.period)
    (if sided then ceilDiv left (Nat.max 1 (s.edition r.edition).entryLimit) else r.prefill.length) (r.desc.maxLen.toNat - r.committed)

/-- R157: the passes that the requests of an edition can make in 24 h, but for request `but`. -/
def State.edPasses (s : State) (ed : Nat) (but : Option Nat := none) : Nat :=
  ((s.reqs.entries.filter (fun (x : Nat × Req) => x.2.edition = ed ∧ (x.2.active ∨ x.2.state = .siding) ∧ some x.1 ≠ but)).map
    (fun x => s.reqPasses x.2)).sum

/-- R157: whether a pool engine that a layer of a forerunner edition needs is retired and not yet replaced: no pass is admitted then. -/
def State.poolBroken (s : State) (ed : Nat) : Bool :=
  (s.edition ed).layers.any (fun l => (Config.forerunnerRows ed l).any (fun r =>
    let k := s.physOf ((unpackKey r.2.1).getD 0)
    let e := ((s.core k).emap)[unpackEngine r.2.1]?.getD 0
    (s.engine k e).failed || (s.engine k e).fenced || decide ((s.array k e (r.2.2 / arrayRows)).state ≠ 0)))

/-- R157: whether the pool rows of an edition bear fewer than `passes` more passes in 24 h. -/
def State.poolShort (s : State) (ed passes : Nat) : Bool :=
  decide ((s.edition ed).kind = .forerunner) && (s.poolBroken ed || s.poolBusy ed passes)

/-- R157: whether a forerunner edition's pool rows bear no request more with `prefill` prefill windows and `tokens` tokens to come. -/
def State.poolFull (s : State) (ed period prefill tokens : Nat) : Bool :=
  s.poolShort ed (s.edPasses ed + passesPerDay s.aheadW period prefill tokens)

/-- R192 in order: entry, pages, then the grid; an edition out of service (R398) or with a stack lost (R277) admits nothing, a forerunner one
no more than its pool rows bear (R157). -/
def State.admission (s : State) (p : Nat) (d : Desc) (cls : ClassRec) (wait : Nat) : AdmitRes :=
  let ed := s.editionFor p d
  match s.entryPages p ed d with
  | (none, missing) => .refuse stRefusedCapacity missing
  | (some (i, pages), _) =>
    if (s.edition ed).noService ∨ s.edStackLost ed then .refuse stRefusedCapacity 0
    else match s.gridPlan ed cls d.draftDepth.toNat d.promptLen.toNat wait with
      | .refuse st => .refuse st 0
      | .ok period l w0 tft =>
        if s.poolFull ed period l.length (d.maxLen.toNat - d.promptLen.toNat) then .refuse stRefusedCapacity 0
        else .ok i pages period l w0 tft

/-- Table 11-15 function 1, Table 7-2: the descriptor as bytes. -/
def descBytes (d : Desc) : List Byte :=
  leBytes 1 d.cls.toNat ++ leBytes 1 (d.deadlineContinue.toNat + 2 * d.draftAdapt.toNat + 4 * d.ship.toNat)
    ++ leBytes 2 d.edition.toNat ++ leBytes 4 d.steer.toNat ++ leBytes 8 d.deadline.toNat ++ leBytes 4 d.promptLen.toNat
    ++ leBytes 4 d.maxLen.toNat ++ leBytes 8 d.ringBase.toNat ++ leBytes 4 d.ringEntries.toNat ++ leBytes 1 d.draftDepth.toNat
    ++ leBytes 1 0 ++ leBytes 2 d.grammar.toNat ++ leBytes 8 d.seed.toNat ++ leBytes 4 d.temperature.toNat
    ++ leBytes 4 d.topP.toNat ++ leBytes 2 d.topK.toNat ++ leBytes 6 0 ++ leBytes 8 d.mask.toNat
    ++ d.eos.toList.flatMap (fun e => leBytes 4 e.toNat) ++ leBytes 8 d.promptOff.toNat ++ leBytes 8 (d.shipTo.toNat % 2 ^ 42)
    ++ leBytes 8 d.cookie.toNat ++ leBytes 16 0

/-- R192, R328: an admission that passes: the entry is opened, its visits reserved, and `ACCEPTED` carries the tag. -/
def State.admitOk (s : State) (h : Hdr) (d : Desc) (cls : ClassRec) (accepted : U64) (i : Nat) (pages : List Nat) (period : Nat)
    (prefill : List (Nat × Nat)) (w0 tft : Nat) : State :=
  let p := h.partition.toNat
  let ed := s.editionFor p d
  let s1 := (s.openReq i p ed d cls pages accepted false).reserveVisits i ed period prefill w0 tft
  s1.finish h.conn h.cmdTag stAccepted 0 (some (s1.tag i)) (admitBody d period s.aheadW tft (s.betweenOf ed cls period) 0)

/-- The status of a hardware verdict. -/
def AdmitRes.status : AdmitRes → Nat
  | .refuse st _ => st
  | .ok _ _ _ _ _ _ => stAccepted

/-- R192: brings a verdict into effect. -/
def State.admitAs (s : State) (h : Hdr) (d : Desc) (cls : ClassRec) (accepted : U64) : AdmitRes → State
  | .ok i pages period l w0 tft => s.admitOk h d cls accepted i pages period l w0 tft
  | .refuse st missing =>
    (s.countPart h.partition.toNat pcRefused 1).finish h.conn h.cmdTag st 0 none (admitBody d 0 s.aheadW 0 0 missing)

/-- Table 11-15: the bounds of the assists of functions 1, 2, 3 and 6, in ns. -/
def assistNs (f : Nat) : Nat :=
  if f = 1 then 100000 else if f = 2 ∨ f = 3 then 10000 else if f = 4 then 10 ^ 9 else if f = 6 then 200000 else 10 ^ 10

/-- The deadline of an assist sent now. -/
def State.assistBy (s : State) (f : Nat) : U64 := BitVec.ofNat 64 (s.now + assistNs f)

/-- R335, R336: the admission assist's answer, or its bound gone by, settles the command: an answer of 0 refuses it with
`detail` 1, else the hardware verdict stands, with the actual wait in t_ft. -/
def State.admitSettled (s : State) (a : Assist) (refused : Bool) : State :=
  match a.desc with
  | none => s
  | some (d, h) =>
    let accepted := a.deadline - BitVec.ofNat 64 (assistNs 1)
    if refused then
      (s.countPart h.partition.toNat pcRefused 1).finish h.conn h.cmdTag stRefusedCapacity 1 none
        (admitBody d 0 s.aheadW 0 0 0)
    else if a.verdict ≠ stAccepted then s.admitAs h d a.cls accepted (.refuse a.verdict a.slot)
    else s.admitAs h d a.cls accepted (s.admission h.partition.toNat d a.cls (s.since accepted))

/-- SV_ADMIT (R184, R192, R310, R312, R320, R328): take a request in under the admission arithmetic, or refuse it; a refusal with `VERSION` for
the receiving module names it after the body (log 181). -/
def execSvAdmit (h : Hdr) (d : Desc) (s : State) : Out :=
  .next (s.command h rowSvAdmit (h.length = 128) (fun s =>
    let p := h.partition.toNat
    if s.editionBad p d = some stNoSuch then .refuse stNoSuch 0 (admitBody d 0 s.aheadW 0 0 0)
    else if s.descBad p (s.editionFor p d) d true || (d.ship && RouteRec.idBad s.fabric.route (shipModule d)) then
      .refuse stBadParam 0 (admitBody d 0 s.aheadW 0 0 0)
    else match s.editionBad p d with
      | some st => .refuse st 0 (admitBody d 0 s.aheadW 0 0 0)
      | none =>
        let cls := s.classOf p d.cls.toNat
        let v := s.admission p d cls 0
        if d.ship ∧ s.fabric.peers.find (shipModule d) 0 < 3 then
          .refuse stVersion 0 (admitBody d 0 s.aheadW 0 0 0 ++ leBytes 4 (shipModule d))
        else if s.assisted p 1 then
          if s.assistRoom p then
            let missing := match v with | .refuse _ m => m | .ok _ _ _ _ _ _ => 0
            .run (s.sendAssist { fn := 1, partition := p, deadline := s.assistBy 1, desc := some (d, h), cls := cls, verdict := v.status,
                                 slot := missing } 0xFFFFFFFF (descBytes d ++ leBytes 1 v.status))
          else .run ((s.countPart p pcAssistLate 1).admitAs h d cls s.stamp v)
        else match v with
          | .refuse st missing => .refuse st 0 (admitBody d 0 s.aheadW 0 0 missing)
          | .ok i pages period l w0 tft => .run (s.admitOk h d cls s.stamp i pages period l w0 tft)) (descFields d)
    (body := fun t => admitBody d 0 t.aheadW 0 0 0))

/-- SV_KV_OPEN (R205): reserve a receiving entry in `kv_wait` for a KV shipment; no visits, no promise. -/
def execSvKvOpen (h : Hdr) (d : Desc) (s : State) : Out :=
  .next (s.command h rowSvKvOpen (h.length = 128) (fun s =>
    let p := h.partition.toNat
    let no := fun st missing => Verdict.refuse st 0 (admitBody d 0 s.aheadW 0 0 missing)
    if s.editionBad p d = some stNoSuch then no stNoSuch 0
    else if s.descBad p (s.editionFor p d) d false then no stBadParam 0
    else match s.editionBad p d with
      | some st => no st 0
      | none =>
        let ed := s.editionFor p d
        if (s.edition ed).noService then no stRefusedCapacity 0
        else match s.entryPages p ed d with
          | (none, missing) => no stRefusedCapacity missing
          | (some (i, pages), _) =>
            let s1 := (s.openReq i p ed d (s.classOf p d.cls.toNat) pages s.stamp true).updReq i (fun r => { r with kvCmd := some (h.conn, h.cmdTag) })
            .run (s1.answer h.conn h.cmdTag false stOk 0 (some (s1.tag i)) (admitBody d 0 s.aheadW 0 0 0))) (descFields d)
    (body := fun t => admitBody d 0 t.aheadW 0 0 0))

/-- R205: every page of a shipment has checked: admission runs with no prefill; its first-token clock starts now. One that fails
is reported `REFUSED_CAPACITY` (Table 7-3) and leaves at the next boundary. -/
def State.admitShipped (s : State) (i : Nat) : State :=
  let r := s.req i
  let ed := if r.follow then (s.part r.partition).current else r.edition
  let fin := fun (t : State) (st : Nat) (body : List Byte) => match r.kvCmd with
    | some (c, tag) => t.finish c tag st 0 (some (s.tag i)) body
    | none => t
  let verdict := if (s.edition ed).noService ∨ s.edStackLost ed then GridRes.refuse stRefusedCapacity
    else match s.gridPlan ed r.cls r.depth 0 0 with
      | .ok period l w0 tft =>
        if s.poolFull ed period l.length (r.desc.maxLen.toNat - r.committed) then .refuse stRefusedCapacity else .ok period l w0 tft
      | .refuse st => .refuse st
  match verdict with
  | .ok period l w0 tft =>
    let s1 := s.updReq i (fun r => { r with acceptedAt := s.stamp, edition := ed, kvCmd := none })
    fin ((s1.reserveVisits i ed period l w0 tft).writeContext i) stAccepted
      (admitBody r.desc period s.aheadW tft (s.betweenOf ed r.cls period) 0)
  | .refuse _ =>
    fin ((s.updReq i (fun r => { r with kvCmd := none })).defer (.retire i r.gen stRefusedCapacity)) stRefusedCapacity
      (admitBody r.desc 0 s.aheadW 0 0 0)

end Sys2Proof.Machine
end

