-- ==== Sys2Proof/Machine/Hold.lean ====
section
/-! DEFINITION. The programming concurrency of a field (R142, R149), the hold bound of a rewrite (R150), the order of engine refreshes
(R169) and what a ledger commit sets going (R178). -/

namespace Sys2Proof.Machine

/-- R330: a weights report on an edition. -/
def State.weightsReport (s : State) (ed status : Nat) (body : List Byte) : State :=
  s.report opWeightsReport (some (s.edition ed).partition) 0xFFFFFFFF status 0 ed body

/-! Concurrency (R142, R149). -/

/-- R142: the greatest power in µW that the firings planned for admitted requests take in a field in any window of the horizon;
those of partition `held`, which a barrier holds, aside. -/
def State.plannedUw (s : State) (held : Option Nat) (f : Nat) : Nat :=
  let w := Nat.max 1 s.plan.wNext
  let eds := (s.fieldEditions f).filter (fun e => held ≠ some (s.edition e).partition)
  let most := ((List.range (2 * 10 ^ 6 / w + 1)).map (fun i =>
    (eds.map (fun e => s.load e (s.plan.window + 1 + i) * Config.segEvals (s.edition e).digest f)).sum)).foldl Nat.max 0
  ceilDiv (most * 131072) w

/-- R142, R39: the part of a field's array grant, in µW, that planned firings leave unused: a sixteenth of the grant at least. -/
def State.unplannedUw (s : State) (held : Option Nat) (f : Nat) : Nat :=
  let g := (s.power f).grant * 10 ^ 6
  Nat.max (g / 16) (g - s.plannedUw held f)

/-- R142: whether a field holds admitted work of a partition other than `held`. -/
def State.admittedOn (s : State) (held : Option Nat) (f : Nat) : Bool :=
  s.reqs.vals.any (fun r => decide (r.state ≠ .free ∧ r.state ≠ .retired ∧ held ≠ some r.partition)
    && (s.fieldEditions f).contains r.edition)

/-- R142: the concurrency of a field while partition `held` has no token in flight (R149). -/
def State.concWhen (s : State) (held : Option Nat) (f : Nat) : Nat :=
  if (s.power f).step = 7 then 0
  else if !s.admittedOn held f then 32
  else Nat.min 32 (Nat.max 1 (s.unplannedUw held f / 1500000))

/-- R149: the partition whose rewrite is under way on a field. -/
def State.rewriterOf (s : State) (f : Nat) : Option Nat :=
  s.editions.entries.findSome? (fun (x : Nat × Edition) => match x.2.rolling with
    | some r => if r.phase = .rewrite ∧ (s.edFields x.1).contains f then some x.2.partition else none
    | none => none)

/-- R142, R149: the programming concurrency of a field. -/
def State.concurrency (s : State) (f : Nat) : Nat := s.concWhen (s.rewriterOf f) f

/-! The hold bound (R150). -/

/-- R150: ns of a hold as µs, rounded up. -/
def holdUs (ns : Nat) : Nat := ceilDiv ns 1000

/-- R5: the physical engines that an edition's cores use: (core, engine). -/
def State.edEngines (s : State) (ed : Nat) : List (Nat × Nat) :=
  (s.edition ed).places.flatMap (fun p => (s.core (s.physOf p)).emap.map (fun e => (s.physOf p, e)))

/-- The staged rows of a rolling build by engine. -/
def State.rollRows (s : State) (ed : Nat) : List (Nat × Nat × Nat) :=
  ((s.edition ed).staged.vals.filter (fun x => x.kind = 3)).map (fun x =>
    let t := s.engineOfTarget x.target
    (t.1, t.2, x.rowCount))

/-- R150, R171: the rows that a rolling switch or a refresh hold has to program: every staged row, or one whole engine for each due one. -/
def State.holdRows (s : State) (ed : Nat) (refresh : Bool) : List (Nat × Nat × Nat) :=
  if refresh then ((s.edEngines ed).filter (fun x => (s.engine x.1 x.2).arrays.vals.any (fun a => a.refDue))).map (fun x =>
    (x.1, x.2, 8192))
  else s.rollRows ed

/-- R150: the hold bound of a switch before its gate: drain, rewrite at the concurrency that the fields will have, and close. -/
def State.holdBound (s : State) (ed : Nat) (rows : List (Nat × Nat × Nat)) : Nat :=
  holdUs (((s.edition ed).sections - 1) * s.plan.wNext + rewriteNsAt (s.concWhen (some (s.edition ed).partition)) rows + closeNs)

/-- R150: a new H is reported. -/
def State.newHold (s : State) (ed : Nat) (r : Rolling) (us : Nat) : State :=
  if us = r.hUs then s
  else (s.updEdition ed (fun v => { v with rolling := v.rolling.map (fun x => { x with hUs := us }) })).weightsReport ed stPending
    (leBytes 8 us)

/-- R150: the rows that a hold has still to program: those with the agents of its cores, and of the cores that its work moves to. -/
def State.rollLeft (s : State) (ed : Nat) : List (Nat × Nat × Nat) :=
  let b := if ((s.edition ed).rolling.map Rolling.refresh).getD false then ed else (s.edition ed).base
  s.rowsWaiting (s.edCores b ++ (s.plan.outUnits.filter (fun u => 2 ≤ u.phase ∧ u.editions.contains b)).map UnitOut.dest).eraseDups

/-- R150: recomputes H: the time since the gate and the bounds of the phases still to run, phase 3 over the rows not yet programmed. In
the drain and in the close only rows that moved change it. -/
def State.rehold (s : State) (ed : Nat) (moved : Bool := false) : State :=
  match (s.edition ed).rolling with
  | some r =>
    let gone := s.now - r.gateAt.toNat
    let left := s.rollLeft ed
    if r.phase = .rewrite ∨ (moved ∧ r.phase = .close) then s.newHold ed r (holdUs (gone + s.rewriteNs left + closeNs))
    else if moved ∧ r.phase = .drain then
      s.newHold ed r (holdUs (Nat.max gone (((s.edition ed).sections - 1) * s.plan.wNext)
        + rewriteNsAt (s.concWhen (some (s.edition ed).partition)) (s.holdRows ed r.refresh ++ left) + closeNs))
    else s
  | none => s

/-- R150: the hold bound of every barrier that has work in one of some fields is taken again. -/
def State.reholdOn (s : State) (fs : List Nat) (moved : Bool := false) : State :=
  s.editions.keys.foldl (fun (t : State) e => if (t.edFields e).any fs.contains then t.rehold e moved else t) s

/-- R142, R150: the concurrency of some fields is set anew, and H follows where it changed. -/
def State.setConc (s : State) (fs : List Nat) : State :=
  let s1 := fs.foldl (fun (t : State) f => t.updPower f (fun p => { p with conc := t.concurrency f })) s
  s1.reholdOn (fs.filter (fun f => (s.power f).conc ≠ (s1.power f).conc))

/-! Engine refreshes (R169). -/

/-- R169: whether a refresh of engine `e` may be planned: one of its arrays is open or due. -/
def Engine.refreshOpen (v : Engine) : Bool := v.arrays.vals.any (fun a => a.refOpen || a.refDue)

/-- R168, R169: the age of an engine's oldest open array, in s of ageing. -/
def State.openAge (s : State) (k e : Nat) : Nat :=
  (s.engine k e).arrays.entries.foldl (fun m a => if a.2.refOpen ∨ a.2.refDue then Nat.max m (s.arrayAge k e a.1) else m) 0

/-- R169: an engine that the hardware mode has to refresh: open, not begun, and not waiting for its core to move. -/
def State.hwWaits (s : State) (k e : Nat) : Bool :=
  s.holdsWeights k e && (s.engine k e).refreshOpen && (s.engine k e).refresh.isNone
    && !s.assisted (s.edition (s.core k).edition).partition 4 && !s.plan.outUnits.any (fun u => decide (u.unit = packedCore k))

/-- R169: whether engine `e` comes next in hardware mode: no other waits with an older open array, nor with one as old in a field
with more unplanned power. -/
def State.hwNext (s : State) (k e : Nat) : Bool :=
  let mine := s.openAge k e
  let power := fun (c : Nat) => s.unplannedUw none (c / coresPerField)
  s.cores.entries.all (fun c => c.2.engines.keys.all (fun x =>
    !s.hwWaits c.1 x || decide (s.openAge c.1 x < mine) || (decide (s.openAge c.1 x = mine) && decide (power c.1 ≤ power k))))

/-- R170, R171: a refresh starts on a free spare; with no working spare the core's work is to move; with both at work it waits. -/
def State.beginRefresh (s : State) (k e : Nat) : State :=
  match s.freeSpare k with
  | some p => s.startRefresh k e p false
  | none => if (s.core k).spares.isEmpty then s.noSpareRefresh k e else s

/-- ENGINE_REFRESH (R169, R170): a refresh is planned, with an assist first in host-assisted mode and in the order of R169 in
hardware mode, and started. -/
def execEngineRefresh (c : CoreRef) (e : Nat) (s : State) : Out :=
  let k := c.key
  let v := s.engine k e
  let part := (s.edition (s.core k).edition).partition
  .next (if !(c.ok && s.powered && s.holdsWeights k e && v.refreshOpen) then s
    else match v.refresh with
      | none =>
        if s.assisted part 4 then
          if s.assistRoom part then
            let id := s.alaok.nextAssist.toNat
            let s1 := s.sendAssist { fn := 4, partition := part, deadline := BitVec.ofNat 64 (s.now + 10 ^ 9)
                                     req := packedEngine k e } 0xFFFFFFFF
              (leBytes 4 (packedEngine k e) ++ leBytes 8 s.now)
            s1.updEngine k e (fun v => { v with refresh := some { assist := some id, startAt := s.stamp } })
          else (s.countPart part pcAssistLate 1).beginRefresh k e
        else if s.hwNext k e then s.beginRefresh k e else s
      | some r =>
        if r.phase = 0 ∧ r.assist.isNone ∧ (r.startAt.toNat ≤ s.now ∨ v.arrays.vals.any (fun a => a.refDue)) then
          (s.updEngine k e (fun v => { v with refresh := none })).beginRefresh k e
        else s)

/-- LEDGER_COMMIT (R178): the oldest waiting change takes effect; an agent that waited for a wear raise goes on, and the engine
of a retired array is replaced, which a hold counts (R150). -/
def execLedgerCommit (s : State) : Out :=
  .next (match s.ledger.waiting with
    | [] => s
    | c :: _ =>
      let s1 := s.commitOne
      let k := arrayKeyCore c.key
      let e := arrayKeyEngine c.key
      if s1.ledger.waiting.length = s.ledger.waiting.length ∨ c.kind ≠ jkArray then s1
      else if c.what = jwState ∧ c.val ≠ 3 ∧ c.val ≠ 0 then (s1.arrayRetired k e (arrayKeyArray c.key)).reholdOn [k / coresPerField] true
      else if c.what = jwRaise ∨ c.what = jwRaise2 ∨ c.what = jwMap then s1.agentIssue k e
      else s1)

end Sys2Proof.Machine
end

