-- ==== Sys2Proof/Machine/SvCmd.lean ====
section
/-! DEFINITION. The serving commands that name a request or set a partition's serving records (R183, R185, R187, R195, R199 to
R201, R214, R218, R221), and what they do to a request at the boundary. -/

namespace Sys2Proof.Machine

/-! A request's way out. -/

/-- R200: takes a request's slots and replays out of the timetable. -/
def State.dropSlots (s : State) (i : Nat) : State :=
  { s with plan := { s.plan with
      slots := s.plan.slots.filter (fun x => x.req ≠ i), replays := s.plan.replays.filter (fun x => x.slot.req ≠ i) } }

/-- R185, R222: whether a token of a request is still to come: a pass is in flight, and not only prefill positions of a request that
went to the siding before its last one entered. -/
def State.tokenDue (s : State) (i : Nat) : Bool :=
  let r := s.req i
  s.inFlight i && decide (r.state ≠ .siding ∨ r.sidedFrom = .running ∨ r.desc.promptLen.toNat ≤ r.prefillPos)

/-- R185: a request drains: its token in flight is its last; with none to come it retires with a final entry without a token. -/
def State.drain (s : State) (i status : Nat) : State :=
  if s.tokenDue i then
    s.updReq i (fun r => { r with state := .draining, ended := some status, prefill := [], period := 0 })
  else (s.dropSlots i).endRequest i status

/-- R200, R323: a cancelled request: abandoned, its `SV_KV_OPEN` answered, its final entry written, its entry and pages freed. -/
def State.cancelReq (s : State) (i : Nat) : State := (((s.dropSlots i).kvEnds i stCancelled).finalEntry i stCancelled).freeCancelled i

/-- The entry a boundary command names, while it still holds the same request. -/
def State.sameReq (s : State) (i : Nat) (g : BitVec 7) : Bool := decide ((s.req i).gen = g) && decide ((s.req i).state ≠ .free)

/-! Commands that name a request. -/

/-- R183, R322 steps 7 and 8: the tag in a command names an entry of its partition and its generation is current. -/
def State.tagFault (s : State) (h : Hdr) : Option Nat :=
  let e := (s.part h.partition.toNat).entry
  let i := tagIndex h.reqTag
  if i < e.reqFirst.toNat ∨ e.reqFirst.toNat + e.reqCount.toNat ≤ i then some stNoSuch
  else if tagGen h.reqTag ≠ (s.req i).gen then some stStaleTag
  else if (s.req i).state = .free then some stBadState
  else none

/-- A command on a request whose state allows it, else `BAD_STATE`. -/
def State.onReq (s : State) (h : Hdr) (allowed : Req → Bool) (act : State → Nat → Verdict) : Verdict :=
  match s.tagFault h with
  | some st => .refuse st 0 []
  | none => if allowed (s.req (tagIndex h.reqTag)) then act s (tagIndex h.reqTag) else .refuse stBadState 0 []

/-- R324: a command on a request that acts at the next boundary; its final reply follows there. -/
def State.atBoundary (s : State) (h : Hdr) (d : Deferred) : Verdict := .run ((s.interim h stAccepted).defer d)

/-- SV_CANCEL (R200): cancel a request at the next boundary. -/
def execSvCancel (h : Hdr) (s : State) : Out :=
  .next (s.command h rowSvCancel (h.length = 0) (fun s =>
    s.onReq h (fun r => decide (r.state ≠ .retired)) (fun s i =>
      s.atBoundary h (.cancel i (s.req i).gen h.conn h.cmdTag))))

/-- SV_FINISH (R185): a request that runs or is in the siding drains from the next boundary on. -/
def execSvFinish (h : Hdr) (s : State) : Out :=
  .next (s.command h rowSvFinish (h.length = 0) (fun s =>
    s.onReq h (fun r => decide (r.state = .running ∨ r.state = .siding)) (fun s i =>
      s.atBoundary h (.finish i (s.req i).gen h.conn h.cmdTag))))

/-- SV_PAUSE (R195): move a request to the siding under `PAUSE`. -/
def execSvPause (h : Hdr) (s : State) : Out :=
  .next (s.command h rowSvPause (h.length = 0) (fun s =>
    s.onReq h (fun r => r.active || decide (r.state = .siding)) (fun s i =>
      s.atBoundary h (.pause i (s.req i).gen h.conn h.cmdTag))))

/-- Whether a pause of a request waits for the boundary. -/
def State.pauseWaits (s : State) (i : Nat) : Bool :=
  s.mod.deferred.any (fun d => match d with
    | .pause j _ _ _ => decide (j = i)
    | _ => false)

/-- SV_RESUME (R195): clear a request's `PAUSE` cause. -/
def execSvResume (h : Hdr) (s : State) : Out :=
  .next (s.command h rowSvResume (h.length = 0) (fun s =>
    s.onReq h (fun r => decide (r.state = .siding) || (s.pauseWaits (tagIndex h.reqTag) && decide (r.state ≠ .retired))) (fun s i =>
      s.atBoundary h (.resume i (s.req i).gen h.conn h.cmdTag))))

/-- The state of a request as `SV_STATUS` gives it; the spec does not number the states. -/
def ReqState.code : ReqState → Nat
  | .free => Config.unlistedCode 0 0 | .admitted => Config.unlistedCode 0 1 | .prefill => Config.unlistedCode 0 2
  | .running => Config.unlistedCode 0 3 | .siding => Config.unlistedCode 0 4 | .draining => Config.unlistedCode 0 5
  | .retired => Config.unlistedCode 0 6

/-- R205: pages of a shipment that a receiving request still misses. -/
def State.pagesMissing (s : State) (i : Nat) : Nat :=
  let r := s.req i
  if r.kvWait then (s.edition r.edition).pagesFor r.desc.promptLen.toNat - r.kvHave.length else 0

/-- SV_STATUS (R329): a request's state and statistics; it succeeds for a RETIRED request too. -/
def execSvStatus (h : Hdr) (s : State) : Out :=
  .next (s.command h rowSvStatus (h.length = 0) (fun s =>
    s.onReq h (fun _ => true) (fun s i =>
      let r := s.req i
      .run (s.ok h stOk 0 (leBytes 1 r.state.code ++ leBytes 1 (Config.unlistedCode 1 r.causes.toNat) ++ leBytes 2 0
        ++ leBytes 4 r.committed ++ leBytes 4 (s.pagesMissing i) ++ leBytes 4 r.tokens ++ leBytes 8 r.desc.cookie.toNat)))))

/-- R221: whether an acknowledged total passes what the ring holds. -/
def Req.ackBad (r : Req) (total : Word) : Bool :=
  decide ((r.delivered + 2 ^ 32 - r.consumed) % 2 ^ 32 < (total.toNat + 2 ^ 32 - r.consumed) % 2 ^ 32)

/-- SV_RING_ACK (R221): return ring space; what the request's buffer holds follows, and a `RING` cause clears. -/
def execSvRingAck (h : Hdr) (total : Word) (s : State) : Out :=
  .next (s.command h rowSvRingAck (h.length = 4) (fun s =>
    s.onReq h (fun r => decide (r.state ≠ .retired)) (fun s i =>
      if (s.req i).ackBad total then .refuse stBadParam 0 []
      else
        let s1 := (s.updReq i (fun r => { r with consumed := total.toNat })).flushRing i
        let s2 := if s1.ringRoom i ((s1.req i).depth + 2) then s1.clearCause i causeRing else s1
        .run ((s2.closeWritten i).ok h))))

/-! DEADLINE (R199). -/

/-- R199: a request's deadline has passed: with `deadline_continue` clear it drains, also in the siding while its token is in
flight; else in the siding, in `kv_wait` or with its prefill unfinished it retires, as `retire` says. -/
def State.deadlinePassed (s : State) (i : Nat) (retire : State → State) : State :=
  let r := s.req i
  let s1 := s.updReq i (fun r => { r with pastDeadline := true })
  if r.desc.deadlineContinue then s1
  else if r.state = .siding then
    if s.inFlight i ∧ (r.sidedFrom = .running ∨ r.desc.promptLen.toNat ≤ r.prefillPos) then
      s1.updReq i (fun r => { r with state := .draining, ended := some stDeadline, causes := 0 })
    else retire s1
  else if r.kvWait then retire s1
  else if r.state = .running then s1.drain i stDeadline
  else
    let s2 := s1.updReq i (fun r => { r with state := .draining, ended := some stDeadline, prefill := [], period := 0 })
    if r.desc.promptLen.toNat ≤ r.prefillPos then s2 else retire s2

/-- R199: whether a request's deadline has passed and not acted yet. -/
def State.deadlineDue (s : State) (i : Nat) : Bool :=
  let r := s.req i
  !decide (r.state = .free ∨ r.state = .retired ∨ r.state = .draining) && !r.pastDeadline && decide (r.desc.deadline ≠ 0)
    && decide (r.desc.deadline.toNat < s.now)

/-- DEADLINE (R199): the timebase passes a request's deadline; what retires does so at the next boundary. During a stop the deadline
waits for the release (R415). -/
def execDeadline (i : Nat) (s : State) : Out :=
  .next (if s.powered && !s.stopHolds && s.deadlineDue i then
    s.deadlinePassed i (fun t => t.defer (.retire i (s.req i).gen stDeadline))
  else s)

/-! Class and role records. -/

/-- R187: a class record that is not valid. -/
def ClassRec.bad (r : ClassRec) : Bool :=
  decide (7 < r.priority.toNat) || decide (3 < r.replay.toNat)
    || (r.guaranteed && (decide (r.firstUs = 0) || decide (r.betweenUs = 0)))

/-- SV_CLASS_SET (R187): write a partition class record; only new admissions see it. -/
def execSvClassSet (h : Hdr) (cls : BitVec 8) (r : ClassRec) (s : State) : Out :=
  .next (s.command h rowSvClassSet (h.length = 20) (fun s =>
    if 7 < cls.toNat ∨ ClassRec.bad r then .refuse stBadParam 0 []
    else .run ((s.updPart h.partition.toNat (fun v => { v with classes := v.classes.put cls.toNat r })).ok h)))

/-- SV_ROLE (R201): set the partition's serving role. -/
def execSvRole (h : Hdr) (role : BitVec 8) (s : State) : Out :=
  .next (s.command h rowSvRole (h.length = 4) (fun s =>
    if 2 < role.toNat then .refuse stBadParam 0 []
    else
      let v : Role := if role = 0 then .mixed else if role = 1 then .prefill else .decode
      .run ((s.updPart h.partition.toNat (fun x => { x with role := v })).ok h)))

/-! Grammars and steering sets. -/

/-- R214, R218: whether a request that is not FREE names a grammar, or a steering set. -/
def State.grammarUsed (s : State) (p handle : Nat) : Bool :=
  s.reqs.vals.any (fun r => decide (r.state ≠ .free) && decide (r.partition = p) && decide (r.desc.grammar.toNat = handle)
    && decide (r.desc.grammar ≠ 0xFFFF))
def State.steerUsed (s : State) (p index : Nat) : Bool :=
  s.reqs.vals.any (fun r => decide (r.state ≠ .free) && decide (r.partition = p) && decide (r.desc.steer.toNat = index)
    && decide (r.desc.steer ≠ 0xFFFFFFFF))

/-- Bytes of the serving region (0) or steering region (1) of a partition. -/
def State.partData (s : State) (p sel o n : Nat) : List Byte := ((s.partBytes p sel o n).getD []).map Prod.fst

/-- The first token of each transition of a list, in order. -/
def strictlyRising : List Nat → Bool
  | a :: b :: t => decide (a < b) && strictlyRising (b :: t)
  | _ => true

/-- R214: whether a state entry of a grammar breaks a rule: its transitions, its next states or its bitmap. -/
def State.gramStateBad (s : State) (p : Nat) (h : GramHead) (i : Nat) : Bool :=
  let g := GramState.ofBytes (s.partData p 0 (h.stateOff + 32 * i) 32)
  let tr := s.partData p 0 (h.transOff + 8 * g.first) (8 * g.count)
  let tokens := (List.range g.count).map (fun j => natAt tr (8 * j) 4 % 2 ^ 18)
  let nexts := (List.range g.count).map (fun j => natAt tr (8 * j + 4) 4)
  decide (h.trans < g.first + g.count)
  || !strictlyRising tokens
  || nexts.any (fun n => decide (h.states ≤ n))
  || (decide (g.dflt ≠ noState) && decide (h.states ≤ g.dflt))
  || (decide (g.mask ≠ 2 ^ 64 - 1) && !s.inRegion p 0 g.mask 1)

/-- R214, Table 7-13: whether a grammar table is refused. -/
def State.grammarBad (s : State) (p offset : Nat) : Bool :=
  if !s.inRegion p 0 offset 32 then true
  else
    let b := s.partData p 0 offset 32
    let h := GramHead.ofBytes b
    decide (natAt b 0 4 ≠ 0x4D47564B) || decide (h.states = 0 ∨ 1048576 < h.states) || decide (h.states ≤ h.start)
    || decide (16777216 < h.trans) || !s.inRegion p 0 h.stateOff (32 * h.states) || !s.inRegion p 0 h.transOff (8 * h.trans)
    || (List.range h.states).any (fun i => s.gramStateBad p h i)

/-- R214, R268 to R272: what the check of a grammar table leaves behind: its header, states and transitions are read. -/
def State.grammarTouched (s : State) (p offset : Nat) : State :=
  let h := GramHead.ofBytes (s.partData p 0 offset 32)
  ((s.partTouched p 0 offset 32).partTouched p 0 h.stateOff (32 * h.states)).partTouched p 0 h.transOff (8 * h.trans)

/-- SV_GRAMMAR_LOAD (R214): register a grammar table and return its handle; a table registered before keeps its handle, and
a new one takes the lowest free handle (log 33). -/
def execSvGrammarLoad (h : Hdr) (offset : U64) (s : State) : Out :=
  .next (s.command h rowSvGrammarLoad (h.length = 8) (fun s =>
    let p := h.partition.toNat
    let g := (s.part p).grammars
    let again := (g.entries.find? (fun e => e.2.offset = offset.toNat)).map Prod.fst
    match again with
    | some n => if s.grammarUsed p n then .refuse stBusy 0 []
      else if s.grammarBad p offset.toNat then .refuse stBadParam 0 []
      else .run ((s.grammarTouched p offset.toNat).ok h stOk n)
    | none =>
      if s.grammarBad p offset.toNat then .refuse stBadParam 0 []
      else match (List.range 4096).find? (fun n => !g.has n) with
        | none => .refuse stRefusedCapacity 0 []
        | some n => .run (((s.grammarTouched p offset.toNat).updPart p (fun v => { v with grammars := v.grammars.put n { offset := offset.toNat } })).ok h stOk n)))

/-- Table 7-14: end of a steering set's last vector, from its start; none where a vector is not as R218 asks. -/
def State.steerLength (s : State) (p offset : Nat) : Option Nat :=
  if !s.inRegion p 1 offset 16 then none
  else
    let b := s.partData p 1 offset 16
    let n := natAt b 4 2
    if natAt b 0 4 ≠ 0x5453564B ∨ n = 0 ∨ 1024 < n ∨ !s.inRegion p 1 offset (16 + 8 * n) then none
    else
      let t := s.partData p 1 (offset + 16) (8 * n)
      (List.range n).foldl (fun m i => match m with
        | none => none
        | some e =>
          let len := natAt t (8 * i + 2) 2
          let o := natAt t (8 * i + 4) 4
          if len = 0 ∨ 8192 < len ∨ o % 256 ≠ 0 ∨ !s.inRegion p 1 offset (o + len) then none
          else some (Nat.max e (o + len))) (some (16 + 8 * n))

/-- SV_STEER_LOAD (R218): register a steering set under an index. -/
def execSvSteerLoad (h : Hdr) (index : Word) (offset : U64) (s : State) : Out :=
  .next (s.command h rowSvSteerLoad (h.length = 16) (fun s =>
    let p := h.partition.toNat
    if !s.steerInRange p index.toNat then .refuse stBadParam 0 []
    else if s.steerUsed p index.toNat then .refuse stBusy 0 []
    else match s.steerLength p offset.toNat with
      | none => .refuse stBadParam 0 []
      | some n => .run (((s.partTouched p 1 offset.toNat (16 + 8 * natAt (s.partData p 1 (offset.toNat + 4) 2) 0 2)).updPart p (fun v => { v with
          steers := v.steers.put index.toNat { offset := offset.toNat, length := n } })).ok h)))

/-! Protected bytes (R214, R218). -/

/-- R214: the bytes of the serving region that the grammars in use protect, as (offset, length). -/
def State.grammarGuard (s : State) (p : Nat) : List (Nat × Nat) :=
  (s.part p).grammars.entries.flatMap (fun g =>
    if !s.grammarUsed p g.1 then []
    else match s.gramHead p g.1 with
      | none => []
      | some h =>
        let masks := ((List.range h.states).map (fun i =>
          (GramState.ofBytes (s.partData p 0 (h.stateOff + 32 * i) 32)).mask)).filter (fun m => m ≠ 2 ^ 64 - 1)
        let users := s.reqs.vals.filter (fun r => r.state ≠ .free ∧ r.partition = p ∧ r.desc.grammar.toNat = g.1)
        let vocab := users.foldl (fun m r => Nat.max m (((s.edition r.edition).serving.map ServingRec.vocab).getD 0)) 0
        [(g.2.offset, 32), (h.stateOff, 32 * h.states), (h.transOff, 8 * h.trans)]
          ++ masks.map (fun m => (m, bitmapBytes vocab)))

/-- R218: the bytes of the steering region that the sets in use protect. -/
def State.steerGuard (s : State) (p : Nat) : List (Nat × Nat) :=
  ((s.part p).steers.entries.filter (fun g => s.steerUsed p g.1)).map (fun g => (g.2.offset, g.2.length))

/-- R214, R218: whether a write of `n` bytes at offset `o` of region `sel` touches a protected byte. -/
def State.writeGuarded (s : State) (p sel o n : Nat) : Bool :=
  let l := if sel = 0 then s.grammarGuard p else if sel = 1 then s.steerGuard p else []
  l.any (fun g => decide (o < g.1 + g.2) && decide (g.1 < o + n) && decide (0 < n))

end Sys2Proof.Machine
end

