-- ==== Sys2Proof/Machine/Sampler.lean ====
section
/-! DEFINITION. The sampler (R209 to R212, R215 to R217): draws tokens from candidate records and holds them until the release. -/

namespace Sys2Proof.Machine

/-! FP32 with one rounding each (R210). -/

def f32Le (a b : Nat) : Bool := (f32 a).le (f32 b)
def f32Lt (a b : Nat) : Bool := f32Le a b && !f32Le b a

/-- R210: whether a temperature is zero, of either sign: greedy. -/
def greedy (t : Nat) : Bool := f32Le t 0 && f32Le 0 t

/-- Table 7-11: a candidate record. -/
structure CandRec where
  slot  : Nat
  cands : List (Nat × Nat)
  max   : Nat
  norm  : Nat
deriving DecidableEq, Repr

/-- Table 7-11: reads a candidate record. -/
def CandRec.ofBytes (l : List Byte) : CandRec :=
  { slot := natAt l 0 2, max := natAt l 4 4, norm := natAt l 8 4
    cands := (List.range (natAt l 2 1)).map (fun i => (natAt l (16 + 8 * i) 4 % 2 ^ 18, natAt l (20 + 8 * i) 4)) }

/-- R211: the draw for a position, an FP32 pattern below 1. -/
def drawAt (seed : U64) (pos : Nat) : Nat :=
  let z0 := seed + BitVec.ofNat 64 (pos + 1) * 0x9E3779B97F4A7C15
  let z1 := (z0 ^^^ (z0 >>> 30)) * 0xBF58476D1CE4E5B9
  let z2 := (z1 ^^^ (z1 >>> 27)) * 0x94D049BB133111EB
  let z3 := z2 ^^^ (z2 >>> 31)
  toF32 (.fin false (z3 >>> 40).toNat (-24))

/-- R210: the length of the shortest prefix whose running sum reaches `top`; the whole list where none does. -/
def massCut (top : Nat) : Nat → List Nat → Nat
  | _, [] => 0
  | cum, p :: t =>
    let c := f32Add cum p
    if f32Le top c then 1 else 1 + massCut top c t

/-- R210, R212: the kept candidates, each with its probability; greedy keeps the first alone. -/
def CandRec.kept (r : CandRec) (d : Desc) : List (Nat × Nat) :=
  if greedy d.temperature.toNat then (r.cands.take 1).map (fun c => (c.1, 0))
  else
    let k := Nat.min (if d.topK = 0 then 64 else d.topK.toNat) r.cands.length
    let ps := (r.cands.take k).map (fun c =>
      (c.1, f32Div (f32Exp2 (f32Mul (f32Div (f32Sub c.2 r.max) d.temperature.toNat) f32Log2e)) r.norm))
    let top := d.topP.toNat
    if f32Lt 0 top && f32Lt top 0x3F800000 then ps.take (massCut top 0 (ps.map Prod.snd)) else ps

/-- R210: the token whose running sum first exceeds `r`, the last one where none does. -/
def drawFrom (r : Nat) : Nat → List (Nat × Nat) → Option Nat
  | _, [] => none
  | _, [(t, _)] => some t
  | acc, (t, p) :: rest =>
    let a := f32Add acc p
    if f32Lt r a then some t else drawFrom r a rest

/-- R210: the token drawn from a record at a position, none from an empty record. -/
def CandRec.sample (r : CandRec) (d : Desc) (pos : Nat) : Option Nat :=
  let k := r.kept d
  if greedy d.temperature.toNat then (k.head?).map Prod.fst
  else drawFrom (f32Mul (drawAt d.seed pos) (k.foldl (fun t p => f32Add t p.2) 0)) 0 k

/-! Slots. -/

/-- The slot of an identity. -/
def State.slotOf (s : State) (id : Nat) : Option Slot := s.plan.slots.find? (fun x => x.id = id)
def State.updSlot (s : State) (id : Nat) (g : Slot → Slot) : State :=
  { s with plan := { s.plan with slots := s.plan.slots.map (fun x => if x.id = id then g x else x) } }

/-- R380: a cause of Table 14-1 names a slot. -/
def State.markSlot (s : State) (id cause : Nat) : State := s.updSlot id (fun x => { x with causes := insertNat cause x.causes })

/-- R198, R216: the stop conditions that need no grammar: an `eos` ID; position `max_len` - 1. -/
def Req.eosToken (r : Req) (t : Nat) : Bool := r.desc.eos.toList.any (fun e => decide (e ≠ 0xFFFFFFFF) && decide (e.toNat % 2 ^ 18 = t))
def Req.stopsAt (r : Req) (pos t : Nat) : Bool := r.eosToken t || decide (r.desc.maxLen.toNat ≤ pos + 2)

/-- R212, R215: whether the control node still has to answer for a slot's draw. -/
def State.drawWaits (s : State) (x : Slot) : Bool :=
  s.alaok.assists.any (fun a => (decide (a.fn = 2) || (decide (a.fn = 3) && !x.gramLate)) && decide (a.slot = x.id))

/-- R215: sends the assist for a grammar advance, or counts that none could be sent. -/
def State.askGrammar (s : State) (i slot token : Nat) : State :=
  let r := s.req i
  if s.assistRoom r.partition then
    s.sendAssist { fn := 3, partition := r.partition, deadline := s.assistBy 3, req := i, slot := slot, token := token
                   state := r.gstate } (s.tag i) (leBytes 4 (s.tag i).toNat ++ leBytes 4 r.gstate.toNat ++ leBytes 4 token)
  else s.countPart r.partition pcAssistLate 1

/-- R216: whether a drawn token advances a grammar. -/
def Req.advances (r : Req) (pos t : Nat) : Bool := decide (r.desc.grammar ≠ 0xFFFF) && !r.stopsAt pos t

/-- R210, R215: a slot's token is drawn: held with its stamp; in host-assisted mode its grammar advance is asked for. -/
def State.settleDraw (s : State) (id : Nat) (t : Nat) (late : Bool) : State :=
  match s.slotOf id with
  | none => s
  | some x =>
    let r := s.req x.req
    let s1 := s.updSlot id (fun x => { x with draw := some t, drawStamp := s.stamp, assistLate := x.assistLate || late })
    if r.advances x.pos t && s.assisted r.partition 3 then
      let s2 := s1.askGrammar x.req id t
      if s.assistRoom r.partition then s2
      else (s2.updSlot id (fun x => { x with gramLate := true })).updReq x.req (fun r => { r with assistWait := some t })
    else s1

/-- R208, R210: what the sampler reads of a request's sampling context, and whether it reads poisoned; the descriptor's values
where the partition has no serving region. -/
def State.samplingContext (s : State) (i : Nat) : Desc × Bool :=
  let r := s.req i
  match s.partBytes r.partition 0 (64 * (i - (s.part r.partition).entry.reqFirst.toNat)) 64 with
  | none => (r.desc, false)
  | some b =>
    let l := b.map Prod.fst
    ({ r.desc with temperature := BitVec.ofNat 32 (natAt l 0 4), topP := BitVec.ofNat 32 (natAt l 4 4)
                   topK := BitVec.ofNat 16 (natAt l 8 2), seed := BitVec.ofNat 64 (natAt l 16 8) }, spPoison b)

/-- R208, R268 to R272: what that read leaves behind. -/
def State.contextTouched (s : State) (i : Nat) : State :=
  let r := s.req i
  s.partTouched r.partition 0 (64 * (i - (s.part r.partition).entry.reqFirst.toNat)) 64

/-- R210, R217: the sampler's own draw of a slot: a token, or none where no candidate stands. -/
def State.ownDraw (s : State) (id : Nat) (draw : Option Nat) (late : Bool) : State :=
  match draw with
  | some t => s.settleDraw id t late
  | none => s.updSlot id (fun x => { x with drawNone := true, drawStamp := s.stamp })

/-- R209 to R212: the draw of one slot of the last section from its record; in host-assisted sampling the record goes to the
control node, one without a candidate too. -/
def State.drawSlot (s : State) (x : Slot) (bytes : List Byte) : State :=
  let r := s.req x.req
  let ctx := (s.samplingContext x.req).1
  let rec' := CandRec.ofBytes bytes
  let own := rec'.sample ctx x.pos
  if !s.assisted r.partition 2 then s.ownDraw x.id own false
  else if s.assistRoom r.partition then
    (s.updSlot x.id (fun x => { x with draw := own })).sendAssist
      { fn := 2, partition := r.partition, deadline := s.assistBy 2, req := x.req, slot := x.id, token := own.getD 0
        kept := if own.isSome then (rec'.kept ctx).map Prod.fst else [] } (s.tag x.req)
      (leBytes 4 (s.tag x.req).toNat ++ leBytes 4 x.pos ++ bytes)
  else (s.countPart r.partition pcAssistLate 1).ownDraw x.id own true

/-- R209: one record of a sample message from core `k`. -/
def State.sampleRecord (s : State) (k base i : Nat) : State :=
  let a := base + 1024 * i
  let head := s.spRead k a 16
  let n := 16 + 8 * natAt (head.map Prod.fst) 2 1
  let b := s.spRead k a n
  match s.slotAt k (natAt (head.map Prod.fst) 0 2) with
  | none => s.spTouched k a 16
  | some x =>
    let s1 := (s.spTouched k a n).contextTouched x.req
    if spPoison b ∨ (s.samplingContext x.req).2 then s1.markSlot x.id 0x01
    else if !x.lastPrompt ∨ x.draw.isSome ∨ s.drawWaits x ∨ (s.edition x.edition).sections ≠ x.sect + 1 then s1
    else s1.drawSlot x (b.map Prod.fst)

/-- SAMPLE_MESSAGE (R209, R210, R274): the sampler takes the oldest sample message of a core; copy B's are ignored (R389), and one
of another window is too late (R400). -/
def execSampleMessage (c : CoreMsg) (s : State) : Out :=
  .next (if s.gateStopped then s
    else match s.mod.sampler.find? (fun m => m.1 = c.core.key) with
    | none => s
    | some m =>
      let s1 := ({ s with mod := { s.mod with sampler := s.mod.sampler.erase m } } : State).ctlRetries c.core.field c.retries
      if s.isCopyB c.core.key ∨ natAt m.2 0 1 ≠ 1 ∨ natAt m.2 8 8 ≠ s.plan.window then s1
      else (List.range (Nat.min 256 (natAt m.2 2 2))).foldl (fun (t : State) i => t.sampleRecord c.core.key (natAt m.2 4 4) i) s1)

/-! Answers of the control node (R212, R215). -/

/-- R212: no answer in time, or one that names no kept token: the sampler's own draw, none for a record without a candidate. -/
def State.sampleLate (s : State) (a : Assist) : State :=
  (s.countPart a.partition pcAssistLate 1).ownDraw a.slot (if a.kept.isEmpty then none else some a.token) true

/-- R215: whether a grammar assist is the first one for its slot, the token not yet delivered. -/
def State.gramFirst (s : State) (a : Assist) : Bool :=
  match s.slotOf a.slot with
  | some x => !x.gramLate && decide (x.req = a.req)
  | none => false

/-- R215: a re-sent assist is answered in time: `ASSIST` clears, and the request goes on in the state answered, or retires with a
final entry that carries no token. -/
def State.gramSettled (s : State) (i next : Nat) : State :=
  let s1 := (s.updReq i (fun r => { r with gstate := BitVec.ofNat 32 next, assistWait := none })).clearCause i causeAssist
  let r := s.req i
  if r.state = .free ∨ r.state = .retired then s
  else if next = noState then s1.endRequest i stGrammarError
  else if ((s.gramState r.partition r.desc.grammar.toNat next).map GramState.stop).getD false then s1.endRequest i stFinished
  else s1.writeContext i

/-- R215, R216: the control node's next state arrives in time: a slot whose token is not delivered yet keeps it until the release;
else the request in the siding goes on or retires. -/
def State.gramAnswer (s : State) (a : Assist) (next : Nat) : State :=
  match s.slotOf a.slot with
  | some x => if x.req = a.req then s.updSlot a.slot (fun x => { x with gramNext := some next }) else s.gramSettled a.req next
  | none => s.gramSettled a.req next

/-- R215: no answer in time: the token is delivered without it, the request is to go to the siding, and a new assist asks
again, unless the request has ended meanwhile. -/
def State.gramLate (s : State) (a : Assist) : State :=
  if (s.slotOf a.slot).isNone ∧ ((s.req a.req).state = .free ∨ (s.req a.req).state = .retired) then s
  else
  let s1 := (s.countPart a.partition pcAssistLate 1).updReq a.req (fun r => { r with assistWait := some a.token })
  let s2 := if s.gramFirst a then s1.updSlot a.slot (fun x => { x with gramLate := true }) else s1
  s2.askGrammar a.req a.slot a.token

end Sys2Proof.Machine
end

