-- ==== Sys2Proof/Machine/Fabric.lean ====
section
/-! DEFINITION. The fabric: its ports (R279 to R281), packets in and out (R285, R288), barrier bounds (R296) and time offsets (R307). -/

namespace Sys2Proof.Machine

/-- R285: the next message number towards a destination for a type. -/
def State.nextSeq (s : State) (dst type : Nat) : State × Nat :=
  let k := dst * 256 + type
  let n := s.fabric.seqs.find k 0
  ({ s with fabric := { s.fabric with seqs := s.fabric.seqs.put k ((n + 1) % 2 ^ 32) } }, n)

/-- R283, R285, R290: sends a packet by its first link; a port that retrains holds it in its retry buffer. The second part says
whether a link leads there. -/
def State.fabSend (s : State) (p : FabPkt) : State × Bool :=
  let q := { p with src := s.moduleId }
  match s.firstPort q with
  | none => (s, false)
  | some n =>
    let s1 := if (s.port n).retrain then s.updPort n (fun t => { t with retry := t.retry ++ [q] })
      else ({ s with fabric := { s.fabric with out := s.fabric.out ++ [q] } } : State).countPort n tcTxFlits (pktFlits q)
    (if isBulk q.type then s1.countPart q.partition pcPortTx q.payload.length else s1, true)

/-- Sends packets in order; whether all of them have a link. -/
def State.fabSendAll (s : State) (l : List FabPkt) : State × Bool :=
  l.foldl (fun t p => let r := State.fabSend t.1 p; (r.1, t.2 && r.2)) (s, true)

/-- R285: a message of one packet, under the next number towards its destination. -/
def State.fabPost (s : State) (p : FabPkt) : State × Bool :=
  let n := s.nextSeq p.dst p.type
  n.1.fabSend { p with seq := n.2 }

/-- R285: a message cut into packets of at most `n` payload bytes, the last one marked. -/
def cutMessage (h : FabPkt) (n : Nat) (bytes : List Byte) : List FabPkt :=
  let k := Nat.max 1 (ceilDiv bytes.length n)
  (List.range k).map (fun i => { h with
    offset := n * i, payload := (bytes.drop (n * i)).take n, last := decide (i + 1 = k) })

/-! Packets in (R279, R285, R288, R311). -/

/-- R279, R285: a packet is discarded and counted. -/
def State.fabDiscard (s : State) (port : Nat) : State := s.countPort port tcDiscards 1

/-- R288: the job that a packet names, its epoch agreeing (version 1 carries none, where the job runs at it). -/
def State.jobOf (s : State) (p : FabPkt) : Option Job :=
  s.fabric.jobs.find? (fun j => decide (j.id = p.job) && (decide (p.version ≤ 1 ∧ j.version ≤ 1) || decide (j.epoch = p.epoch)))

/-- R311: the partition that a packet is for: at version 1 the one that owns its job, `v1_partition` where no job has its ID. -/
def State.pktPartition (s : State) (p : FabPkt) : Nat :=
  if p.version ≤ 1 then
    ((s.fabric.jobs.find? (fun j => decide (j.id = p.job))).map Job.partition).getD s.fabric.route.v1Partition.toNat
  else p.partition

/-- Table 10-5: a packet as it is read: version 1 uses the low 16 bits of the module IDs only. -/
def readPkt (p : FabPkt) : FabPkt :=
  if p.version ≤ 1 then { p with dst := p.dst % 2 ^ 16, src := p.src % 2 ^ 16 } else p

/-! Flit retries (R287). -/

/-- R287: the jobs with a barrier whose packets cross a port's link, each with the barrier's number: those open whose packets leave by
the port, and that of the barrier packet that has come by it. -/
def State.barriersOn (s : State) (port : Nat) (p : FabPkt) : List (Job × Nat) :=
  let mine := fun (j : Job) => decide (j.id = p.job ∧ (p.type = ftArrive ∨ p.type = ftRelease))
  s.fabric.jobs.filterMap (fun j =>
    if mine j then some (j, natAt p.payload 0 2)
    else if (j.barrier.isSome || !j.roots.isEmpty)
        && (if j.rank = 0 then j.members.filter (fun m => m ≠ s.moduleId) else j.members.take 1).any (fun m =>
          decide (s.firstPort (j.packet ftArrive m []) = some port)) then
      some (j, ((j.barrier.map Barrier.number).orElse (fun _ => (j.roots.head?).map Barrier.number)).getD 0)
    else none)

/-- R287: a fault signature for a barrier whose bound a second retry breaks; no kind of Table 14-6 names it (log 152). -/
def State.barrierBroken (s : State) (port : Nat) (b : Job × Nat) : State :=
  s.fault { kind := Config.unlistedCode 6 0, unit := port, unitKind := .port, partition := b.1.partition
            data := leBytes 4 b.1.id ++ leBytes 2 b.2 }

/-- R287: the retries of an arrived packet's flits are counted against the port; a second retry of one flit raises `LINK_RETRY` and breaks
the bound of every barrier that crosses the link. -/
def State.linkRetries (s : State) (port : Nat) (p : FabPkt) : State :=
  let s1 := if p.retries.isEmpty then s else s.countPort port tcCrcRetries p.retries.sum
  if p.retries.any (fun n => decide (2 ≤ n)) then
    (s1.barriersOn port p).foldl (fun (t : State) b => t.barrierBroken port b) (s1.event evLinkRetry port)
  else s1

/-- R279, R280, R285, R286, R311: whether a packet that arrives at a port is discarded: it is addressed to another module, or comes
from one over a loopback port; its type is unlisted, or its version, type or length is one that the link's version or its lane does
not allow (log 175); or it has no partition. -/
def State.pktBad (s : State) (v : Port) (p : FabPkt) : Bool :=
  decide ((readPkt p).dst ≠ s.moduleId) || (v.loops && decide ((readPkt p).src ≠ s.moduleId)) || !typeListed p.type
    || decide (p.version = 0) || decide (v.version < p.version) || decide (p.version < typeSince p.type)
    || decide (versionPayload p.version < p.payload.length) || decide (lanePayload p.type < p.payload.length)
    || decide (partitionCount ≤ s.pktPartition p)

/-- R279, R285, R287, R311: a packet of type `t`, or of a type that is not listed, arrives at a port that is up. -/
def State.fabRecv (s : State) (port t : Nat) (p : FabPkt) (act : State → State) : State :=
  let v := s.port port
  if !s.powered || decide (portCount ≤ port) || !v.up || (decide (p.type ≠ t) && typeListed p.type) then s
  else
    let s1 := (s.linkRetries port p).countPort port tcRxFlits (pktFlits p)
    if s.pktBad v p then s1.fabDiscard port
    else
      let s2 := if isBulk t then s1.countPart (s.pktPartition p) pcPortRx p.payload.length else s1
      act s2

/-- R288: a job packet: discarded and counted where its job or epoch is stale, against the partition that it is for (log 175). -/
def State.jobRecv (s : State) (port t : Nat) (p : FabPkt) (act : State → Job → State) : State :=
  s.fabRecv port t p (fun s => match s.jobOf p with
    | some j => act s j
    | none => (s.fabDiscard port).countPart (s.pktPartition p) pcStaleJob 1)

/-- DATA_WRITE (R285): a data write is placed by its offset in its message and acknowledged; the acknowledgement's payload names its
number and offset (log 36). -/
def execDataWrite (port : Nat) (raw : FabPkt) (s : State) : Out :=
  let p := readPkt raw
  let act := fun (s : State) =>
    let s1 : State := { s with fabric := { s.fabric with
      inbox := s.fabric.inbox.filter (fun q => !(q.src = p.src ∧ q.seq = p.seq ∧ q.job = p.job ∧ q.offset = p.offset)) ++ [p] } }
    (s1.fabPost { version := p.version, type := ftAck, epoch := p.epoch, dst := p.src, job := p.job, partition := p.partition
                  ref := p.ref, last := true, payload := leBytes 4 p.seq ++ leBytes 4 p.offset }).1
  .next (if p.job = 0 then s.fabRecv port ftWrite raw act else s.jobRecv port ftWrite raw (fun s _ => act s))

/-- DATA_ACKNOWLEDGEMENT (R285): an acknowledged data write is no longer outstanding. -/
def execDataAcknowledgement (port : Nat) (raw : FabPkt) (s : State) : Out :=
  let p := readPkt raw
  let act := fun (s : State) => { s with fabric := { s.fabric with
    out := s.fabric.out.filter (fun q => !(q.type = ftWrite ∧ q.dst = p.src ∧ q.seq = natAt p.payload 0 4 ∧ q.job = p.job
      ∧ q.offset = natAt p.payload 4 4)) } }
  .next (if p.job = 0 then s.fabRecv port ftAck raw act else s.jobRecv port ftAck raw (fun s _ => act s))

/-! The barrier bound (R296), in units of 10^-4 ns. -/

/-- R296: a link's term. -/
def linkTerm (t w f : Nat) : Nat := 3 * t + (w + 32) * f + 100000

/-- R296: w of a link version. -/
def linkW (version : Nat) : Nat := if version ≤ 1 then 17 else 1

/-- R296: one direction of the path of a job's barrier packets to a member: their first link, the others as they are, and the
switches. -/
def State.pathTerm (s : State) (j : Job) (d : Nat) : Nat :=
  let lvl := routeLevel s.fabric.route d
  let port := s.firstPort (j.packet ftArrive d [])
  let direct := decide (lvl = 0) && (s.groupPort (d % 2 ^ s.fabric.route.memberBits.toNat)).isSome
  let lam := if lvl = 0 then 1 else lvl
  let own := match port with
    | some n => linkTerm (PortLatency (s.port n).record) (linkW (s.port n).version) (flitTime (s.port n).width)
    | none => 0
  let far := ((List.range (if direct then 0 else 2 * lam - 1)).map (fun i =>
    let l := Config.farLink d i
    linkTerm l.1 l.2.2 l.2.1)).sum
  own + far + (if direct then 0 else (2 * lam - 1) * s.fabric.route.swNs.toNat * 10000)

/-- R296: T_bar of a job, in ns, rounded up; f0 is that of the lowest uplink (log 192). -/
def State.tbarOf (s : State) (j : Job) : Nat :=
  let own := s.moduleId
  let longest := ((j.members.filter (fun m => m ≠ own)).map (s.pathTerm j)).foldl Nat.max 0
  let root := j.members.headD 0
  let up := s.liveUplinks
  let uf := if root = own then (up.length, match up with | p :: _ => flitTime (s.port p).width | [] => 0) else Config.rank0Links root
  ceilDiv (2 * longest + 1000000 + 2 * ceilDiv j.members.length (Nat.max 1 uf.1) * uf.2) 10000

/-- R296: every job's bound is computed again. -/
def State.retime (s : State) : State :=
  { s with fabric := { s.fabric with jobs := s.fabric.jobs.map (fun j => { j with tbar := s.tbarOf j }) } }

/-! Ports. -/

/-- R288: a port restarts: flushed, down until it trains. -/
def Port.restart (t : Port) : Port :=
  { t with up := false, bad := 0, width := 0, lanes := 0, version := 0, retrain := false, retry := [], time := {} }

/-- R281: the port records refused with `BAD_PARAM`. -/
def State.portRecBad (s : State) (port : Nat) (r : PortRec) : Bool :=
  let reach := if r.cls = 1 then 5 else if r.cls = 2 then 25 else if r.cls = 3 then 20000 else if r.cls = 4 then 0 else 65535
  decide (4 < r.cls.toNat) || decide (2 < r.role.toNat)
  || (decide (r.cls = 1 ∨ r.cls = 2) && decide (15 < port))
  || decide (reach < r.lengthDm.toNat)
  || (decide (r.role = 1) && decide (2 ^ s.fabric.route.memberBits.toNat ≤ r.peerMember.toNat))
  || decide (r.maxVersion = 0 ∨ 3 < r.maxVersion.toNat)

/-- R289, Table 10-8: the route records refused with `BAD_PARAM`. -/
def State.routeBad (s : State) (r : RouteRec) : Bool :=
  decide (4 < r.memberBits.toNat) || decide (14 < r.l1Bits.toNat) || decide (14 < r.l2Bits.toNat) || decide (14 < r.l3Bits.toNat)
  || decide (18 < r.memberBits.toNat + r.l1Bits.toNat + r.l2Bits.toNat + r.l3Bits.toNat)
  || RouteRec.idBad r r.moduleId.toNat
  || (List.range portCount).any (fun p => r.uplinks.getLsbD p != decide ((s.port p).record.role = 2))
  || decide (r.swNs = 0 ∨ 1000 < r.swNs.toNat)

/-- R282, R284, R309: a port that trains at a version: lanes that failed before it last started anew stay failed, and so do those
that did not train. -/
def Port.start (t : Port) (version good : Nat) : Port :=
  { t with version := version, bad := t.bad ||| ~~~ (BitVec.ofNat 8 good) }.train

/-- R309: the version that a port offers. -/
def Port.offer (t : Port) : Nat := Nat.min t.record.maxVersion.toNat 3

/-- R311, R312: the version below which a link to a module is limited: what either end offers, and version 3 where the peer is no
KV-H1200, having offered version 2 or 3 or having an ID of 65,536 or more (log 177). -/
def State.linkAim (s : State) (t : Port) (peer offer : Nat) : Nat :=
  Nat.max (Nat.max t.offer offer) (if 2 ≤ Nat.max offer (s.fabric.peers.find peer 0) ∨ 65536 ≤ peer then 3 else 0)

/-- PORT_UP (R280, R282, R284, R309, R312): a port trains on the lanes of `good` at the version both ends offer; the peer table
learns the peer's. A loopback port's peer is the module itself. -/
def execPortUp (port peer offer good : Nat) (s : State) : Out :=
  let v := s.port port
  let version := Nat.min v.offer offer
  let m := peer % 2 ^ 18
  let w := (v.start version good).width
  .next (if !s.powered || s.mod.powerFail || decide (portCount ≤ port) || v.up || decide (v.record.cls = 0) || (v.loops && decide (m ≠ s.moduleId))
      || decide (version = 0) || decide (w = 0) then s
    else
      let s1 := s.updPort port (fun t => { t.start version good with up := true, peer := m })
      let s2 : State := { s1 with fabric := { s1.fabric with
        peers := s1.fabric.peers.put m (Nat.max (s1.fabric.peers.find m 0) offer) } }
      let s3 := (s2.retime).event evPortUp port none (w * 256 + version)
      if version < s.linkAim v m offer then s3.event evVersionLimit port none version else s3)

/-- R283, R307: the probes that a port held depart now, and are stamped. -/
def State.probesDepart (s : State) (l : List FabPkt) : State :=
  { s with fabric := { s.fabric with probes := s.fabric.probes.map (fun q =>
    if l.any (fun p => decide (p.type = ftProbe ∧ p.dst = q.dst ∧ p.seq = q.seq)) then { q with t1 := s.stamp } else q) } }

/-- PORT_RETRAIN_DONE (R282, R283): the port's lanes are trained again at the width that is left, and what it held goes out (log 169). -/
def execPortRetrainDone (port : Nat) (s : State) : Out :=
  let v := s.port port
  .next (if !s.powered || decide (portCount ≤ port) || !v.up || !v.retrain then s
    else
      let s1 := (s.updPort port (fun t => { t.train with retrain := false, retry := [] })).probesDepart v.retry
      let s2 : State := { s1 with fabric := { s1.fabric with out := s1.fabric.out ++ v.retry } }
      (s2.countPort port tcTxFlits (v.retry.map pktFlits).sum).retime)

/-! Time offsets (R307). -/

/-- One exchange: its stamps t1, t2, t3, t4. -/
abbrev Exchange := U64 × U64 × U64 × U64

/-- R307: round trip of an exchange less the peer's turnaround, and its offset, rounded toward zero. -/
def roundTrip (e : Exchange) : Int :=
  ((e.2.2.2.toNat : Int) - e.1.toNat) - ((e.2.2.1.toNat : Int) - e.2.1.toNat)
def exchangeOffset (e : Exchange) : Int :=
  (((e.2.1.toNat : Int) - e.1.toNat) - ((e.2.2.2.toNat : Int) - e.2.2.1.toNat)).tdiv 2

/-- R307: the exchange kept: the one with the smallest round trip. -/
def keptExchange (l : List Exchange) : Option Exchange := leastBy (fun e => (roundTrip e + 2 ^ 64).toNat) l

/-- R307: the drift between two measurements, in parts per 10^9. -/
def driftPpb (o0 : Int) (t0 : Nat) (o1 : Int) (t1 : Nat) : Int :=
  if t1 ≤ t0 then 0 else ((o1 - o0) * 10 ^ 9).tdiv ((t1 : Int) - t0)

/-- R307: whether a measurement jumps by more than 50 ns from what the drift predicts. -/
def timeJumps (o0 drift : Int) (t0 : Nat) (o1 : Int) (t1 : Nat) : Bool :=
  decide (50 < (o1 - (o0 + (drift * ((t1 : Int) - t0)).tdiv (10 ^ 9))).natAbs)

/-- TIME_MEASUREMENT (R307): at link start and every 1 s a port runs 8 probe exchanges and updates offset and drift. -/
def execTimeMeasurement (port : Nat) (exchanges : List (U64 × U64 × U64 × U64)) (s : State) : Out :=
  let v := s.port port
  let due := !v.time.valid || decide (10 ^ 9 ≤ s.since v.time.tMeas)
  .next (if !s.powered || decide (portCount ≤ port) || !v.up || !due || decide (exchanges.length ≠ 8) then s
    else match keptExchange exchanges with
      | none => s
      | some e =>
        let o := exchangeOffset e
        let old := v.time
        let s1 := s.updPort port (fun t => { t with time :=
          { peer := t.peer, valid := true, offset := o, tMeas := e.1, asym := portAsym t.record
            drift := if old.valid ∧ 2 ≤ t.version then driftPpb old.offset old.tMeas.toNat o e.1.toNat else 0 } })
        if old.valid ∧ timeJumps old.offset old.drift old.tMeas.toNat o e.1.toNat then s1.event evTimeStep port none (bitsOf 64 o)
        else s1)

/-- TIME_PROBE (R307): a probe is answered with a reply that carries its arrival and departure stamps and the
number of the probe (log 36). -/
def execTimeProbe (port : Nat) (raw : FabPkt) (t2 t3 : U64) (s : State) : Out :=
  let p := readPkt raw
  .next (s.fabRecv port ftProbe raw (fun s =>
    (s.fabPost { version := p.version, type := ftReply, dst := p.src, partition := p.partition, ref := p.ref, last := true
                 payload := leBytes 8 t2.toNat ++ leBytes 8 t3.toNat ++ leBytes 4 p.seq }).1))

/-- Table 15-3: a port time record. -/
def timeRecord (t : PortTime) (up : Bool) : List Byte :=
  leBytes 4 (t.peer % 2 ^ 18 + (if up && t.valid then 2 ^ 31 else 0)) ++ leBytes 4 (bitsOf 32 t.drift) ++ leBytes 8 (bitsOf 64 t.offset)
    ++ leBytes 8 t.tMeas.toNat ++ leBytes 4 t.asym ++ leBytes 4 0

/-- R307: sends a probe of an end-to-end measurement, its departure stamped; the second part says whether a link leads there. -/
def State.sendProbe (s : State) (module partition : Nat) (cmd : Nat × Word) : State × Bool :=
  let q := s.nextSeq module ftProbe
  let r := q.1.fabSend { version := 3, type := ftProbe, dst := module, partition := partition, seq := q.2, last := true }
  if r.2 then ({ r.1 with fabric := { r.1.fabric with
    probes := r.1.fabric.probes ++ [{ dst := module, seq := q.2, t1 := s.stamp, cmd := cmd }] } }, true)
  else (r.1, false)

/-- FB_TIME (R307): a module is probed 8 times, each probe after the reply to the one before (log 96); the reply follows the last
exchange. A module that no link leads to is answered `FAILED` (log 35). -/
def execFbTime (h : Hdr) (module : Nat) (s : State) : Out :=
  .next (s.command h rowFbTime true (fun s =>
    if RouteRec.idBad s.fabric.route module then .refuse stBadParam 0 []
    else if s.fabric.peers.find module 3 < 3 then .refuse stVersion 0 (leBytes 4 module)
    else if s.fabric.probes.any (fun q => q.dst = module) then .refuse stBusy 0 []
    else
      let r := s.sendProbe module h.partition.toNat (h.conn, h.cmdTag)
      if r.2 then .run (r.1.interim h stAccepted) else .refuse stFailed 0 []))

/-- TIME_REPLY (R307): an end-to-end exchange is complete; the next probe goes, and after 8 of them the command is answered with the
record of the one kept. A reply to no probe that is out is discarded. -/
def execTimeReply (port : Nat) (raw : FabPkt) (t4 : U64) (s : State) : Out :=
  let p := readPkt raw
  .next (s.fabRecv port ftReply raw (fun s =>
    match s.fabric.probes.find? (fun q => q.dst = p.src ∧ q.seq = natAt p.payload 16 4) with
    | none => s.fabDiscard port
    | some q =>
      let got := s.fabric.exch ++ [(q.dst, q.t1, BitVec.ofNat 64 (natAt p.payload 0 8), BitVec.ofNat 64 (natAt p.payload 8 8), t4)]
      let mine := (got.filter (fun e => e.1 = q.dst)).map Prod.snd
      let ended : State := { s with fabric := { s.fabric with
        exch := got.filter (fun e => e.1 ≠ q.dst), probes := s.fabric.probes.filter (fun x => x.dst ≠ q.dst) } }
      if mine.length < 8 then
        let r := ({ s with fabric := { s.fabric with exch := got, probes := s.fabric.probes.filter (fun x => x.dst ≠ q.dst) } } : State).sendProbe
          q.dst p.partition q.cmd
        if r.2 then r.1 else ended.finish q.cmd.1 q.cmd.2 stFailed
      else match keptExchange mine with
        | none => s
        | some e =>
          ended.finish q.cmd.1 q.cmd.2 stOk 0 none (timeRecord
            { peer := q.dst, valid := true, offset := exchangeOffset e, tMeas := e.1, asym := (roundTrip e).toNat / 2 } true)))

/-- FB_STATUS (R405): for each port its width and version, in bytes of no stated layout (log 12), then its time record of Table 15-3;
after the ports the peer table. -/
def execFbStatus (h : Hdr) (s : State) : Out :=
  .next (s.command h rowFbStatus (h.length = 0) (fun s =>
    let ports := (List.range portCount).flatMap (fun p =>
      let v := s.port p
      Config.layout 0x0907 [p, if v.up then v.width else 0, if v.up then v.version else 0] ++ timeRecord v.time v.up)
    .run (s.ok h stOk 0 (ports ++ Config.layout 0x0907 (s.fabric.peers.entries.flatMap (fun e => [e.1, e.2]))))))

end Sys2Proof.Machine
end

