-- ==== Sys2Proof/Machine/Jobs.lean ====
section
/-! DEFINITION. Jobs of the fabric: creation (R288, R310), barriers (R295, R297), collectives (R301 to R303), the loss of a
port's lanes (R283, R284), and the records of ports and routes (`FB_PORT_SET`, `FB_ROUTE_SET`). -/

namespace Sys2Proof.Machine

/-- The job of an ID. -/
def State.job (s : State) (id : Nat) : Option Job := s.fabric.jobs.find? (fun j => j.id = id)
def State.updJob (s : State) (id : Nat) (g : Job → Job) : State :=
  { s with fabric := { s.fabric with jobs := s.fabric.jobs.map (fun j => if j.id = id then g j else j) } }

/-- R295 to R304: a command on a job of its partition. -/
def State.onJob (s : State) (h : Hdr) (id : Nat) (act : State → Job → Verdict) : Verdict :=
  match s.job id with
  | some j => if j.partition = h.partition.toNat then act s j else .refuse stNoSuch 0 []
  | none => .refuse stNoSuch 0 []

/-- Whether a job has work outstanding. -/
def Job.busy (j : Job) : Bool :=
  j.barrier.isSome || (match j.reduce with | some r => r.cmd.isSome | none => false) || j.mcast.isSome

/-- R310: the version of a member, known or learned now. -/
def State.memberVer (s : State) (m : Nat) : Nat :=
  if m = s.moduleId then 3 else match s.fabric.peers.find? m with
    | some v => v
    | none => Nat.max 1 (Nat.min 3 (Config.memberVersion m))

/-- R290, R310: the first links of the packets of a job from this module to a member, those of a multicast that it forwards for any
rank included. -/
def State.jobLinks (s : State) (j : Job) (m : Nat) : List Nat :=
  (List.range j.members.length).filterMap (fun r => s.firstPort { j.packet ftMcast m [] with ref := BitVec.ofNat 32 r })

/-- R310: the first member of a job that is below its floor, or to which one of its links is. -/
def State.laggard (s : State) (j : Job) : Option Nat :=
  j.members.find? (fun m => decide (m ≠ s.moduleId) && (decide (s.memberVer m < j.floor)
    || (s.jobLinks j m).any (fun p => decide ((s.port p).version < j.floor))))

/-- R288, R295, R310: the record of a job that is created: its rank and its version are this module's and its slowest member's. -/
def State.newJob (s : State) (h : Hdr) (id : Nat) (epoch : BitVec 8) (floor : Nat) (members : List Nat) : Job :=
  { id := id, epoch := epoch, partition := h.partition.toNat, members := members
    rank := (members.findIdx? (fun m => m = s.moduleId)).getD 0, floor := floor
    version := (members.map s.memberVer).foldl Nat.min 3, slow := (leastBy s.memberVer members).getD 0 }

/-- FB_JOB_CREATE (R288, R310, R311): create a job with a version floor and report T_bar; a job of the same ID is replaced under its
new epoch, but for a busy one and one of another partition (log 191). A version 1 job has no member whose ID version 1 cannot carry (log 175). -/
def execFbJobCreate (h : Hdr) (id : Nat) (epoch : BitVec 8) (floor : Nat) (members : List Nat) (s : State) : Out :=
  .next (s.command h rowFbJob true (fun s =>
    let j := s.newJob h id epoch floor members
    if members.length < 2 ∨ 4096 < members.length ∨ floor = 0 ∨ 3 < floor ∨ id = 0 ∨ 2 ^ 24 ≤ id
        ∨ members.any (fun m => RouteRec.idBad s.fabric.route m) ∨ !members.contains s.moduleId ∨ !members.Nodup
        ∨ (j.version ≤ 1 ∧ members.any (fun m => decide (65536 ≤ m))) then
      .refuse stBadParam 0 []
    else if (match s.job id with | some j => j.busy || decide (j.partition ≠ h.partition.toNat) | none => false) then
      .refuse stBusy 0 []
    else match s.laggard j with
      | some m => .refuse stVersion 0 (leBytes 4 m)
      | none =>
        let j1 := { j with tbar := s.tbarOf j }
        let peers := (members.filter (fun m => m ≠ s.moduleId)).foldl (fun (t : Map Nat) m =>
          t.put m (Nat.max (t.find m 0) (s.memberVer m))) s.fabric.peers
        let s1 : State := { s with fabric := { s.fabric with
          jobs := s.fabric.jobs.filter (fun j => j.id ≠ id) ++ [j1], peers := peers } }
        let s2 := if j.version < (members.map s.memberVer).foldl Nat.max 0 then s1.event evVersionLimit id (some j.partition) j.version else s1
        .run (s2.ok h stOk 0 (Config.layout 0x0903 [j1.tbar]))))

/-- FB_JOB_QUERY (R296, R297): a job's T_bar and version and the ranks that rank 0 holds. -/
def execFbJobQuery (h : Hdr) (id : Nat) (s : State) : Out :=
  .next (s.command h rowFbJob true (fun s => s.onJob h id (fun s j =>
    .run (s.ok h stOk 0 (Config.layout 0x0903 ([j.tbar, j.version, j.epoch.toNat] ++ (j.roots.flatMap (fun b => b.arrived))))))))

/-- FB_JOB_END (R325): end a job with nothing outstanding. -/
def execFbJobEnd (h : Hdr) (id : Nat) (s : State) : Out :=
  .next (s.command h rowFbJob true (fun s => s.onJob h id (fun s j =>
    if j.busy then .refuse stBusy 0 []
    else .run (({ s with fabric := { s.fabric with jobs := s.fabric.jobs.filter (fun k => k.id ≠ id) } } : State).ok h))))

/-! Barriers. -/

/-- R295, R297: the payload of a release: number, whether failed, ranks missing and the lowest of them (log 36). -/
def releasePayload (number : Nat) (failed : Bool) (missing lowest : Nat) : List Byte :=
  leBytes 2 number ++ leBytes 2 failed.toNat ++ leBytes 4 missing ++ leBytes 4 lowest

/-- R295, R297: this member's barrier is over. -/
def State.barrierDone (s : State) (id number : Nat) (failed : Bool) (missing lowest : Nat) : State :=
  match s.job id with
  | none => s
  | some j =>
    match j.barrier with
    | none => s
    | some b =>
      if b.number ≠ number then s
      else
        let s1 := s.updJob id (fun j => { j with barrier := none, done := insertNat number j.done })
        match b.cmd with
        | some (c, tag) =>
          if failed then s1.finish c tag stTimeout 0 none (Config.layout 0x0904 [missing, lowest])
          else s1.finish c tag stOk 0 none (Config.layout 0x0904 [s.now])
        | none => s1

/-- R295, R297: rank 0 releases a barrier: a packet to every member in ascending rank order, its own completion. -/
def State.releaseBarrier (s : State) (j : Job) (b : Barrier) (failed : Bool) : State :=
  let missing := (List.range j.members.length).filter (fun r => !b.arrived.contains r)
  let pay := releasePayload b.number failed missing.length (missing.headD 0)
  let s1 := (j.members.filter (fun m => m ≠ s.moduleId)).foldl (fun (t : State) m => (t.fabPost (j.packet ftRelease m pay)).1) s
  ((s1.updJob j.id (fun j => { j with roots := j.roots.filter (fun x => x.number ≠ b.number), done := insertNat b.number j.done })).barrierDone
    j.id b.number failed missing.length (missing.headD 0))

/-- R295: rank 0 holds one more arrival. -/
def State.barrierArrived (s : State) (id rank number timeout : Nat) : State :=
  match s.job id with
  | none => s
  | some j =>
    let b := (j.roots.find? (fun x => x.number = number)).getD { number := number, first := s.stamp, timeout := timeout }
    let b1 := { b with arrived := insertNat rank b.arrived }
    let s1 := s.updJob id (fun j => { j with roots := j.roots.filter (fun x => x.number ≠ number) ++ [b1] })
    if b1.arrived.length = j.members.length then s1.releaseBarrier j b1 false else s1

/-- FB_BARRIER (R295, R297): send a barrier arrive to rank 0; a member has at most one outstanding. Rank 0's own arrival for a barrier that
has completed is discarded like another's (log 176). -/
def execFbBarrier (h : Hdr) (job : Nat) (number : BitVec 16) (timeout : Nat) (s : State) : Out :=
  .next (s.command h rowFbBarrier true (fun s => s.onJob h job (fun s j =>
    if j.barrier.isSome then .refuse stBusy 0 []
    else
      let b : Barrier := { number := number.toNat, timeout := timeout, cmd := some (h.conn, h.cmdTag), sentAt := s.stamp }
      let s1 := (s.interim h stAccepted).updJob job (fun j => { j with barrier := some b })
      if j.rank = 0 ∧ j.done.contains number.toNat then .run s1
      else if j.rank = 0 then .run (s1.barrierArrived job 0 number.toNat timeout)
      else .run (s1.fabPost (j.packet ftArrive (j.members.headD 0) (leBytes 2 number.toNat ++ leBytes 2 0 ++ leBytes 8 timeout))).1)))

/-- BARRIER_ARRIVE (R295, R297): rank 0 receives an arrive; one for a barrier that has completed is discarded and counted
(log 176). -/
def execBarrierArrive (port : Nat) (p : FabPkt) (s : State) : Out :=
  .next (s.jobRecv port ftArrive p (fun s j =>
    let n := natAt p.payload 0 2
    if j.rank ≠ 0 ∨ j.members.length ≤ p.ref.toNat ∨ j.done.contains n then s.fabDiscard port
    else s.barrierArrived j.id p.ref.toNat n (natAt p.payload 4 8)))

/-- BARRIER_RELEASE (R295): a member receives the release and completes its barrier. -/
def execBarrierRelease (port : Nat) (p : FabPkt) (s : State) : Out :=
  .next (s.jobRecv port ftRelease p (fun s j =>
    let n := natAt p.payload 0 2
    if (j.barrier.map Barrier.number) ≠ some n then s.fabDiscard port
    else s.barrierDone j.id n (natAt p.payload 2 2 ≠ 0) (natAt p.payload 4 4) (natAt p.payload 8 4)))

/-- BARRIER_TIMEOUT (R297): rank 0 releases a barrier as failed when its timeout has run from the first arrival; a member
that has no release to come completes on its own after its timeout and T_bar. -/
def execBarrierTimeout (job : Nat) (s : State) : Out :=
  .next (match s.job job with
    | none => s
    | some j =>
      if !s.powered then s
      else match j.roots.find? (fun b => decide (b.timeout ≤ s.since b.first)) with
        | some b => s.releaseBarrier j b true
        | none => match j.barrier with
          | some b =>
            if !j.roots.any (fun x => decide (x.number = b.number)) && decide (b.timeout + j.tbar ≤ s.since b.sentAt) then
              s.barrierDone job b.number true 0 0
            else s
          | none => s)

/-! Collectives (R301 to R303). -/

/-- Table 10-9: MAX and MIN of two FP32 patterns: NaN if either is NaN. -/
def f32Pick (greater : Bool) (a b : Nat) : Nat :=
  match f32 a, f32 b with
  | .nan, _ => fmtFP32.nan
  | _, .nan => fmtFP32.nan
  | x, y => if greater then (if x.le y then b else a) else (if x.le y then a else b)

/-- Table 10-9: an operator on two 32-bit elements (BF16 is accumulated in FP32). -/
def reduceOp (op fmt : Nat) (a b : Word) : Word :=
  if op = 3 then a &&& b
  else if op = 4 then a ||| b
  else if op = 5 then a ^^^ b
  else if fmt = 0 then
    (if op = 0 then a + b else if op = 1 then (if a.toInt ≤ b.toInt then b else a) else (if a.toInt ≤ b.toInt then a else b))
  else BitVec.ofNat 32 (if op = 0 then f32Add a.toNat b.toNat else f32Pick (decide (op = 1)) a.toNat b.toNat)

/-- R301, Table 10-9: whether a version and format take an operator. -/
def reduceAllowed (version op fmt : Nat) : Bool :=
  decide (op = 0 ∧ fmt ≤ 1) || (decide (2 ≤ version) && (decide (op ≤ 2) || decide (fmt = 0)))

/-- Table 10-9: bytes of an element. -/
def reduceSize (fmt : Nat) : Nat := if fmt = 2 then 2 else 4

/-- R301: a member's own elements as 32-bit words. -/
def reduceLoad (fmt count : Nat) (bytes : List Byte) : List Word :=
  (List.range count).map (fun i => if fmt = 2 then BitVec.ofNat 32 (natAt bytes (2 * i) 2 * 2 ^ 16)
    else BitVec.ofNat 32 (natAt bytes (4 * i) 4))

/-- R301: the result's elements as bytes; BF16 is rounded once. -/
def reduceStore (fmt : Nat) (l : List Word) : List Byte :=
  l.flatMap (fun w => if fmt = 2 then leBytes 2 ((fmtBF16.ofVal false (f32 w.toNat)).1) else leBytes 4 w.toNat)

/-- The bytes of a message's payloads in offset order, where they cover it. -/
def joinParts (parts : List (Nat × List Byte)) : List Byte := (sortBy Prod.fst parts).flatMap Prod.snd

/-- R302: elements that one packet of a partial carries behind the number of its collective (log 36). -/
def Job.perPacket (j : Job) : Nat := versionPayload j.version / 4 - 1

/-- R302: the number in its job of the collective that a packet is of, and what the packet carries behind it (log 36). -/
def collNo (p : FabPkt) : Nat := natAt p.payload 0 4
def collBody (p : FabPkt) : List Byte := p.payload.drop 4

/-- A packet with the number of its collective in front of its payload. -/
def numbered (n : Nat) (p : FabPkt) : FabPkt := { p with payload := leBytes 4 n ++ p.payload }

/-- R303: the offset of a packet that says that a collective has failed (log 36). -/
def failedOffset : Nat := 0xFFFFFFFF

/-- R302, R303: a packet of a rank below, or one that says that the collective has failed, is kept. -/
def Job.absorb (j : Job) (r : Reduce) (p : FabPkt) : Reduce :=
  if p.offset = failedOffset then { r with failed := some ((r.failed.map (Nat.min (natAt (collBody p) 0 4))).getD (natAt (collBody p) 0 4)) }
  else
    let had := (r.parts.find p.ref.toNat []).filter (fun x => x.1 ≠ p.offset)
    { r with parts := r.parts.put p.ref.toNat (had ++ [(p.offset, collBody p)])
             bad := if p.poison then insertNat (p.offset / (4 * j.perPacket)) r.bad else r.bad }

/-- R302: the collective is over on this member; what has come of the next one is its own. -/
def Job.endReduce (j : Job) : Job :=
  let n := (j.reduceNo + 1) % 2 ^ 32
  let mine := j.early.filter (fun p => collNo p = n)
  { j with reduceNo := n, early := j.early.filter (fun p => collNo p ≠ n)
           reduce := if mine.isEmpty then none else some (mine.foldl j.absorb {}) }

/-- R303: the members that this one hears from or sends to, but `skip`, are told that a collective has failed, and the lowest rank not
heard from. -/
def State.reduceTell (s : State) (j : Job) (number rank skip : Nat) : State :=
  (j.near.filter (fun x => x ≠ skip)).foldl (fun (t : State) x =>
    (t.fabPost (numbered number { j.packet (if x < j.rank then ftPartial else ftResult) (j.members.getD x 0) (leBytes 4 rank) with
      offset := failedOffset })).1) s

/-- R303: a collective fails: its command completes with `FAILED` and the lowest rank not heard from, and the members that this one can
reach are told. A member whose command is still to come keeps that for it. -/
def State.reduceFail (s : State) (id rank skip : Nat) : State :=
  match s.job id with
  | none => s
  | some j =>
    let s1 := s.reduceTell j j.reduceNo rank skip
    let r := j.reduce.getD {}
    match r.cmd with
    | some (c, tag) => (s1.updJob id Job.endReduce).finish c tag stFailed 0 none (Config.layout 0x0905 [rank])
    | none => s1.updJob id (fun j => { j with reduce := some { r with failed := some ((r.failed.map (Nat.min rank)).getD rank) } })

/-- R301, R302: the result written at the destination, poisoned elements with their codeblocks' flag. -/
def State.reduceWrite (s : State) (j : Job) (r : Reduce) (bytes : List Byte) (perPacket : Nat) : State :=
  match s.resolve j.partition 0 r.dst bytes.length with
  | none => s
  | some g =>
    let o := stackOff r.dst
    let lo := o / cbBytes * cbBytes
    let old := s.regionBytes g lo ((cbSpan o bytes.length).length * cbBytes)
    let new := ((List.range old.length).zip old).map (fun (x : Nat × Byte × Bool) =>
      let i := x.1 + lo - o
      if o ≤ x.1 + lo ∧ i < bytes.length then (bytes.getD i 0, r.bad.contains (i / perPacket)) else x.2)
    s.regionWrite g lo new j.partition

/-- The packets of a message, those of the poisoned parts with the flag. -/
def poisonPackets (bad : List Nat) (l : List FabPkt) : List FabPkt :=
  ((List.range l.length).zip l).map (fun x => { x.2 with poison := bad.contains x.1 })

/-- R285, R294: the packets of a collective's message, those of a planned one with its flag. -/
def Reduce.packets (r : Reduce) (l : List FabPkt) : List FabPkt :=
  (poisonPackets r.bad l).map (fun p => { p with planned := r.planned })

/-- R285, R302: the packets of a message of the job's collective in progress to a rank, of `per` bytes each, and the numbers they
leave. -/
def State.reduceMessage (s : State) (j : Job) (r : Reduce) (type rank per : Nat) (bytes : List Byte) : State × List FabPkt :=
  let q := s.nextSeq (j.members.getD rank 0) type
  (q.1, (r.packets (cutMessage { j.packet type (j.members.getD rank 0) [] with seq := q.2 } per bytes)).map (numbered j.reduceNo))

/-- R302: sends such a message; the second part says whether a link leads to the rank. -/
def State.reduceSend (s : State) (j : Job) (r : Reduce) (type rank per : Nat) (bytes : List Byte) : State × Bool :=
  let m := s.reduceMessage j r type rank per bytes
  m.1.fabSendAll m.2

/-- R301 to R303: the collective is complete on this member: its result stands, and the ranks below are told, with the result in the
all-reduce form and with none else (log 197); where no link leads to one of them it fails, and nothing is written as final. -/
def State.reduceFinish (s : State) (j : Job) (r : Reduce) (result : List Byte) : State :=
  let el := reduceSize r.fmt
  let kids := childRanks j.rank j.members.length
  match kids.find? (fun c => (s.rankPort j c).isNone) with
  | some c => s.reduceFail j.id c j.members.length
  | none =>
    let s1 := if j.rank = 0 ∨ r.all then s.reduceWrite j r result (j.perPacket * el) else s
    let s2 := (kids.foldl (fun (t : State) c =>
      (t.reduceSend j r ftResult c (j.perPacket * el) (if r.all then result else [])).1) s1).updJob j.id Job.endReduce
    match r.cmd with
    | some (c, tag) => s2.finish c tag stReady 0 none []
    | none => s2

/-- R302: whether the partials of the ranks below are whole. -/
def Reduce.whole (r : Reduce) (kids : List Nat) : Bool :=
  kids.all (fun c => decide (4 * r.count ≤ (joinParts (r.parts.find c [])).length))

/-- R302: a member's own elements with the partials of the ranks below, combined in ascending rank order. -/
def Reduce.combined (r : Reduce) (kids : List Nat) : List Word := kids.foldl (fun a c =>
  let b := joinParts (r.parts.find c [])
  ((List.range a.length).zip a).map (fun x => reduceOp r.op r.fmt x.2 (BitVec.ofNat 32 (natAt b (4 * x.1) 4)))) r.acc

/-- R301: bytes of the result that a member below rank 0 gets: none where the result stays on rank 0. -/
def Reduce.resultBytes (r : Reduce) : Nat := if r.all then r.count * reduceSize r.fmt else 0

/-- R302: children combined in ascending rank order once every one of them is whole; the partial then goes up, or on rank 0
the result stands. A member that has sent its partial waits for word of the outcome (R303, log 197). -/
def State.reduceStep (s : State) (id : Nat) : State :=
  match s.job id with
  | none => s
  | some j =>
    match j.reduce with
    | none => s
    | some r =>
      let kids := childRanks j.rank j.members.length
      if r.cmd.isNone ∨ r.sent ∨ !r.whole kids then s
      else
        let acc := r.combined kids
        let r1 := { r with acc := acc, sent := true, got := kids }
        let s1 := s.updJob id (fun j => { j with reduce := some r1 })
        if j.rank = 0 then s1.reduceFinish j r1 (reduceStore r.fmt acc)
        else
          let up := parentRank j.rank
          let sent := s1.reduceSend j r ftPartial up (4 * j.perPacket) (acc.flatMap (fun w => leBytes 4 w.toNat))
          if !sent.2 then s1.reduceFail id up up else sent.1

/-- FB_REDUCE (R294, R301, R303): start a collective reduction across the job; one of which the failure has come already fails. -/
def execFbReduce (h : Hdr) (q : ReduceParams) (s : State) : Out :=
  .next (s.command h rowFbReduce true (fun s => s.onJob h q.job (fun s j =>
    let n := q.count * reduceSize q.fmt
    if (s.resolve j.partition 0 q.src 0).isNone || (s.resolve j.partition 0 q.dst 0).isNone then .refuse stNoSuch 0 []
    else if q.count = 0 ∨ 16777216 < q.count ∨ 5 < q.op ∨ 2 < q.fmt ∨ (3 ≤ q.op ∧ q.fmt ≠ 0) then .refuse stBadParam 0 []
    else match s.resolve j.partition 0 q.src n, s.resolve j.partition 0 q.dst n with
      | some g, some _ =>
        if !reduceAllowed j.version q.op q.fmt then .refuse stVersion 0 []
        else if (match j.reduce with | some r => r.cmd.isSome | none => false) then .refuse stBusy 0 []
        else
          let bytes := s.regionBytes g (stackOff q.src) n
          let per := j.perPacket * reduceSize q.fmt
          let own := ((List.range (ceilDiv n per)).filter (fun i => spPoison ((bytes.drop (per * i)).take per)))
          let r := j.reduce.getD {}
          let r1 := { r with op := q.op, fmt := q.fmt, count := q.count, src := q.src, dst := q.dst, all := q.all
                             planned := q.planned
                             acc := reduceLoad q.fmt q.count (bytes.map Prod.fst), cmd := some (h.conn, h.cmdTag)
                             bad := own.foldl (fun l i => insertNat i l) r.bad }
          let s1 := ((s.interim h stAccepted).regionTouched g (stackOff q.src) n j.partition).updJob q.job (fun j =>
            { j with reduce := some r1 })
          .run (match r.failed with
            | some rank => (s1.updJob q.job Job.endReduce).finish h.conn h.cmdTag stFailed 0 none (Config.layout 0x0905 [rank])
            | none => s1.reduceStep q.job)
      | _, _ => .refuse stBadParam 0 [])))

/-- R302: whether a packet is of a later collective of its job than the one in progress, numbers being counted modulo 2^32. -/
def Job.later (j : Job) (p : FabPkt) : Bool :=
  decide (collNo p ≠ j.reduceNo) && decide ((collNo p + 2 ^ 32 - j.reduceNo) % 2 ^ 32 < 2 ^ 31)

/-- R302, R303: a collective's packet reaches its job: one of a later collective is kept for it, one of an earlier one is discarded and
counted, and one that says that the collective has failed ends it. -/
def State.reduceRecv (s : State) (port : Nat) (j : Job) (p : FabPkt) (act : State → State) : State :=
  let failed := decide (p.offset = failedOffset)
  if j.later p then
    let s1 := s.updJob j.id (fun j => { j with early := j.early.filter (fun q =>
      !(collNo q = collNo p ∧ q.type = p.type ∧ q.ref = p.ref ∧ q.offset = p.offset)) ++ [p] })
    if failed then s1.reduceTell j (collNo p) (natAt (collBody p) 0 4) p.ref.toNat else s1
  else if collNo p ≠ j.reduceNo then s.fabDiscard port
  else if failed then s.reduceFail j.id (natAt (collBody p) 0 4) p.ref.toNat
  else act s

/-- REDUCTION_PARTIAL (R302): a partial is received up the binomial tree and combined once it and its siblings are whole. -/
def execReductionPartial (port : Nat) (p : FabPkt) (s : State) : Out :=
  .next (s.jobRecv port ftPartial p (fun s j =>
    if !(childRanks j.rank j.members.length).contains p.ref.toNat then s.fabDiscard port
    else s.reduceRecv port j p (fun s =>
      (s.updJob j.id (fun j => { j with reduce := some (j.absorb (j.reduce.getD {}) p) })).reduceStep j.id)))

/-- REDUCTION_RESULT (R302): the result is received down the tree, written and passed on once it is whole. -/
def execReductionResult (port : Nat) (p : FabPkt) (s : State) : Out :=
  .next (s.jobRecv port ftResult p (fun s j =>
    if j.rank = 0 ∨ p.ref.toNat ≠ parentRank j.rank then s.fabDiscard port
    else s.reduceRecv port j p (fun s =>
      let r := j.reduce.getD {}
      if !r.sent then s.fabDiscard port
      else
        let el := reduceSize r.fmt
        let r1 := { r with
          result := r.result.filter (fun x => x.1 ≠ p.offset) ++ [(p.offset, collBody p)]
          bad := if p.poison then insertNat (p.offset / (j.perPacket * el)) r.bad else r.bad }
        let s1 := s.updJob j.id (fun j => { j with reduce := some r1 })
        let bytes := joinParts r1.result
        if r.resultBytes ≤ bytes.length then s1.reduceFinish j r1 bytes else s1)))

/-! Lanes and ports lost. -/

/-- R303: the rank in its job to which a packet goes. -/
def State.rankTo (s : State) (p : FabPkt) : Nat :=
  ((s.job p.job).bind (fun j => j.members.findIdx? (fun m => m = p.dst))).getD 0

/-- R303: the lowest rank that a member of a collective still needs and no link leads to: a rank below, or the
rank above. -/
def State.rankCut (s : State) (j : Job) : Option Nat :=
  let kids := childRanks j.rank j.members.length
  leastBy id ((kids ++ j.near.filter (fun x => x < j.rank)).filter (fun x => (s.rankPort j x).isNone))

/-- R284, R303: the collectives that lose a packet, and those that lose a path, fail: their members are told, and commands of theirs that
are under way complete. -/
def State.pathsLost (s : State) (lost : List FabPkt) : State :=
  let s1 := (sortBy s.rankTo (lost.filter (fun p => p.type = ftPartial ∨ p.type = ftResult))).foldl (fun (t : State) p =>
    match t.job p.job with
    | some j =>
      if collNo p = j.reduceNo ∧ (j.reduce.bind Reduce.cmd).isSome then t.reduceFail j.id (t.rankTo p) j.members.length
      else t.reduceTell j (collNo p) (t.rankTo p) j.members.length
    | none => t) s
  s1.fabric.jobs.foldl (fun (t : State) j => match j.reduce with
    | some r => if r.cmd.isNone then t else match t.rankCut j with
      | some c => t.reduceFail j.id c j.members.length
      | none => t
    | none => t) s1

/-- LANE_FAILURE (R283, R284, R303): a lane in use fails: the port holds and retrains; with too few for any width of Table 10-12 it is down (log 169), what its
retry buffer holds is lost, and the collectives that lose a packet or a path fail. -/
def execLaneFailure (port lane : Nat) (s : State) : Out :=
  let v := s.port port
  .next (if !s.powered || decide (portCount ≤ port) || !v.up || decide (8 ≤ lane) || !v.good.getLsbD lane then s
    else
      let s1 := ((s.updPort port (fun t => { t with bad := t.bad ||| BitVec.twoPow 8 lane })).countPort port tcLanesDown 1).event
        evLaneDown port none lane
      if widthOf v.version (laneCount (s1.port port).good) = 0 then
        let s2 := ((s1.updPort port (fun t => { t with up := false, width := 0, lanes := 0, retrain := false, retry := [] })).retime).event
          evPortDown port
        s2.pathsLost v.retry
      else s1.updPort port (fun t => { t with retrain := true }))

/-- FB_ROUTE_SET (R289, R303): write the route record; a collective that loses a path by it fails. -/
def execFbRouteSet (h : Hdr) (r : RouteRec) (s : State) : Out :=
  .next (s.command h rowFbRouteSet true (fun s =>
    if s.routeBad r then .refuse stBadParam 0 []
    else .run (((({ s with fabric := { s.fabric with route := r } } : State).retime).pathsLost []).ok h)))

/-- FB_PORT_SET (R281, R288, R303): write a port record and restart the port; what its retry buffer holds is flushed. -/
def execFbPortSet (h : Hdr) (port : Nat) (r : PortRec) (s : State) : Out :=
  .next (s.command h rowFbPortSet true (fun s =>
    if portCount ≤ port then .refuse stNoSuch 0 []
    else if s.portRecBad port r then .refuse stBadParam 0 []
    else .run ((((s.updPort port (fun t => { t.restart with record := r })).retime).pathsLost (s.port port).retry).ok h)))

end Sys2Proof.Machine
end

