-- ==== Sys2Proof/Machine/Wire.lean ====
section
/-! DEFINITION. What a multicast's packets carry (R304, R305): the heading in front of a message's data, and the results that a target
reports; both layouts are this model's (log 36). -/

namespace Sys2Proof.Machine

/-- The heading of a multicast message: data length, origin, region (0xFF: a shard), and the targets in order; whole codeblocks. -/
def mcastHead (length origin : Nat) (region : Option Nat) (targets : List Nat) : List Byte :=
  let b := leBytes 4 length ++ leBytes 4 origin ++ leBytes 4 (region.getD 255) ++ leBytes 4 targets.length
    ++ targets.flatMap (leBytes 4)
  b ++ List.replicate (roundUp b.length cbBytes - b.length) 0

/-- What a received heading says. -/
structure McastHead where
  length  : Nat
  origin  : Nat
  region  : Option Nat
  targets : List Nat
  size    : Nat
deriving DecidableEq, Repr

/-- The heading of a message whose payloads are `got`, once all of it is in. -/
def mcastHeadOf (got : List (Nat × List Byte)) : Option McastHead :=
  let b := joinParts got
  let n := natAt b 12 4
  let size := roundUp (16 + 4 * n) cbBytes
  if ((got.filter (fun x => x.1 < size)).map (fun x => x.2.length)).sum < size ∨ b.length < 16 then none
  else some { length := natAt b 0 4, origin := natAt b 4 4, region := if natAt b 8 4 = 255 then none else some (natAt b 8 4)
              targets := (List.range n).map (fun i => natAt b (16 + 4 * i) 4), size := size }

/-- Table 10-6: results that one status packet of 256 bytes carries behind its heading. -/
def statusResults : Nat := 31

/-- R305: the payload of a status packet: the rank and the number of the multicast's origin, and results of targets (log 36). -/
def statusPayload (origin seq : Nat) (l : List (Nat × Nat)) : List Byte :=
  leBytes 4 origin ++ leBytes 4 seq ++ l.flatMap (fun (x : Nat × Nat) => leBytes 4 x.1 ++ leBytes 4 x.2)

/-- R286, R305: the results in parts of one packet each. -/
def statusParts (l : List (Nat × Nat)) : List (List (Nat × Nat)) :=
  (List.range (ceilDiv l.length statusResults)).map (fun i => (l.drop (statusResults * i)).take statusResults)

/-- R304: the multicast of an origin's rank and number that this module receives. -/
def Job.rxOf (j : Job) (origin seq : Nat) : Option McastRx := j.rx.find? (fun r => r.origin = origin ∧ r.seq = seq)

/-- R305: a target of a multicast reports results up the tree: to the module that sent it the message, the one above it or, where
that one could not reach it, one further up. -/
def State.mcastReport (s : State) (j : Job) (rx : McastRx) (l : List (Nat × Nat)) : State :=
  (statusParts l).foldl (fun (t : State) x =>
    (t.fabPost (j.packet ftMcastStatus rx.sender (statusPayload rx.origin rx.seq x))).1) s

/-- R305: this module's own result for a multicast that it received: kept, and reported. -/
def State.mcastOwn (s : State) (job origin seq result : Nat) : State :=
  match s.job job with
  | none => s
  | some j => match j.rxOf origin seq with
    | none => s
    | some rx => match mcastHeadOf rx.got with
      | none => s
      | some m => match m.targets.findIdx? (fun t => t = s.moduleId) with
        | none => s
        | some i => (s.updJob job (fun j => { j with rx := j.rx.map (fun r =>
            if r = rx then { r with result := some result } else r) })).mcastReport j rx [(i, result)]

end Sys2Proof.Machine
end

