-- ==== Sys2Proof/Machine/Ship.lean ====
section
/-! DEFINITION. KV shipments (R203 to R205, R306). -/

namespace Sys2Proof.Machine

/-- R306: bytes of a KV page; R202: positions of a page and page groups of an edition. -/
def Edition.npp (e : Edition) : Nat := (e.serving.map ServingRec.posPerPage).getD 0
def Edition.groups (e : Edition) : Nat := (e.serving.map ServingRec.groups).getD 0

/-- Table 7-9: the page_id of the n-th page of a request: pages stand by position range and within it by group (log 37). -/
def Edition.pageId (e : Edition) (n : Nat) : Nat := if e.groups = 0 then 0 else n % e.groups + n / e.groups * 2 ^ 10

/-- The page of a request that a page_id names. -/
def Edition.pageIndex (e : Edition) (id : Nat) : Nat := id / 2 ^ 10 * e.groups + id % 2 ^ 10

/-- Offset of a request's n-th page in its partition's KV region. -/
def Req.pageOffset (r : Req) (n : Nat) : Option Nat := (r.pages[n]?).map (fun g => g * pageBytes)

/-- The bytes of a request's n-th page, with their poison. -/
def State.pageData (s : State) (i n : Nat) : List (Byte × Bool) :=
  let r := s.req i
  match r.pageOffset n, (s.part r.partition).regions.find? 2 with
  | some o, some g => s.regionBytes g o pageBytes
  | _, _ => []

/-- R204, R205, R273, R326: a serving report about a shipment, its status one of Table 11-8 (log 178); its body names the page, or the
edition of a manifest. -/
def State.shipReport (s : State) (i status page : Nat) : State :=
  let r := s.req i
  s.report opServingReport (some r.partition) (s.tag i) status 0 0
    (leBytes 8 r.desc.cookie.toNat ++ leBytes 4 page)

/-- R204: the header of a shipment's packets. -/
def State.shipPacket (s : State) (i type seq : Nat) : FabPkt :=
  let r := s.req i
  { version := 3, type := type, dst := shipModule r.desc, partition := r.partition, seq := seq
    ref := BitVec.ofNat 32 (shipTag r.desc) }

/-- R285, R306: pages of a shipment that one message holds: `offset` has 32 bits. -/
def pagesPerMessage : Nat := 65536

/-- R204, R306: sends the n-th page as 32 packets of one codeblock; a poisoned page is not sent and is reported. The pages of a
shipment are one message, or as many as their bytes need, and a packet's `offset` tells its page (log 37). -/
def State.sendPage (s : State) (i n : Nat) : State × Bool :=
  let r := s.req i
  let b := s.pageData i n
  let s1 := match r.pageOffset n, (s.part r.partition).regions.find? 2 with
    | some o, some g => s.regionTouched g o pageBytes r.partition
    | _, _ => s
  if spPoison b ∨ b.isEmpty then (s1.shipReport i stPoisoned ((s.edition r.edition).pageId n), true)
  else
    let final := decide (n + 1 = (s.edition r.edition).pagesFor r.desc.promptLen.toNat ∨ (n + 1) % pagesPerMessage = 0)
    let head := s.shipPacket i ftKvPage ((r.shipSeq + n / pagesPerMessage) % 2 ^ 32)
    s1.fabSendAll ((cutMessage head cbBytes (b.map Prod.fst)).map (fun p =>
      { p with offset := p.offset + n % pagesPerMessage * pageBytes, last := p.last && final }))

/-- Table 7-9: the manifest of a request's shipment. -/
def State.manifestBytes (s : State) (i : Nat) : List Byte :=
  let r := s.req i
  let e := s.edition r.edition
  let n := e.pagesFor r.desc.promptLen.toNat
  leBytes 4 0x4B4D564B ++ leBytes 2 r.edition ++ leBytes 2 0 ++ leBytes 4 (shipTag r.desc) ++ leBytes 4 r.desc.promptLen.toNat
    ++ leBytes 4 r.lastToken ++ leBytes 4 r.gstate.toNat ++ leBytes 8 r.lastStamp.toNat ++ leBytes 4 n ++ leBytes 28 0
    ++ (List.range n).flatMap (fun k => leBytes 4 (e.pageId k) ++ (leBytes 48 (Config.sha384 ((s.pageData i k).map Prod.fst))))

/-- R204: the request drains and ships: the manifest, then its pages in manifest order. -/
def State.startShipment (s : State) (i : Nat) : State :=
  let r := s.req i
  let n := (s.edition r.edition).pagesFor r.desc.promptLen.toNat
  let s1 := (s.updReq i (fun r => { r with state := .draining, shipping := true, period := 0, prefill := [] }))
  let q := s1.nextSeq (shipModule r.desc) ftKvManifest
  let s2 := (q.1.fabSendAll (cutMessage (s.shipPacket i ftKvManifest q.2) 256 (s.manifestBytes i))).1
  let first := s2.nextSeq (shipModule r.desc) ftKvPage
  let s3 := (List.range (ceilDiv n pagesPerMessage - 1)).foldl (fun (t : State) _ => (t.nextSeq (shipModule r.desc) ftKvPage).1) first.1
  (List.range n).foldl (fun (t : State) k => (t.sendPage i k).1) (s3.updReq i (fun r => { r with shipSeq := first.2 }))

/-- The request whose shipment goes to a module under a receiving tag. -/
def State.shipmentOf (s : State) (p : FabPkt) : Option Nat :=
  (s.reqs.entries.find? (fun e => e.2.shipping && decide (e.2.state = .draining) && decide (shipModule e.2.desc = p.src)
    && decide (shipTag e.2.desc = p.ref.toNat % 2 ^ 24))).map Prod.fst

/-- KV_DONE (R204): the sender's request retires. -/
def execKvDone (port : Nat) (p : FabPkt) (s : State) : Out :=
  .next (s.fabRecv port ftKvDone p (fun s => match s.shipmentOf p with
    | some i => (s.updReq i (fun r => { r with shipping := false })).retire i stFinished
    | none => s.fabDiscard port))

/-- KV_NAK (R204): the listed pages are sent once more; a second nak of a page is reported. -/
def execKvNak (port : Nat) (p : FabPkt) (s : State) : Out :=
  .next (s.fabRecv port ftKvNak p (fun s => match s.shipmentOf p with
    | some i =>
      let ids := (List.range (p.payload.length / 4)).map (fun k => natAt p.payload (4 * k) 4)
      ids.foldl (fun (t : State) id =>
        if (t.req i).kvNaks.contains id then t.shipReport i stFailed id
        else ((t.updReq i (fun r => { r with kvNaks := r.kvNaks ++ [id] })).sendPage i
          ((t.edition (t.req i).edition).pageIndex id)).1) s
    | none => s.fabDiscard port))

/-- SV_KV_RESEND (R204, R322): resend named KV pages of a shipment; the pages are those of the request whose tag is current (log 53). -/
def execSvKvResend (h : Hdr) (pages : List Word) (s : State) : Out :=
  .next (s.command h rowSvKvResend (h.length = 4 + 4 * pages.length) (fun s =>
    s.onReq h (fun _ => true) (fun s i =>
      let r := s.req i
      let e := s.edition r.edition
      let n := e.pagesFor r.desc.promptLen.toNat
      let ids := (List.range n).map e.pageId
      if pages.any (fun w => !ids.contains w.toNat) then .refuse stBadParam 0 []
      else if !(r.shipping && decide (r.state = .draining)) then .refuse stBadState 0 []
      else
        let sent := pages.foldl (fun (t : State × Bool) w =>
          let u := t.1.sendPage i (e.pageIndex w.toNat); (u.1, t.2 && u.2)) (s, true)
        .run (sent.1.ok h (if sent.2 then stOk else stFailed)))))

/-! The receiving side (R205). -/

/-- R183, R205: the request in `kv_wait` that a packet's tag names. -/
def State.receiverOf (s : State) (p : FabPkt) : Option Nat :=
  let i := tagIndex p.ref
  let r := s.req i
  if r.gen = tagGen p.ref ∧ r.kvWait ∧ r.state = .admitted then some i else none

/-- R183: a message with a stale tag is discarded and counted. -/
def State.staleMessage (s : State) (port : Nat) (p : FabPkt) : State :=
  let s1 := s.fabDiscard port
  if (s.req (tagIndex p.ref)).gen ≠ tagGen p.ref then s1.countPart p.partition pcStaleTag 1 else s1

/-- R205: the edition that a request in `kv_wait` would run. -/
def State.kvEdition (s : State) (i : Nat) : Nat :=
  let r := s.req i
  if r.follow then (s.part r.partition).current else r.edition

/-- R306: pages that have all their 32 codeblocks. -/
def Req.pageWhole (r : Req) (id : Nat) : Bool := decide (r.kvParts.find id 0 = 2 ^ 32 - 1)

/-- R205, R306: a whole page is checked against the manifest: held, or discarded and counted, to be asked for again. -/
def State.checkPage (s : State) (port i id : Nat) : State :=
  let r := s.req i
  match r.kvFromPage.find? (fun e => e.1 = id) with
  | none => s
  | some e =>
    if !r.pageWhole id ∨ r.kvHave.contains id then s
    else
      let b := s.pageData i ((s.edition (s.kvEdition i)).pageIndex id)
      if leBytes 48 (Config.sha384 (b.map Prod.fst)) = e.2 ∧ !spPoison b then
        s.updReq i (fun r => { r with kvHave := insertNat id r.kvHave })
      else (s.updReq i (fun r => { r with kvParts := r.kvParts.erase id })).fabDiscard port

/-- R205: once every page has checked, `KV_DONE` is sent and admission runs. -/
def State.shipmentDone (s : State) (i : Nat) : State :=
  let r := s.req i
  if r.kvFromPage.isEmpty ∨ r.kvFromPage.any (fun e => !r.kvHave.contains e.1) then s
  else
    let s1 := (s.fabPost { version := 3, type := ftKvDone, dst := r.kvSrc, partition := r.partition, last := true
                           ref := s.tag i }).1
    s1.admitShipped i

/-- Table 7-9: the pages of a manifest with their digests. -/
def manifestPages (b : List Byte) : List (Nat × List Byte) :=
  (List.range (natAt b 32 4)).map (fun k => (natAt b (64 + 52 * k) 4, bytesAt b (68 + 52 * k) 48))

/-- R306: when the last page of a manifest of `n` pages that is whole now is due: once its bytes have had the time that they take on the
port (log 179). -/
def State.pagesDue (s : State) (port n : Nat) : U64 :=
  BitVec.ofNat 64 (s.now + ceilDiv (n * pageBytes) (Nat.max 1 (payloadRate (s.port port).width)))

/-- KV_MANIFEST (R205): a whole manifest is checked against the receiving request's edition; a wrong one is discarded and
reported. Pages that came before it and are not in it are discarded and counted. -/
def execKvManifest (port : Nat) (p : FabPkt) (s : State) : Out :=
  .next (s.fabRecv port ftKvManifest p (fun s => match s.receiverOf p with
    | none => s.staleMessage port p
    | some i =>
      let s1 := s.updReq i (fun r => { r with kvLast := s.stamp, kvSrc := p.src
                                              kvManifest := r.kvManifest.filter (fun x => x.1 ≠ p.offset) ++ [(p.offset, p.payload)] })
      let b := joinParts (s1.req i).kvManifest
      if b.length < 64 ∨ b.length < 64 + 52 * natAt b 32 4 then s1
      else if natAt b 4 2 ≠ s.kvEdition i ∨ natAt b 0 4 ≠ 0x4B4D564B then
        (s1.updReq i (fun r => { r with kvManifest := [] })).shipReport i stBadParam (natAt b 4 2)
      else
        let pages := manifestPages b
        let stray := (s1.req i).kvParts.keys.filter (fun id => !pages.any (fun e => decide (e.1 = id)))
        let s2 := (stray.foldl (fun (t : State) id =>
          (t.updReq i (fun r => { r with kvParts := r.kvParts.erase id })).fabDiscard port) s1).updReq i (fun r => { r with
          kvFromPage := pages, kvDue := s1.pagesDue port pages.length, committed := natAt b 12 4, lastToken := natAt b 16 4 % 2 ^ 18
          gstate := BitVec.ofNat 32 (natAt b 20 4) })
        (pages.foldl (fun (t : State) e => t.checkPage port i e.1) s2).shipmentDone i))

/-- R285, R306: the page of its shipment that a packet is of (log 37). -/
def Req.pageNo (r : Req) (p : FabPkt) : Nat :=
  (p.seq + 2 ^ 32 - r.kvSeq.getD p.seq) % 2 ^ 32 * pagesPerMessage + p.offset / pageBytes

/-- KV_PAGE (R306): a page packet is written as one whole codeblock of the KV region; the page's digest is checked once all 32
have arrived. A second copy of a page held, a page not in the manifest, or a payload that is no whole aligned codeblock (R264), is
discarded and counted. -/
def execKvPage (port : Nat) (p : FabPkt) (s : State) : Out :=
  .next (s.fabRecv port ftKvPage p (fun s => match s.receiverOf p with
    | none => s.staleMessage port p
    | some i =>
      let r := s.req i
      let s0 := s.updReq i (fun r => { r with kvLast := s.stamp, kvSrc := p.src, kvSeq := some (r.kvSeq.getD p.seq) })
      let n := r.pageNo p
      let id := (s.edition (s.kvEdition i)).pageId n
      let k := p.offset / cbBytes % 32
      let known := r.kvFromPage.isEmpty || r.kvFromPage.any (fun e => decide (e.1 = id))
      match r.pageOffset n, (s.part r.partition).regions.find? 2 with
      | some o, some g =>
        if !known ∨ r.kvHave.contains id ∨ p.offset % cbBytes ≠ 0 ∨ p.payload.length ≠ cbBytes then s0.fabDiscard port
        else
          let s1 := s0.regionWrite g (o + cbBytes * k) (p.payload.map (fun x => (x, p.poison))) r.partition
          let had := r.kvParts.find id 0
          let s2 := s1.updReq i (fun r => { r with
            kvParts := r.kvParts.put id (if had.testBit k then had else had + 2 ^ k) })
          (s2.checkPage port i id).shipmentDone i
      | _, _ => s0.fabDiscard port))

/-- KV_NAK_TIMER (R306): once the manifest's last page is due, and 1 ms after the last packet of the shipment, the receiver answers the
pages still missing with `KV_NAK`. -/
def execKvNakTimer (i : Nat) (s : State) : Out :=
  let r := s.req i
  let missing := (r.kvFromPage.filter (fun e => !r.kvHave.contains e.1)).map Prod.fst
  .next (if !s.powered || !r.kvWait || decide (r.state ≠ .admitted) || missing.isEmpty || decide (s.since r.kvLast < 10 ^ 6)
      || decide (s.now < r.kvDue.toNat) then s
    else
      let q := (s.updReq i (fun r => { r with kvLast := s.stamp })).nextSeq r.kvSrc ftKvNak
      let head : FabPkt := { version := 3, type := ftKvNak, dst := r.kvSrc, partition := r.partition, seq := q.2, ref := s.tag i }
      (q.1.fabSendAll (cutMessage head 256 (missing.flatMap (fun id => leBytes 4 id)))).1)

end Sys2Proof.Machine
end

