-- ==== Sys2Proof/Machine/Repair.lean ====
section
/-! DEFINITION. Units taken out of service (R395 to R397) and lost fields (R398, R399): where their work goes and how it is
rebuilt. The part at the boundary is in Boundary. -/

namespace Sys2Proof.Machine

/-! Fault signature records as bytes (R401). -/

/-- Table 14-5: the 128 bytes of a record. -/
def State.recordBytes (s : State) (r : FaultRec) : List Byte :=
  let b := leBytes 4 0x5346564B ++ leBytes 2 1 ++ leBytes 2 r.kind ++ leBytes 8 r.seq ++ leBytes 8 r.stamp.toNat
    ++ leBytes 8 r.window ++ leBytes 16 Config.serial.toNat ++ leBytes 4 s.fabric.route.moduleId.toNat
    ++ leBytes 4 r.unit ++ leBytes 4 r.place ++ leBytes 1 r.unitKind.code ++ leBytes 1 r.partition ++ leBytes 1 r.sect
    ++ leBytes 1 r.action ++ leBytes 4 r.tag.toNat ++ leBytes 2 r.layer ++ leBytes 2 r.edition ++ leBytes 1 r.marks
    ++ leBytes 1 r.replays ++ leBytes 2 r.setpointMv ++ leBytes 2 (bitsOf 16 r.temp) ++ leBytes 2 r.pace ++ leBytes 2 r.floor
    ++ leBytes 2 0 ++ leBytes 4 r.wear ++ leBytes 4 r.ageS ++ leBytes 4 s.ledger.fwSvn
    ++ bytesAt (r.data ++ List.replicate 24 0) 0 24
  b ++ leBytes 4 (crc32c b).toNat ++ leBytes 4 0

/-! Where work goes (R396 step 3). -/

/-- R398: the reserve fields that may take work, nearest to `f` first. -/
def State.reserveFields (s : State) (f : Nat) : List Nat :=
  sortBy (fun g => s.hops f g) (allFields.filter (fun g =>
    s.inReserve g && !s.plan.rebuilds.any (fun r => decide (r.2 = g))))

/-- R396 step 3: the hardware choice for the work of a core: the lowest-numbered free spare core of its field, then the core of its
number in the nearest reserve field. -/
def State.relocateChoice (s : State) (k : Nat) : Option Nat :=
  let f := k / coresPerField
  match ((List.range coresPerField).map (coreKey f)).find? (fun d => s.spareCore d && s.coreFree d) with
  | some d => some d
  | none => ((s.reserveFields f).map (fun g => coreKey g (k % coresPerField))).find? s.coreFree

/-! Rebuilding (R396 steps 4 to 6). -/

/-- The record of a unit being taken out of service. -/
def State.updUnit (s : State) (unit : Nat) (g : UnitOut → UnitOut) : State :=
  { s with plan := { s.plan with outUnits := s.plan.outUnits.map (fun u => if u.unit = unit then g u else u) } }
def State.dropUnit (s : State) (unit : Nat) : State :=
  { s with plan := { s.plan with outUnits := s.plan.outUnits.filter (fun u => u.unit ≠ unit) } }

/-- R396 step 4: hands the rows of the work of core `k` to the agents of core `d`, from their source. A forerunner edition's pool
rows come with its next reloads (R156). -/
def State.queueMoved (s : State) (unit k d : Nat) : State :=
  let c := s.core k
  let place := c.placeId.getD k
  let ed := s.rowsEdition c.edition
  if (s.edition ed).kind = .forerunner then s
  else
    let job := s.ledger.nextJob
    (List.range 16).foldl (fun (t : State) l =>
      t.queueSourced d ((t.core d).emap.getD l 0) job ed (placeEngine place l) (List.range 8192))
      (s.takeJob.updUnit unit (fun u => { u with job := job }))

/-- R396: what the agents of a core still had to program is dropped, with its refreshes. -/
def State.dropRows (s : State) (k : Nat) : State :=
  (s.updCore k (fun c => { c with engines := c.engines.mapVals (fun _ v => { v with rowsLeft := [], refresh := none }) })).dropAsks
    (fun q => decide (q.key = k))

/-- R172: the agents of a core whose edition is revoked: only refreshes go on, and what they still have to program holds no weights
(log 185). -/
def State.revokeRows (s : State) (k : Nat) : State :=
  let jobs := (s.core k).engines.vals.filterMap (fun v => (v.refresh.filter (fun r => 0 < r.phase)).map Refresh.job)
  let late := (s.plan.asks.filter (fun q => q.key = k ∧ jobs.contains q.job)).map (fun q => (q.engine, q.job, q.rows))
  (s.updCore k (fun c => { c with engines := c.engines.mapVals (fun e v => { v with
      rowsLeft := (v.rowsLeft.filter (fun x => jobs.contains x.1)).map (fun x => (x.1, x.2.1, levelEightRow))
        ++ (late.filter (fun x => x.1 = e)).flatMap (fun x => x.2.2.map (fun r => (x.2.1, r, levelEightRow)))
      refresh := v.refresh.filter (fun r => 0 < r.phase) }) })).dropAsks (fun q => decide (q.key = k))

/-- R396: moves the work of core `k` to core `d`; a hold counts its rows (R150, R155). What the agents of `k` have to program is
dropped, unless it serves on meanwhile (R171). -/
def State.moveCore (s : State) (unit k d : Nat) : State :=
  let s1 := s.updUnit unit (fun u => { u with phase := 2, dest := d, kind := .core, assist := none })
  let serves := s.plan.outUnits.any (fun u => decide (u.unit = unit) && u.serves)
  ((if serves then s1 else s1.dropRows k).queueMoved unit k d).reholdOn [k / coresPerField] true

/-- R143, R155: the work of a build on core `k` is to move to core `d`; its rows are programmed there once the relocation is in
force. -/
def State.buildMove (s : State) (ed place k : Nat) (choice : Option Nat) : State :=
  let s1 := s.dropRows k
  match choice.orElse (fun _ => s1.relocateChoice k) with
  | some d => s1.journal { kind := jkRelocation, key := place, val := d }
  | none =>
    if (s.edition ed).repairMissing then s1
    else (s1.updEdition ed (fun v => { v with repairMissing := true })).event evRegionShort (packedCore k)

/-- R398: the work of core `k` of a lost field is rebuilt on core `d`; its rows are queued at once. -/
def State.rebuildCore (s : State) (k d : Nat) : State :=
  let s1 := s.dropUnit (packedCore k)
  ({ s1 with plan := { s1.plan with outUnits := s1.plan.outUnits ++
      [{ unit := packedCore k, kind := .core, phase := 2, dest := d, editions := [(s.core k).edition] }] } } : State).moveCore
    (packedCore k) k d

/-- R398: the core of field `g` that takes the work of core `k`: the one of its placement core's number, or where that is not free, a
ledger copy's among them, the first that is, from 64 on (log 195). -/
def State.rebuildOn (s : State) (g k : Nat) : Nat :=
  let d := coreKey g (((s.core k).placeId.getD k) % coresPerField)
  (([d] ++ (([64, 65, 66, 67] ++ List.range 64).map (coreKey g))).find? s.coreFree).getD d

/-- The cores of a field on which an edition is being built. -/
def State.buildCores (s : State) (f : Nat) : List Nat :=
  ((List.range coresPerField).map (coreKey f)).filter (fun k => (s.buildWork k).isSome && decide ((s.core k).edition = 0))

/-- The cores of a field that serve placed work. -/
def State.workCores (s : State) (f : Nat) : List Nat :=
  ((List.range coresPerField).map (coreKey f)).filter (fun k => (s.core k).placeId.isSome && decide ((s.core k).edition ≠ 0))

/-- R399: the gate field is lost: service ends; the report goes out where the link still runs. -/
def State.gateLost (s : State) (data : List Byte) : State :=
  let s1 := (s.faultField gateField 0x10 0 .field data).attestsEnd
  let r := s1.mod.faults.getLastD {}
  if (s1.power gateField).converterOn then
    let s2 := s1.report opHealthReport none 0xFFFFFFFF stFault 0 0 (s1.recordBytes r)
    { s2 with mod := { s2.mod with state := .outOfService } }
  else
    [0, 1].foldl (fun (t : State) c => t.updConn c (fun v => { v with up := false, trained := false, hello := false }))
      ({ s1 with mod := { s1.mod with state := .outOfService } } : State)

/-- R398: with no reserve field left, the control nodes of the partitions with work on a lost field are asked for a relocation, in
host-assisted placement repair (log 69). -/
def State.askRelocation (s : State) (f : Nat) : State :=
  let parts := (s.workCores f).foldl (fun l k => insertNat (s.edition (s.core k).edition).partition l) []
  parts.foldl (fun (t : State) p =>
    if !t.assisted p 7 then t
    else if !t.assistRoom p then t.countPart p pcAssistLate 1
    else t.sendAssist { fn := 7, partition := p, deadline := BitVec.ofNat 64 (t.now + assistNs 7), req := f * 2 ^ 15, verdict := 2 } 0xFFFFFFFF
      (leBytes 4 (f * 2 ^ 15) ++ leBytes 8 0xFFFFFFFFFFFFFFFF)) s

/-- R398: a field is lost: its work maps core for core to the nearest reserve field and is rebuilt there; with no reserve left,
`REGION_SHORT` is raised and its editions leave service at the next boundary. The loss of the gate field ends service. -/
def State.loseField (s : State) (f : Nat) (gateData : List Byte := []) : State :=
  if (s.field f).lost ∨ !fieldExists f then s
  else
    let s1 := s.updField f (fun v => { v with lost := true })
    if f = gateField then s1.gateLost gateData
    else
      let old := s1.plan.outUnits.filter (fun u => u.dest / coresPerField = f ∧ 2 ≤ u.phase ∧ u.kind = .core)
      let work := s1.workCores f
      let built := s1.buildCores f
      if work.isEmpty ∧ old.isEmpty ∧ built.isEmpty then s1
      else match (s1.reserveFields f).head? with
        | none => (s1.event evRegionShort (f * 2 ^ 15)).askRelocation f
        | some g =>
          let s2 : State := { (((s1.updField g (fun v => { v with role := .service })).fieldCommitted g).updPower f (fun p => { p with
              grant := 0, allowNext := 0, drops := [] })) with
            plan := { s1.plan with rebuilds := s1.plan.rebuilds.map (fun r => if r.2 = f then (r.1, g) else r) ++ [(f, g)] }
            mod := { s1.mod with serviceSet := (s1.mod.serviceSet.filter (fun x => x ≠ f)) ++ [g] } }
          let s3 := old.foldl (fun (t : State) u => match unpackKey u.unit with
            | some k => t.moveCore u.unit k (t.rebuildOn g u.dest)
            | none => t) s2
          let s4 := built.foldl (fun (t : State) k => match t.buildWork k with
            | some (ed, place) => t.buildMove ed place k (some (t.rebuildOn g k))
            | none => t) s3
          work.foldl (fun (t : State) k => t.rebuildCore k (t.rebuildOn g k)) s4

/-! The test in place and the replacement (R396). -/

/-- R396 step 3: an engine whose core passes is replaced by a spare of the core; otherwise the whole core moves, to the core
chosen or by the hardware choice; where none is left the field is lost (R398). -/
def State.unitTested (s : State) (u : UnitOut) (passes : Bool) (choice : Option Nat) : State :=
  match unpackKey u.unit with
  | none => s.dropUnit u.unit
  | some k =>
    let s1 := s.updUnit u.unit (fun v => { v with assist := none })
    let e := unpackEngine u.unit
    let spare := if u.kind = .engine ∧ passes then s1.freeSpare k else none
    if (s.core k).edition = 0 ∨ (s.core k).placeId.isNone then
      match s1.buildWork k, spare with
      | none, _ => s1.dropUnit u.unit
      | some _, some p => ((s1.dropUnit u.unit).updEngine k e (fun v => { v with rowsLeft := [] })).journal
          { kind := jkCore, key := k, what := jwEmap, vals := (s.core k).emap.map (fun x => if x = e then p else x) }
      | some (ed, place), none => (s1.dropUnit u.unit).buildMove ed place k choice
    else if u.kind = .engine ∧ (((s.engine k e).refresh.map (fun r => decide (r.phase = 7))).getD false) then
      s1.updUnit u.unit (fun v => { v with phase := 3 })
    else
      match spare with
      | some p => ((((s1.updUnit u.unit (fun v => { v with phase := 2 })).dropRefresh k e).stopAgent k e).startRefresh k e p
          true).reholdOn [k / coresPerField] true
      | none => match choice.orElse (fun _ => s1.relocateChoice k) with
        | some d => s1.moveCore u.unit k d
        | none =>
          if u.serves then (s1.dropUnit u.unit).event evRegionShort (packedCore k)
          else
          let good := ((List.range 64).filter (fun c => (s.core (coreKey (k / coresPerField) c)).good)).length
          ((s1.dropUnit u.unit).faultField (k / coresPerField) 0x11 0 .field
            (leBytes 1 2 ++ leBytes 1 (s.field (k / coresPerField)).working.length ++ leBytes 1 good)).loseField
            (k / coresPerField)

/-- UNIT_TEST_DONE (R396): the in-place test of a fenced unit completes (`passes`: the core passes); the replacement is chosen
and programmed, in host-assisted placement repair after the answer or 10 s. -/
def execUnitTestDone (unit : Nat) (passes : Bool) (s : State) : Out :=
  .next (match s.plan.outUnits.find? (fun u => u.unit = unit ∧ u.phase = 1 ∧ u.assist.isNone) with
    | none => s
    | some u =>
      if !s.powered then s
      else match unpackKey unit with
        | none => s
        | some k =>
          let p := (s.edition (s.core k).edition).partition
          match s.relocateChoice k with
          | some d =>
            if s.assisted p 7 ∧ (s.core k).placeId.isSome ∧ !(u.kind = .engine ∧ passes ∧ (s.freeSpare k).isSome) then
              if s.assistRoom p then
                let id := s.alaok.nextAssist.toNat
                (s.sendAssist { fn := 7, partition := p, deadline := s.assistBy 7, req := unit, slot := d
                                verdict := passes.toNat } 0xFFFFFFFF
                  (leBytes 4 unit ++ leBytes 4 (packedCore ((s.core k).placeId.getD k)) ++ leBytes 4 (packedCore d))).updUnit
                  unit (fun v => { v with assist := some id })
              else (s.countPart p pcAssistLate 1).unitTested u passes none
            else s.unitTested u passes none
          | none => s.unitTested u passes none)

/-- Whether the agents of a core have no rows left and none of their commands stands. -/
def State.agentsDone (s : State) (k : Nat) : Bool := (s.core k).engines.vals.all (fun e => e.rowsLeft.isEmpty && !e.agentBusy)

/-- R164, R396 step 6: whether the trims of an engine's working arrays follow its last row. -/
def Engine.allTrimmed (v : Engine) : Bool := v.arrays.vals.all (fun a => a.trimmed || decide (a.state = 1 ∨ a.state = 2))

/-- R396 step 6: whether the agents and the trims of the engines that a core's map names are done. -/
def State.coreTrimmed (s : State) (k : Nat) : Bool := (s.core k).emap.all (fun e => (s.engine k e).allTrimmed)

/-- R396 step 6: stores and resident regions of core `d`, which takes over placement core `place` of an edition. -/
def State.readyCore (s : State) (d ed place : Nat) : State :=
  ((s.loadStores d ed place).fillResidents d).countResident (d / coresPerField)

/-- R396 steps 6 and 7: a replacement that is programmed gets its stores, and its map change goes to the ledger; a core that served
on (R171) is fenced first, at the next boundary. -/
def State.unitReady (s : State) (u : UnitOut) : State :=
  match unpackKey u.unit with
  | none => s
  | some k =>
    let c := s.core k
    if u.serves then s.updUnit u.unit (fun v => { v with serves := false, phase := 4 })
    else if u.kind = .engine then
      let e := unpackEngine u.unit
      match (c.engine e).refresh with
      | none => s.dropUnit u.unit
      | some r =>
        let s2 := (s.updUnit u.unit (fun v => { v with phase := 3 })).updEngine k e (fun v => { v with
          refresh := some { r with phase := 7 } })
        if r.phase = 7 then s2
        else s2.journal { kind := jkCore, key := k, what := jwEmap, vals := c.emap.map (fun x => if x = e then r.spare else x) }
    else
      let place := c.placeId.getD k
      ((s.readyCore u.dest c.edition place).updUnit u.unit (fun v => { v with phase := 3 })).journal
        { kind := jkRelocation, key := place, val := u.dest }

/-- R396: whether a unit's replacement is programmed and trimmed. -/
def State.unitProgrammed (s : State) (u : UnitOut) : Bool :=
  decide (u.phase = 2) && u.assist.isNone && (match unpackKey u.unit with
    | none => false
    | some k =>
      if u.kind = .engine then match (s.engine k (unpackEngine u.unit)).refresh with
        | none => true
        | some r => !s.asked k r.spare && (s.engine k r.spare).rowsLeft.isEmpty && !(s.engine k r.spare).agentBusy
            && (s.engine k r.spare).allTrimmed
      else s.agentsDone u.dest && s.coreTrimmed u.dest && !s.plan.asks.any (fun q => decide (q.key = u.dest)))

/-- UNIT_REPLACEMENT_DONE (R396): a replacement is programmed with its stores and trims; the map changes at a release after the
ledger commit. -/
def execUnitReplacementDone (unit : Nat) (s : State) : Out :=
  .next (match s.plan.outUnits.find? (fun u => u.unit = unit ∧ s.unitProgrammed u) with
    | none => s
    | some u => if s.powered then s.unitReady u else s)

/-- FIELD_REBUILD_DONE (R398): the work of a lost field, programmed on its reserve field, gets its stores and trims, and its
relocation goes to the ledger; the held requests resume at the release that brings it into force. -/
def execFieldRebuildDone (f : Nat) (s : State) : Out :=
  let us := s.plan.outUnits.filter (fun u => (unpackField u.unit) = f ∧ u.kind = .core ∧ u.phase = 2)
  .next (if !s.powered || !(s.plan.rebuilds.any (fun r => r.1 = f)) || us.isEmpty || !us.all s.unitProgrammed then s
    else us.foldl (fun (t : State) u => t.unitReady u) s)

end Sys2Proof.Machine
end

