-- ==== Sys2Proof/Machine/Images.lean ====
section
/-! DEFINITION. Signed images: their keys (Table 12-6), the manifest (R133), shard headers (R134, R135), the
placement image and step program (R121 to R123), the serving and pair records (R202, R388). -/

namespace Sys2Proof.Machine

/-! Image keys. -/

/-- Table 12-6: whether an image of a partition verifies: under its image key, or the owner key where that is zero. -/
def State.imageSigOk (s : State) (p : Nat) (b : List Byte) (o : Nat) : Bool :=
  let key := (s.part p).entry.imageKey.toNat
  if key = 0 then sigOk b o 2 s.ledger.owner else sigOk b o 3 key

/-! The manifest (R133). -/

/-- Table 5-2: the fields of a manifest, read from its first 144 bytes. -/
structure Manifest where
  edition    : Nat
  base       : Nat
  kind       : Nat
  golden     : Bool
  shards     : Nat
  arrayRows  : Nat
  stackBytes : Nat
deriving DecidableEq, Repr

def Manifest.ofBytes (b : List Byte) : Manifest :=
  { edition := natAt b 6 2, base := natAt b 8 2, kind := natAt b 10 1, golden := bitAt (natAt b 11 1) 0, shards := natAt b 12 4
    arrayRows := natAt b 112 8, stackBytes := natAt b 120 8 }

/-- Table 5-2: a manifest whose header breaks the layout. -/
def manifestBad (b : List Byte) : Bool :=
  let m := Manifest.ofBytes b
  decide (b.length < 144) || decide (natAt b 0 4 ≠ 0x4E4D564B) || decide (natAt b 4 2 ≠ 1)
    || decide (m.edition = 0) || decide (m.edition = 0xFFFF) || decide (2 < m.kind)
    || decide (m.shards < 2) || decide (262144 < m.shards)
    || (decide (m.kind = 1) && decide (m.base = 0)) || (decide (m.kind ≠ 1) && decide (m.base ≠ 0))

/-- R133: the bytes that a manifest's signatures cover. -/
def manifestSpan (b : List Byte) : Nat := 144 + 48 * natAt b 12 4

/-- R133: the digest of a shard, and those of the two images, in a manifest. -/
def Edition.shardDigest (e : Edition) (i : Nat) : Nat := natAt e.manifest (144 + 48 * i) 48
def Edition.stepDigest (e : Edition) : Nat := natAt e.manifest 64 48

/-! Shards (R134, R135). -/

/-- Table 5-3: a shard's header and payload. -/
def ShardRec.ofBytes (b : List Byte) : ShardRec :=
  { kind := natAt b 12 1, target := natAt b 16 4 % 2 ^ 23, firstRow := natAt b 20 2, rowCount := natAt b 22 2, stackDst := natAt b 24 8
    payload := b.drop 64 }

/-- Tables 5-3, 5-4: whether a header and its payload break their layout. -/
def shardBad (ed index : Nat) (b : List Byte) : Bool :=
  let x := ShardRec.ofBytes b
  decide (b.length < 64) || decide (natAt b 0 4 ≠ 0x4853564B) || decide (natAt b 4 2 ≠ 1) || decide (natAt b 6 2 ≠ ed)
    || decide (natAt b 8 4 ≠ index) || decide (natAt b 32 4 ≠ x.payload.length)
    || decide (x.kind = 0) || decide (5 < x.kind)
    || (decide (x.kind = 1) != decide (index = 0)) || (decide (x.kind = 2) != decide (index = 1))
    || (decide (x.kind = 3) && (decide (x.target % 8 ≠ 0) || decide (x.rowCount = 0) || decide (8192 < x.rowCount)
          || decide (8192 < x.firstRow + x.rowCount) || decide (x.payload.length ≠ 512 * x.rowCount)))
    || (decide (x.kind ≠ 3) && (decide (x.target ≠ 0) || decide (x.firstRow ≠ 0) || decide (x.rowCount ≠ 0)))
    || (decide (x.kind = 4 ∨ x.kind = 5) && decide (x.stackDst % 2048 ≠ 0))
    || (decide (x.kind ≠ 4) && decide (x.kind ≠ 5) && decide (x.stackDst ≠ 0))
    || (decide (x.kind = 4) && decide (x.payload.length % 2048 ≠ 0)) || (decide (x.kind = 5) && decide (x.payload.length % 512 ≠ 0))

/-! The placement image (R121). -/

/-- Table 4-7a: the entries of a placement image. -/
def sectionRec (b : List Byte) (o : Nat) : SectionRec :=
  { firstLayer := natAt b o 2, lastLayer := natAt b (o + 2) 2, coreCount := natAt b (o + 4) 2
    stackTier := bitAt (natAt b (o + 6) 2) 0, workStages := natAt b (o + 8) 4, fixedNs := natAt b (o + 12) 4 }
def coreRecAt (b : List Byte) (o : Nat) : CoreRec :=
  { core := (unpackKey (natAt b o 4)).getD 0, sect := natAt b (o + 4) 1, spire := bitAt (natAt b (o + 5) 1) 0
    resCount := natAt b (o + 6) 2, resFirst := natAt b (o + 8) 4, hoff0 := natAt b (o + 12) 4, hoff1 := natAt b (o + 16) 4
    hoffLen := natAt b (o + 20) 4, wrecBase := natAt b (o + 24) 4 }
def resRecAt (b : List Byte) (o : Nat) : ResRec :=
  { addr := natAt b o 4, length := natAt b (o + 4) 4, src := natAt b (o + 8) 8 % 2 ^ 48 }
def redRecAt (b : List Byte) (o : Nat) : RedRec :=
  { dest := (unpackKey (natAt b o 4)).getD 0, offset := natAt b (o + 4) 4, length := natAt b (o + 8) 4
    contributors := natAt b (o + 12) 2 }

/-- R121: the tables of a placement image. -/
def Placement.ofBytes (b : List Byte) : Placement :=
  { edition := natAt b 6 2
    sections := (List.range (natAt b 8 2)).map (fun i => sectionRec b (natAt b 16 4 + 16 * i))
    cores := (List.range (natAt b 12 4)).map (fun i => coreRecAt b (natAt b 20 4 + 32 * i))
    residents := (List.range (natAt b 28 4)).map (fun i => resRecAt b (natAt b 24 4 + 16 * i))
    reductions := (List.range (natAt b 36 4)).map (fun i => redRecAt b (natAt b 32 4 + 16 * i)) }

/-- R121: a packed placement address that names a placement core. -/
def placeOk (w : Nat) : Bool := match unpackKey w with
  | some k => decide (k % coresPerField < placeCores) && decide (w % 256 = 0)
  | none => false

/-- Whether two ranges of a list share bytes. -/
def rangesClash : List (Nat × Nat) → Bool
  | [] => false
  | r :: t => t.any (fun q => rangesMeet r.1 r.2 q.1 q.2) || rangesClash t

/-- R123: a core entry whose addresses lie outside the scratchpad, overlap, or are not aligned. -/
def Placement.coreBad (p : Placement) (c : CoreRec) : Bool :=
  let res := (p.residents.drop c.resFirst).take c.resCount
  let ranges := [(c.hoff0, c.hoffLen), (c.hoff1, c.hoffLen), (c.wrecBase, 0x2200)] ++ res.map (fun r => (r.addr, r.length))
  decide (p.sections.length ≤ c.sect) || decide (p.residents.length < c.resFirst + c.resCount)
    || decide (c.hoff0 % 256 ≠ 0) || decide (c.hoff1 % 256 ≠ 0) || decide (c.wrecBase % 256 ≠ 0)
    || ranges.any (fun r => decide (spBytes < r.1 + r.2)) || rangesClash ranges

/-- R123: a reduction entry outside its core's hand-off buffer, or outside Table 4-7a. -/
def Placement.redBad (p : Placement) (r : RedRec) : Bool :=
  decide (r.length % 4 ≠ 0) || decide (r.contributors < 2) || decide (4096 < r.contributors)
    || !(p.cores.any (fun c => decide (c.core = r.dest) && decide (r.offset + r.length ≤ c.hoffLen)))

/-- R148: the parts of a placement that a rolling edition shares with its base: its core, section and reduction entries. -/
def Placement.fixed (p : Placement) : List CoreRec × List SectionRec × List RedRec := (p.cores, p.sections, p.reductions)

/-- R121, R123: whether a placement image breaks its own layout; `b` is the image with its signature block. -/
def placementBad (ed : Nat) (b : List Byte) : Bool :=
  let n := b.length - sigBytes
  let p := Placement.ofBytes b
  decide (b.length < 64 + sigBytes) || decide (natAt b 0 4 ≠ 0x4C50564B) || decide (natAt b 4 2 ≠ 1) || decide (p.edition ≠ ed)
    || decide (natAt b 8 2 = 0) || decide (256 < natAt b 8 2) || decide (natAt b 12 4 = 0) || decide (5120 < natAt b 12 4)
    || decide (natAt b 40 4 ≠ n)
    || decide (n < natAt b 16 4 + 16 * natAt b 8 2) || decide (n < natAt b 20 4 + 32 * natAt b 12 4)
    || decide (n < natAt b 24 4 + 16 * natAt b 28 4) || decide (n < natAt b 32 4 + 16 * natAt b 36 4)
    || (List.range (natAt b 12 4)).any (fun i => !placeOk (natAt b (natAt b 20 4 + 32 * i) 4))
    || (List.range (natAt b 36 4)).any (fun i => !placeOk (natAt b (natAt b 32 4 + 16 * i) 4))
    || p.cores.any p.coreBad || p.residents.any (fun r => decide (spBytes < r.addr + r.length)) || p.reductions.any p.redBad
    || (p.cores.map CoreRec.core).eraseDups.length ≠ p.cores.length

/-! The step program (R122). -/

/-- Table 4-7b: a slice of a step program. -/
def sliceAt (b : List Byte) (o : Nat) : Slice :=
  { core := (unpackKey (natAt b o 4)).getD 0, entry := natAt b (o + 4) 4
    code := bytesAt b (natAt b (o + 8) 4) (natAt b (o + 12) 4), cs := bytesAt b (natAt b (o + 16) 4) (natAt b (o + 20) 4) }

/-- R122: the slices of a step program. -/
def slicesOf (b : List Byte) : List Slice := (List.range (natAt b 56 4)).map (fun i => sliceAt b (natAt b 60 4 + 32 * i))

/-- R123: a slice entry outside its layout or its memories; an entry at the code's end lies beyond it (log 158). -/
def sliceBad (b : List Byte) (n o : Nat) : Bool :=
  !placeOk (natAt b o 4) || decide (natAt b (o + 4) 4 % 4 ≠ 0) || decide (natAt b (o + 12) 4 ≤ natAt b (o + 4) 4)
    || decide (natAt b (o + 12) 4 % 4 ≠ 0) || decide (65536 < natAt b (o + 12) 4)
    || decide (natAt b (o + 20) 4 % 32 ≠ 0) || decide (16384 < natAt b (o + 20) 4)
    || decide (n < natAt b (o + 8) 4 + natAt b (o + 12) 4) || decide (n < natAt b (o + 16) 4 + natAt b (o + 20) 4)

/-- R122, R123: whether a step program breaks its own layout. -/
def programBad (b : List Byte) : Bool :=
  let n := b.length - sigBytes
  decide (b.length < 64 + sigBytes) || decide (natAt b 0 4 ≠ 0x5053564B) || decide (natAt b 4 2 ≠ 1)
    || decide (n < natAt b 60 4 + 32 * natAt b 56 4)
    || (List.range (natAt b 56 4)).any (fun i => sliceBad b n (natAt b 60 4 + 32 * i))

/-- R298: whether the reductions of a placement image whose destinations lie in one field cover more than its reduction store. -/
def Placement.storeOver (p : Placement) : Bool :=
  p.reductions.any (fun r => decide (262144 < ((p.reductions.filter (fun x =>
    decide (x.dest / coresPerField = r.dest / coresPerField))).map RedRec.length).sum))

/-- R123, R298: the pair checks of a placement image and a step program. -/
def pairBad (place prog : List Byte) : Bool :=
  let p := (Placement.ofBytes place).cores.map CoreRec.core
  let q := (slicesOf prog).map Slice.core
  decide (natAt place 6 2 ≠ natAt prog 6 2) || (Placement.ofBytes place).storeOver
    || decide (natAt prog 8 48 ≠ Config.sha384 (place.take (place.length - sigBytes)))
    || decide (p.length ≠ q.length) || p.any (fun c => !q.contains c) || q.any (fun c => !p.contains c)

/-! Records of the stack-tier region (R202, R388). -/

/-- Table 7-8: the serving record. -/
def servingOf (b : List Byte) : Option ServingRec :=
  let r : ServingRec :=
    { vocab := natAt b 8 4, posPerPage := natAt b 12 2, groups := natAt b 14 2, maxLen := natAt b 16 4, draftMax := natAt b 20 1
      sampleCore := (unpackKey (natAt b 24 4)).getD 0
      draftCore := if natAt b 28 4 = 0 then 0 else (unpackKey (natAt b 28 4)).getD 0 }
  if natAt b 0 4 ≠ 0x5253564B ∨ natAt b 4 2 ≠ 1 ∨ r.vocab < 2 ∨ 262144 < r.vocab ∨ r.posPerPage = 0 ∨ 4096 < r.posPerPage
      ∨ r.groups = 0 ∨ 1024 < r.groups ∨ 7 < r.draftMax ∨ 2 ^ 22 < ceilDiv r.maxLen r.posPerPage
      ∨ 2 ^ 24 < r.groups * ceilDiv r.maxLen r.posPerPage then none
  else some r

/-- Table 14-3: the pairs of a pair record, none where it is invalid; an edition that has no record has no pair. -/
def Edition.pairsOf (e : Edition) (b : List Byte) : Option (List (Nat × Nat) × Nat) :=
  if natAt b 0 4 ≠ 0x5250564B then some ([], 0)
  else
    let n := natAt b 8 4
    let l := (List.range n).map (fun i =>
      ((unpackKey (natAt b (16 + 8 * i) 4)).getD 0, (unpackKey (natAt b (20 + 8 * i) 4)).getD 0))
    let all := l.flatMap (fun x => [x.1, x.2])
    if natAt b 4 2 ≠ 1 ∨ natAt b 6 1 = 0 ∨ n = 0 ∨ 2560 < n ∨ all.eraseDups.length ≠ all.length
        ∨ l.any (fun x => match e.coreRec x.1, e.coreRec x.2 with
            | some a, some c => decide (a.sect ≠ c.sect)
            | _, _ => true)
        ∨ l.any (fun x => decide ((e.slice x.1).map Slice.code ≠ (e.slice x.2).map Slice.code)) then none
    else some (l, natAt b 6 1)

/-- R202, R388: the records of an edition's stack-tier region: serving record, pairs and tolerance. -/
def State.recordsOf (s : State) (ed : Nat) : Option (ServingRec × List (Nat × Nat) × Nat) :=
  let e := s.edition ed
  match e.regions.find? 3 with
  | none => none
  | some r =>
    let a := s.regionBytes r 0 32
    let n := Nat.min (16 + 8 * 2560) (r.size - 2048)
    let b := s.regionBytes r 2048 n
    if spPoison a then none
    else match servingOf (a.map Prod.fst), e.pairsOf (b.map Prod.fst) with
      | some v, some q => if spPoison b ∧ q.1.length ≠ 0 then none else some (v, q.1, q.2)
      | _, _ => none

/-- R202, R268 to R272: what the read of an edition's records leaves behind. -/
def State.recordsTouched (s : State) (ed : Nat) : State :=
  let e := s.edition ed
  match e.regions.find? 3 with
  | none => s
  | some r =>
    let n := Nat.min (16 + 8 * 2560) (r.size - 2048)
    (if n = 0 then s else s.regionTouched r 2048 n e.partition).regionTouched r 0 32 e.partition

end Sys2Proof.Machine
end

