-- ==== Sys2Proof/Machine/Regions.lean ====
section
/-! DEFINITION. Stack regions (R259 to R263): their extents, and the memory commands. -/

namespace Sys2Proof.Machine

/-! Extents (R261, R262, R343). -/

/-- The regions of a partition, those of its editions with them. -/
def State.partRegions (s : State) (p : Nat) : List Region :=
  (s.part p).regions.vals ++ (s.editions.vals.filter (fun e => e.partition = p ∧ e.state ≠ .free)).flatMap (fun e => e.regions.vals)

/-- The extents of a region on a stack. -/
def Region.onStack (r : Region) (k : Nat) : List Nat :=
  ((r.stackSet.zip r.extents).filter (fun (x : Nat × List Nat) => x.1 = k)).flatMap Prod.snd

/-- R343, R353: a region whose extents on a stack are taken: void, and those extents are no longer its own. -/
def Region.withdrawn (r : Region) (k : Nat) : Region :=
  { r with void := true, extents := (r.stackSet.zip r.extents).map (fun e => if e.1 = k then [] else e.2) }

/-- R261: extents that a region of `size` bytes over `n` stacks needs on each. -/
def extentNeed (n size : Nat) : Nat := if n = 0 then 0 else ceilDiv (ceilDiv size (cbBytes * n)) cbPerExtent

/-- R261, R343, R353: the extents of a stack that a partition may take: its own that no region uses, then those that no partition
holds, lowest first. -/
def Stack.freeExtents (t : Stack) (p : Nat) : List Nat :=
  let free := (List.range 768).filter (fun x => !t.used.contains x && !t.clearing.contains x)
  free.filter (fun x => t.owner.find? x = some p) ++ free.filter (fun x => t.owner.find? x = none)

/-- R262: extents short on each of the 24 stacks for a region over a stack set. -/
def State.extentShort (s : State) (p : Nat) (stackSet : List Nat) (size : Nat) : List Nat :=
  (List.range stackCount).map (fun k =>
    if stackSet.contains k then
      let used := ((s.partRegions p).map (fun r => (r.onStack k).length)).sum
      let allot := (((s.part p).entry.extents.toList).getD k 0).toNat - used
      extentNeed stackSet.length size - Nat.min allot ((s.stack k).freeExtents p).length
    else 0)

/-- R261, R343: makes a region of a partition: its extents are taken from the free ones. -/
def State.makeRegion (s : State) (p : Nat) (stackSet : List Nat) (size : Nat) : State × Region :=
  let n := extentNeed stackSet.length size
  let ext := stackSet.map (fun k => ((s.stack k).freeExtents p).take n)
  ((stackSet.zip ext).foldl (fun (t : State) (x : Nat × List Nat) =>
      t.updStack x.1 (fun v => { v with
        used := x.2.foldl (fun l e => insertNat e l) v.used, owner := x.2.foldl (fun m e => m.put e p) v.owner })) s,
   { stackSet := stackSet, size := size, extents := ext, madeIn := s.plan.window })

/-- R343, R353: the extents of a region return to its partition, those aside that have been taken from it. -/
def State.giveRegion (s : State) (p : Nat) (r : Region) : State :=
  (r.stackSet.zip r.extents).foldl (fun (t : State) (x : Nat × List Nat) =>
    t.updStack x.1 (fun v => { v with used := v.used.filter (fun e => !x.2.contains e || v.owner.find? e ≠ some p) })) s

/-- R262: whether an edition not in FREE, a request not in FREE, a registered grammar or steering set, or an open build uses a
region of a partition; one whose fill is under way counts as used (log 117). -/
def State.regionUsed (s : State) (p sel : Nat) : Bool :=
  let v := s.part p
  let reqs := s.reqs.vals.filter (fun r => r.state ≠ .free ∧ r.partition = p)
  let eds := s.editions.vals.filter (fun e => e.partition = p ∧ e.state ≠ .free)
  (decide (sel = 0) && (!reqs.isEmpty || !v.grammars.entries.isEmpty))
  || (decide (sel = 1) && (!v.steers.entries.isEmpty || reqs.any (fun r => decide (r.desc.steer ≠ 0xFFFFFFFF))))
  || (decide (sel = 2) && reqs.any (fun r => !r.pages.isEmpty))
  || eds.any (fun e =>
      (decide (e.staging = sel) && decide (e.state = .building ∨ e.state = .verifying ∨ e.state = .staged))
      || ((e.placement.map Placement.residents).getD []).any (fun r => decide (stackSel r.src = sel)))
  || (match v.regions.find? sel with
      | some r => r.filling.isSome
      | none => false)

/-- Table 9-3: the selectors that the memory commands create. -/
def madeSelector (sel : Nat) : Bool := decide (sel < 3) || (decide (5 ≤ sel) && decide (sel < 16))

/-- The stacks of a set, ascending. -/
def setStacks (w : Nat) : List Nat := (List.range stackCount).filter (fun k => bitAt w k)

/-- MM_CREATE (R261, R262, R332): create a region; one that its selector names already is resized. -/
def execMmCreate (h : Hdr) (sel : BitVec 8) (fill : Bool) (stackSet : BitVec 24) (size : U64) (s : State) : Out :=
  .next (s.command h rowMmCreate (h.length = 16) (fun s =>
    let p := h.partition.toNat
    let l := setStacks stackSet.toNat
    if !madeSelector sel.toNat ∨ l.isEmpty ∨ size = 0 ∨ size.toNat % (cbBytes * l.length) ≠ 0 then .refuse stBadParam 0 []
    else if s.regionUsed p sel.toNat then .refuse stBusy 0 []
    else
      let s1 := match (s.part p).regions.find? sel.toNat with
        | some r => (s.giveRegion p r).updPart p (fun v => { v with regions := v.regions.erase sel.toNat })
        | none => s
      let short := s1.extentShort p l size.toNat
      if short.any (fun n => decide (n ≠ 0)) then
        .refuse stRefusedCapacity 0 (short.map (fun n => BitVec.ofNat 8 (Nat.min n 255)))
      else
        let q := s1.makeRegion p l size.toNat
        let r : Region := { q.2 with
          filling := if fill then some (h.conn, h.cmdTag) else none
          fillAt := ((s1.fillsOpen.map Region.fillAt).foldl Nat.max 0) + 1 }
        let s2 := q.1.updPart p (fun v => { v with regions := v.regions.put sel.toNat r })
        .run (if fill then s2.interim h stAccepted else s2.ok h stOk 0 (stackSetBytes l))))

/-- MM_DELETE (R262): delete a region. -/
def execMmDelete (h : Hdr) (sel : BitVec 8) (s : State) : Out :=
  .next (s.command h rowMmDelete true (fun s =>
    let p := h.partition.toNat
    if !madeSelector sel.toNat then .refuse stBadParam 0 []
    else match (s.part p).regions.find? sel.toNat with
      | none => .refuse stNoSuch 0 []
      | some r =>
        if s.regionUsed p sel.toNat then .refuse stBusy 0 []
        else .run (((s.giveRegion p r).updPart p (fun v => { v with regions := v.regions.erase sel.toNat })).ok h)))

/-- R263: the stack sets that MM_INFO returns: selector, edition (0 for a region of the partition) and set of each region. -/
def State.regionSets (s : State) (p : Nat) : List Nat :=
  let row := fun (ed : Nat) (r : Nat × Region) => [r.1, ed, (r.2.stackSet.map (fun k => 2 ^ k)).sum]
  (s.part p).regions.entries.flatMap (row 0)
    ++ (s.editions.entries.filter (fun (x : Nat × Edition) => x.2.partition = p ∧ x.2.state ≠ .free)).flatMap (fun x =>
        x.2.regions.entries.flatMap (row x.1))

/-- MM_INFO (R263): the stack set of each region, and the distance table. -/
def execMmInfo (h : Hdr) (s : State) : Out :=
  .next (s.command h rowMmInfo true (fun s =>
    .run (s.ok h stOk 0 (Config.layout rowMmInfo.op (s.regionSets h.partition.toNat) ++ s.distanceTable))))

/-- R260: the region that a memory command names; one made in this window, or whose extents were taken away, is not there. -/
def State.namedRegion (s : State) (p ed addr : Nat) : Option Region :=
  match s.regionOf p (stackSel addr) ed with
  | some r => if r.void then none else some r
  | none => none

/-- MM_WRITE (R264, R214, R218): write whole codeblocks into a region. -/
def execMmWrite (h : Hdr) (edition : BitVec 16) (addr : U64) (bytes : List Byte) (s : State) : Out :=
  .next (s.command h rowMmWrite true (fun s =>
    let p := h.partition.toNat
    let o := stackOff addr.toNat
    match s.namedRegion p edition.toNat addr.toNat with
    | none => .refuse stNoSuch 0 []
    | some r =>
      if o % cbBytes ≠ 0 ∨ bytes.length % cbBytes ≠ 0 ∨ bytes.isEmpty ∨ r.size < o + bytes.length then .refuse stBadParam 0 []
      else if s.plan.released ∧ r.madeIn = s.plan.window then .refuse stBadState 0 []
      else if s.writeGuarded p (stackSel addr.toNat) o bytes.length then .refuse stBusy 0 []
      else .run ((s.regionWrite r o (cleanBytes bytes) p).ok h)))

/-- MM_READ (R264, R321): read bytes from a region, as many as a reply holds; poisoned bytes are not given (R273). -/
def execMmRead (h : Hdr) (edition : BitVec 16) (addr : U64) (length : Nat) (s : State) : Out :=
  .next (s.command h rowMmRead true (fun s =>
    let p := h.partition.toNat
    let o := stackOff addr.toNat
    match s.namedRegion p edition.toNat addr.toNat with
    | none => .refuse stNoSuch 0 []
    | some r =>
      if length = 0 ∨ maxBody < length ∨ r.size < o + length then .refuse stBadParam 0 []
      else if s.plan.released ∧ r.madeIn = s.plan.window then .refuse stBadState 0 []
      else
        let b := s.regionBytes r o length
        let s1 := s.regionTouched r o length p
        .run (if spPoison b then s1.ok h stPoisoned else s1.ok h stOk 0 (b.map Prod.fst))))

/-- MM_MARK_INIT (R276): mark a region initialised. -/
def execMmMarkInit (h : Hdr) (sel : BitVec 8) (s : State) : Out :=
  .next (s.command h rowMmMarkInit true (fun s =>
    let p := h.partition.toNat
    if !madeSelector sel.toNat then .refuse stBadParam 0 []
    else match (s.part p).regions.find? sel.toNat with
      | none => .refuse stNoSuch 0 []
      | some r =>
        if r.void then .refuse stNoSuch 0 []
        else .run ((s.updPart p (fun v => { v with regions := v.regions.put sel.toNat { r with inited := true } })).ok h)))

end Sys2Proof.Machine
end

