-- ==== Sys2Proof/Machine/Intake.lean ====
section
/-! DEFINITION. Builds and shards (R130 to R141, R170): opening an edition, the intake of shards, staging, and the end of an
edition (R437). -/

namespace Sys2Proof.Machine

/-! The end of an edition. -/

/-- A final reply owed, where one is. -/
def State.finishOwed (s : State) (o : Option (Nat × Word)) (status detail : Nat) : State :=
  match o with
  | some (c, t) => s.finish c t status detail
  | none => s

/-- R331: the result of an intake for the packet that completed the shard; the index is in `detail` where it fits. -/
def State.shardReply (s : State) (cmd : Option (Nat × Word)) (index status : Nat) : State :=
  s.finishOwed cmd status (if index < 65536 then index else 0)

/-- Table 10-10: the result of a shard's intake on a multicast's target. -/
def shardResult (status : Nat) : Nat := if status = stOk then 0 else 2

/-- R305, R331: the result of a shard that waited, for the packet or the multicast that brought it. -/
def State.heldReply (s : State) (x : ShardRec) (index status : Nat) : State :=
  let s1 := s.shardReply x.held index status
  match x.via with
  | some (job, origin, seq) => s1.mcastOwn job origin seq (shardResult status)
  | none => s1

/-- Table 5-1: an edition becomes FREE: its cores, staging and regions are released, and the rows still with the agents are
dropped. -/
def State.freeEdition (s : State) (ed : Nat) : State :=
  let e := s.edition ed
  let s1 := (e.regions.vals.foldl (fun (t : State) r => t.giveRegion e.partition r) s).dropAsks (fun q => decide (q.edition = ed))
  let s2 : State := { s1 with
    cores := s1.cores.mapVals (fun _ c =>
      let c1 := { c with engines := c.engines.mapVals (fun _ v =>
        { v with rowsLeft := if e.job = 0 then v.rowsLeft else v.rowsLeft.filter (fun r => r.1 ≠ e.job) }) }
      if c.edition = ed then { c1 with edition := 0, placeId := none, entry := {}, residents := [] } else c1)
    editions := s1.editions.erase ed }
  (s.edFields ed).foldl (fun (t : State) f => t.countResident f) s2

/-- R437: a request pinned to an edition that ends: abandoned with its replays; a final entry, and RETIRED. -/
def State.goneReq (s : State) (i : Nat) : State := (s.dropSlots i).endRequest i stEditionGone

/-- R146: cancels a switch that is pending to an edition. -/
def State.cancelSwitch (s : State) (ed status : Nat) : State :=
  let p := (s.edition ed).partition
  match (s.part p).switch with
  | some w => if w.edition = ed then
      let s1 := (s.updPart p (fun v => { v with switch := none })).finish w.conn w.cmdTag status
      if w.rolling then (s1.updEdition ed (fun v => { v with rolling := none })).updEdition (s.edition ed).base (fun v => { v with noPinned := false })
      else s1
    else s
  | none => s

/-- R437: an edition ends by `WT_ABORT` or a revocation, with the status of the replies owed for it. -/
def State.endEdition (s : State) (ed status : Nat) : State :=
  let s1 := s.cancelSwitch ed status
  let base := (s.edition ed).base
  let s2 := if (s.edition ed).kind = .rolling ∧ (s1.editions.has base) then
      s1.updEdition base (fun v => { v with noPinned := false }) else s1
  let pinned := (s2.reqs.entries.filter (fun (r : Nat × Req) =>
    r.2.edition = ed ∧ !r.2.follow ∧ r.2.state ≠ .free ∧ r.2.state ≠ .retired)).map Prod.fst
  let s3 := pinned.foldl (fun (t : State) i => t.goneReq i) s2
  let e := s3.edition ed
  let s4 := e.held.entries.foldl (fun (t : State) x => t.heldReply x.2 x.1 status) s3
  ((s4.finishOwed e.closeCmd status 0).finishOwed e.openCmd status 0).freeEdition ed

/-! Opening (R131, R133, R139, R174, R330). -/

/-- The stacks on which a partition's entry grants extents. -/
def State.grantedStacks (s : State) (p : Nat) : List Nat :=
  (List.range stackCount).filter (fun k => decide ((((s.part p).entry.extents.toList).getD k 0) ≠ 0))

/-- R262: the size of a region of the module for `n` bytes over `k` stacks. -/
def moduleRegionSize (n k : Nat) : Nat := if k = 0 then 0 else roundUp n (cbBytes * k)

/-- R260, R262: makes the regions of selectors 3 and 4 of a build, or tells the extents short. -/
def State.reserveRegions (s : State) (p : Nat) (m : Manifest) : State × Map Region × List Nat :=
  let l := s.grantedStacks p
  let a := moduleRegionSize m.stackBytes l.length
  let short := s.extentShort p l a
  if l.isEmpty ∨ short.any (fun n => decide (n ≠ 0)) then (s, .empty, short.map (fun n => Nat.max n (if l.isEmpty then 1 else 0)))
  else
    let q := s.makeRegion p l a
    if m.golden ∧ m.kind ≠ 2 then
      let b := moduleRegionSize (m.arrayRows * 512) l.length
      let need := extentNeed l.length a
      let s1 := q.1
      let short2 := (s1.extentShort p l b).zip ((List.range stackCount).map (fun k => if l.contains k then need else 0))
      let allot := (List.range stackCount).map (fun k =>
        (((s.part p).entry.extents.toList).getD k 0).toNat - ((s.partRegions p).map (fun r => (r.onStack k).length)).sum)
      let miss := (List.range stackCount).map (fun k => if l.contains k then
        Nat.max ((short2.getD k (0, 0)).1) (need + extentNeed l.length b - allot.getD k 0) else 0)
      if miss.any (fun n => decide (n ≠ 0)) then (s, .empty, miss)
      else
        let w := s1.makeRegion p l b
        (w.1, (Map.empty.put 3 q.2).put 4 w.2, [])
    else (q.1, Map.empty.put 3 q.2, [])

/-- R330: what stands against a whole manifest: status and body. -/
def State.manifestFault (s : State) (p staging : Nat) (man : List Byte) : Option (Nat × List Byte) :=
  let m := Manifest.ofBytes man
  if man.length ≠ manifestSpan man + sigBytes then some (stBadParam, [])
  else if !s.imageSigOk p man (manifestSpan man) then some (stBadSignature, [])
  else if m.kind = 1 ∧ ((s.edition m.base).partition ≠ p ∨ (s.edition m.base).state = .free) then some (stNoSuch, [])
  else if m.kind = 1 ∧ m.golden ∧ !(s.edition m.base).golden then some (stBadParam, [])
  else if m.kind = 1 ∧ (((s.part p).regions.find? staging).map Region.size).getD 0 < m.arrayRows * 512 then
    some (stRefusedCapacity, [])
  else
    let q := s.reserveRegions p m
    if q.2.2.isEmpty then none else some (stRefusedCapacity, q.2.2.map (fun n => BitVec.ofNat 8 (Nat.min n 255)))

/-- Table 5-1: FREE to BUILDING with a manifest that verifies. -/
def State.openEdition (s : State) (p staging : Nat) (man : List Byte) : State :=
  let m := Manifest.ofBytes man
  let q := s.reserveRegions p m
  let job := q.1.ledger.nextJob
  let e : Edition :=
    { partition := p, state := .building, kind := if m.kind = 0 then .shadow else if m.kind = 1 then .rolling else .forerunner
      job := job, base := m.base, golden := m.golden && decide (m.kind ≠ 2), manLen := man.length, manifest := man
      manDone := true, shardCount := m.shards, arrayRows := m.arrayRows, stackBytes := m.stackBytes, staging := staging
      regions := q.2.1 }
  q.1.takeJob.updEdition m.edition (fun _ => e)

/-- The editions that are not FREE, of a partition and of the module. -/
def State.heldEditions (s : State) (p : Nat) : Nat × Nat :=
  let l := s.editions.vals.filter (fun e => e.state ≠ .free)
  ((l.filter (fun e => e.partition = p)).length, l.length)

/-- WT_OPEN (R131, R132, R330): open a build; a manifest whose bytes continue in shard fragments is verified with the last. A packet that
carries less than the manifest's fixed head is refused (log 156). -/
def execWtOpen (h : Hdr) (staging manLen : Nat) (bytes : List Byte) (s : State) : Out :=
  .next (s.command h rowWtOpen (h.length = 8 + bytes.length ∧ bytes.length ≤ manLen) (fun s =>
    let p := h.partition.toNat
    let m := Manifest.ofBytes bytes
    let n := s.heldEditions p
    match (s.part p).regions.find? staging with
      | none => .refuse stNoSuch 0 []
      | some r =>
        if r.void then .refuse stNoSuch 0 []
        else if staging < 5 ∨ 15 < staging ∨ manifestBad bytes ∨ manLen ≠ manifestSpan bytes + sigBytes then .refuse stBadParam 0 []
        else if (s.edition m.edition).state ≠ .free
            ∨ s.editions.vals.any (fun e => decide (e.partition = p) && decide (e.state = .building)) then .refuse stBadState 0 []
        else if 4 ≤ n.1 ∨ 16 ≤ n.2 then .refuse stRefusedCapacity 0 []
        else if bytes.length = manLen then
          match s.manifestFault p staging bytes with
          | some (st, b) => .refuse st 0 b
          | none => .run ((s.openEdition p staging bytes).ok h)
        else .run ((s.updEdition m.edition (fun _ =>
          { partition := p, state := .building, manLen := manLen, staging := staging, openCmd := some (h.conn, h.cmdTag)
            parts := Map.empty.put 0xFFFFFFFF { length := manLen, frags := [(0, bytes)] } })).interim h stAccepted))
    (let m := Manifest.ofBytes bytes; if m.kind = 1 ∨ m.golden then 0x0400 else 0))

/-! Staging (R136 to R141). -/

/-- R137: a shard is discarded and counted. -/
def State.shardDropped (s : State) (ed status : Nat) : State × Nat :=
  (s.countPart (s.edition ed).partition pcShardDiscards 1, status)

/-- R174: the golden copy of an edition from its staged array-row shards, in shard order; for a rolling build followed by the
base edition's rows that it does not replace, as far as the region holds them. -/
def State.goldenCopy (s : State) (ed : Nat) (withBase : Bool) : State :=
  let e := s.edition ed
  match e.golden, e.regions.find? 4 with
  | true, some r =>
    let own := e.staged.vals.filter (fun x => x.kind = 3)
    let data := (own.flatMap ShardRec.payload).map (fun b => (b ^^^ 0x88, false))
    let runs := own.map (fun x => (x.target, x.firstRow, x.rowCount))
    let b := s.edition e.base
    let more := if withBase then (b.goldenRuns.flatMap (fun (t : Nat × Nat × Nat) =>
        (List.range t.2.2).map (fun i => (t.1, t.2.1 + i)))).filter (fun (t : Nat × Nat) => !own.any (fun x => x.holds t.1 t.2))
      else []
    let kept := more.take ((r.size - data.length) / 512)
    let old := kept.flatMap (fun t => ((s.goldenRow e.base t.1 t.2).getD []).map (fun b => (b.1 ^^^ 0x88, b.2)))
    let all := data ++ old
    let pad := List.replicate (roundUp all.length cbBytes - all.length) ((0 : Byte), false)
    (if all.isEmpty then s else s.regionWrite r 0 (all ++ pad) e.partition).updEdition ed (fun v => { v with
      goldenRuns := runs ++ kept.map (fun t => (t.1, t.2, 1)) })
  | _, _ => s

/-- R139 to R141: what staging a shard does: its place in the edition, its rows handed to the agents of a shadow build, the
golden copy, its bytes in the stack-tier region. -/
def State.stageShard (s : State) (ed index : Nat) (x : ShardRec) : State :=
  let s1 := s.updEdition ed (fun v => { v with staged := v.staged.put index { x with held := none, via := none }, held := v.held.erase index })
  let e := s1.edition ed
  if x.kind = 1 then s1.updEdition ed (fun v => { v with placement := some (Placement.ofBytes x.payload) })
  else if x.kind = 2 then s1.updEdition ed (fun v => { v with slices := slicesOf x.payload })
  else if x.kind = 3 then
    let s2 := if e.kind = .shadow then
        let k := s1.physOf ((unpackKey x.target).getD 0)
        s1.queueRows k (((s1.core k).emap).getD (unpackEngine x.target) 0) e.job ((List.range x.rowCount).map (fun i =>
          (x.firstRow + i, bytesAt x.payload (512 * i) 512)))
      else s1
    s2.goldenCopy ed false
  else match e.regions.find? 3 with
    | some r => s1.regionWrite r x.stackDst (cleanBytes x.payload) e.partition
    | none => s1

/-- R136 checks 4 and 5 of kinds 0x03 to 0x05, and what follows; `b` is the shard with its header. -/
def State.shardLate (s : State) (ed index : Nat) (b : List Byte) : State × Nat :=
  let e := s.edition ed
  let x := ShardRec.ofBytes b
  if shardBad ed index b then s.shardDropped ed stBadParam
  else if x.kind = 3 ∧ !(e.places.contains ((unpackKey x.target).getD 0) && (unpackKey x.target).isSome
      && decide (unpackEngine x.target < 16)) then s.shardDropped ed stBadParam
  else if x.kind ≠ 3 ∧ ((e.regions.find? 3).map Region.size).getD 0 < x.stackDst + x.payload.length then
    s.shardDropped ed stBadParam
  else (s.stageShard ed index x, stOk)

/-- R136: the shards that waited for shard 0 are checked in full. -/
def State.checkHeld (s : State) (ed : Nat) : State :=
  ((s.edition ed).held.entries.filter (fun (x : Nat × ShardRec) => 2 ≤ x.1)).foldl (fun (t : State) x =>
    let r := (t.updEdition ed (fun v => { v with held := v.held.erase x.1 })).shardLate ed x.1 x.2.payload
    r.1.heldReply x.2 x.1 r.2) s

/-- R121, R131, R341, R148: what stands against the core entries of a placement image in its partition. -/
def State.placementDenied (s : State) (ed : Nat) (q : Placement) : Bool :=
  let e := s.edition ed
  let others := s.editions.entries.filter (fun (x : Nat × Edition) => x.1 ≠ ed ∧ x.2.partition = e.partition ∧ x.2.state ≠ .free
    ∧ !(e.kind = .rolling ∧ x.1 = e.base))
  q.cores.any (fun c => decide (s.ownerOf c.core ≠ e.partition))
    || q.cores.any (fun c => others.any (fun x => x.2.places.contains c.core))
    || (decide (e.kind = .rolling) && decide (((s.edition e.base).placement.map Placement.fixed) ≠ some q.fixed))
    || q.residents.any (fun r => if stackSel r.src = 3 then decide (e.stackBytes < stackOff r.src + r.length)
        else (s.resolve e.partition ed r.src r.length).isNone)

/-- R136 check 4 of shards 0 and 1 on their own: status of the failure. -/
def State.imageFault (s : State) (ed index : Nat) (b : List Byte) : Option Nat :=
  let e := s.edition ed
  let n := b.length - sigBytes
  if !s.imageSigOk e.partition b n then some stBadSignature
  else if Config.sha384 (b.take n) ≠ (if index = 0 then e.digest else e.stepDigest) then some stBadSignature
  else if index = 0 then
    if placementBad ed b ∨ s.placementDenied ed (Placement.ofBytes b) then some stBadImage else none
  else if programBad b then some stBadImage else none

/-- R136, R137: the intake of a complete shard (header and payload) of an edition in BUILDING: the result for the packet or the
multicast that brought it, none while its checks wait. -/
def State.intake (s : State) (ed index : Nat) (b : List Byte) (cmd : Option (Nat × Word)) (via : Option (Nat × Nat × Nat) := none) :
    State × Option Nat :=
  let e := s.edition ed
  let drop (st : Nat) : State × Option Nat := ((s.shardDropped ed st).1, some st)
  if e.shardCount ≤ index then drop stBadParam
  else if Config.sha384 b ≠ e.shardDigest index then drop stBadSignature
  else if e.staged.has index ∨ e.held.has index then drop stOk
  else if index < 2 then
    if shardBad ed index b then drop stBadParam
    else match s.imageFault ed index (b.drop 64) with
      | some st => drop st
      | none => match e.held.find? (1 - index) with
        | none => (s.updEdition ed (fun v => { v with held := v.held.put index { (ShardRec.ofBytes b) with held := cmd, via := via } }), none)
        | some o =>
          let place := if index = 0 then b.drop 64 else o.payload
          let prog := if index = 0 then o.payload else b.drop 64
          if pairBad place prog then
            let s1 := ((drop stBadImage).1.countPart e.partition pcShardDiscards 1).updEdition ed (fun v => { v with
              held := v.held.erase (1 - index) })
            (s1.heldReply o (1 - index) stBadImage, some stBadImage)
          else
            let s1 := (s.stageShard ed index (ShardRec.ofBytes b)).stageShard ed (1 - index) o
            ((s1.heldReply o (1 - index) stOk).checkHeld ed, some stOk)
  else if (ShardRec.ofBytes b).kind < 3 ∨ 5 < (ShardRec.ofBytes b).kind then drop stBadParam
  else if e.placement.isNone then
    (s.updEdition ed (fun v => { v with held := v.held.put index { payload := b, held := cmd, via := via } }), none)
  else
    let r := s.shardLate ed index b
    (r.1, some r.2)

/-! Shards for a refresh or a repair (R170). -/

/-- R170: the rows that a shard of an edition would bring: those asked for, by an assist that is outstanding, with the shard named. -/
def State.shardAsks (s : State) (ed index target : Nat) : List RowAsk :=
  s.plan.asks.filter (fun q => q.edition = ed ∧ q.target = target ∧ q.assist.isSome ∧ q.wanted.contains index)

/-- R331: whether an edition is the subject of an outstanding refresh or repair assist. -/
def State.shardsAwaited (s : State) (ed : Nat) : Bool :=
  decide ((s.edition ed).state = .current ∨ (s.edition ed).state = .retained ∨ (s.edition ed).state = .retiring)
    && s.plan.asks.any (fun q => decide (q.edition = ed) && q.assist.isSome)

/-- R170: the rows of a shard that were asked for. -/
def RowAsk.rowsIn (q : RowAsk) (x : ShardRec) : List (Nat × List Byte) :=
  ((List.range x.rowCount).map (fun i => (x.firstRow + i, bytesAt x.payload (512 * i) 512))).filter (fun r => q.rows.contains r.1)

/-- R170: a shard that fails is asked for again in a new assist. -/
def State.askAgain (s : State) (ed index : Nat) : State :=
  (s.plan.asks.filter (fun q => q.edition = ed ∧ q.assist.isSome ∧ q.wanted.contains index)).foldl (fun (t : State) q =>
    (t.dropAsks (fun x => decide (x = q))).askRows { q with wanted := q.wanted.filter (fun i => !q.got.contains i), got := [] }) s

/-- R170: a shard that was asked for comes: its rows go to the agent, and the last one ends the assist. -/
def State.rowsCome (s : State) (q : RowAsk) (index : Nat) (x : ShardRec) : State :=
  let got := insertNat index q.got
  let s1 := s.dropAsks (fun y => decide (y = q) && q.wanted.all (fun i => got.contains i))
  let s2 : State := { s1 with plan := { s1.plan with asks := s1.plan.asks.map (fun y => if y = q then { y with got := got } else y) } }
  (s2.queueRows q.key q.engine q.job (q.rowsIn x)).refreshRowsDone q.key q.engine

/-- R170: a complete shard that answers a refresh or repair assist: its rows go where they were asked for. -/
def State.repairShard (s : State) (ed index : Nat) (b : List Byte) : State × Nat :=
  let e := s.edition ed
  let x := ShardRec.ofBytes b
  let drop (st : Nat) : State × Nat :=
    let q := s.shardDropped ed st
    (q.1.askAgain ed index, st)
  if e.shardCount ≤ index then drop stBadParam
  else if Config.sha384 b ≠ e.shardDigest index then drop stBadSignature
  else if shardBad ed index b ∨ x.kind ≠ 3 then drop stBadParam
  else match s.shardAsks ed index x.target with
    | [] => drop stBadParam
    | l => (l.foldl (fun (t : State) q => t.rowsCome q index x) s, stOk)

/-! Fragments (R331). -/

/-- R331: whether a fragment overlaps bytes already received. -/
def PartShard.overlaps (x : PartShard) (o n : Nat) : Bool := x.frags.any (fun f => decide (f.1 < o + n) && decide (o < f.1 + f.2.length))

/-- The bytes of a shard whose fragments are all in. -/
def PartShard.whole (x : PartShard) : Option (List Byte) :=
  if (x.frags.map (fun (f : Nat × List Byte) => f.2.length)).sum = x.length then
    some ((sortBy (fun (f : Nat × List Byte) => f.1) x.frags).flatMap Prod.snd)
  else none

/-- R139: whether a shard of a build occupies staging space: it is held, or rows of it are still to be programmed. -/
def State.shardWaits (s : State) (ed i : Nat) : Bool :=
  let e := s.edition ed
  e.held.has i || match e.staged.find? i with
    | some x => decide (x.kind = 3) && (decide (e.kind = .rolling ∧ (e.state = .building ∨ e.state = .verifying ∨ e.state = .staged)) ||
        (let t := s.engineOfTarget x.target
         (s.engine t.1 t.2).rowsLeft.any (fun r => decide (r.1 = e.job) && decide (x.firstRow ≤ r.2.1)
           && decide (r.2.1 < x.firstRow + x.rowCount))))
    | none => false

/-- R139, R331: what of a staging region is in use, (offset, bytes): the shards of every edition that names it, partly received ones
included (log 144). -/
def State.stagingUsed (s : State) (p staging : Nat) : List (Nat × Nat) :=
  s.editions.entries.flatMap (fun (x : Nat × Edition) =>
    if x.2.partition = p ∧ x.2.staging = staging then
      (((x.2.stagedAt.entries.filter (fun y => s.shardWaits x.1 y.1)).map Prod.snd)
        ++ x.2.parts.vals.map (fun y => (y.place, y.length))).map (fun y => (y.1, roundUp y.2 cbBytes))
    else [])

/-- R139: the first offset of a region of `size` bytes at which `n` bytes overlap none of some runs (offset, bytes). -/
def firstFit (size n : Nat) (used : List (Nat × Nat)) : Option Nat :=
  leastBy id ((0 :: used.map (fun u => u.1 + u.2)).filter (fun o =>
    decide (o + n ≤ size) && used.all (fun u => decide (o + n ≤ u.1) || decide (u.1 + u.2 ≤ o))))

/-- R139: the place in its staging region of the next `n` bytes of a build; none where the region is full. -/
def State.stagingPlace (s : State) (ed n : Nat) : Option Nat :=
  let e := s.edition ed
  (((s.part e.partition).regions.find? e.staging).bind (fun r => firstFit r.size (roundUp n cbBytes) (s.stagingUsed e.partition e.staging)))

/-- R139, R264: a shard that was taken in lies at its place in the staging region, in whole codeblocks (log 144), while it occupies
staging space. -/
def State.mirrorShard (s : State) (ed i place : Nat) (b : List Byte) : State :=
  let e := s.edition ed
  match s.shardWaits ed i && !e.stagedAt.has i, (s.part e.partition).regions.find? e.staging with
  | true, some r => (s.regionWrite r place (cleanBytes b ++ List.replicate (roundUp b.length cbBytes - b.length) (0, false)) e.partition).updEdition ed (fun v => { v with stagedAt := v.stagedAt.put i (place, b.length) })
  | _, _ => s

/-- R273, R277: staged shards that count as missing again: they leave the build, and so do their rows not yet programmed. -/
def State.unstage (s : State) (ed : Nat) (gone : List Nat) : State :=
  gone.foldl (fun (t : State) i =>
    match (t.edition ed).staged.find? i with
    | none => t
    | some x =>
      let at' := t.engineOfTarget x.target
      let job := (t.edition ed).job
      ((if x.kind = 3 ∧ (t.edition ed).kind = .shadow then t.updEngine at'.1 at'.2 (fun v => { v with
          rowsLeft := v.rowsLeft.filter (fun r => !(decide (r.1 = job) && decide (x.firstRow ≤ r.2.1)
            && decide (r.2.1 < x.firstRow + x.rowCount))) }) else t).updEdition ed (fun v => { v with
        staged := v.staged.erase i, stagedAt := v.stagedAt.erase i }))) s

/-- R273: the staged shards of a build whose bytes in the staging region read poisoned. -/
def State.stagedPoison (s : State) (ed : Nat) : List Nat :=
  let e := s.edition ed
  match (s.part e.partition).regions.find? e.staging with
  | none => []
  | some r => (e.stagedAt.entries.filter (fun x => s.shardWaits ed x.1 && e.staged.has x.1
      && spPoison (s.regionBytes r x.2.1 x.2.2))).map Prod.fst

/-- R277: the staged shards of a build that occupy staging space. -/
def State.stagedWaiting (s : State) (ed : Nat) : List Nat :=
  (s.edition ed).staged.keys.filter (fun i => s.shardWaits ed i)

/-- R330, R331: a manifest is complete: verified, and the build opens, or its `WT_OPEN` is refused. -/
def State.manifestDone (s : State) (ed : Nat) (man : List Byte) : State × Nat :=
  let e := s.edition ed
  let bad := if (Manifest.ofBytes man).edition ≠ ed then some (stBadParam, []) else s.manifestFault e.partition e.staging man
  match bad with
  | some (st, b) =>
    let s1 : State := { s with editions := s.editions.erase ed }
    (match e.openCmd with
      | some (c, t) => s1.finish c t st 0 none b
      | none => s1, st)
  | none => ((s.openEdition e.partition e.staging man).finishOwed e.openCmd stOk 0, stOk)

/-- R136, R273, R331: a fragment of a shard completes it: the intake, and the reply to its packet; a staged copy that reads poisoned
counts as missing. -/
def State.completeShard (s : State) (h : Hdr) (ed index place : Nat) (b : List Byte) : State :=
  let cmd := some (h.conn, h.cmdTag)
  let s0 := s.updEdition ed (fun v => { v with parts := v.parts.erase index })
  let s1 := if (s0.stagedPoison ed).contains index then s0.unstage ed [index] else s0
  if index = 0xFFFFFFFF then
    let r := s1.manifestDone ed b
    r.1.shardReply cmd index r.2
  else if (s.edition ed).state = .building then
    match s1.intake ed index b cmd with
    | (t, some st) => (t.mirrorShard ed index place b).shardReply cmd index st
    | (t, none) => (t.mirrorShard ed index place b).interim h stAccepted (if index < 65536 then index else 0)
  else
    let r := s1.repairShard ed index b
    r.1.shardReply cmd index r.2

/-- WT_SHARD (R136, R137, R139, R170, R331): accept a shard fragment, and run the intake when it completes its shard. -/
def execWtShard (h : Hdr) (edition : BitVec 16) (index offset shardLen : Nat) (bytes : List Byte) (s : State) : Out :=
  .next (s.command h rowWtShard (h.length = 16 + bytes.length) (fun s =>
    let ed := edition.toNat
    let e := s.edition ed
    let manifest := decide (index = 0xFFFFFFFF)
    let building := decide (e.state = .building)
    let n := if index < 65536 then index else 0
    if ed = 0 ∨ e.partition ≠ h.partition.toNat ∨ e.state = .free then .refuse stNoSuch n []
    else if bytes.isEmpty ∨ shardLen < offset + bytes.length then .refuse stBadParam n []
    else if (if manifest then !building || e.manDone else !((building && e.manDone) || s.shardsAwaited ed)) then
      .refuse stBadState n []
    else
      let x := e.parts.find index { length := shardLen }
      let fresh := decide building && !manifest && !e.parts.has index
      let place := if fresh then s.stagingPlace ed shardLen else some x.place
      if x.length ≠ shardLen ∨ x.overlaps offset bytes.length ∨ (manifest ∧ shardLen ≠ e.manLen) then .refuse stBadParam n []
      else match place with
        | none => .refuse stRefusedCapacity n []
        | some o =>
          let x1 : PartShard := { x with frags := x.frags ++ [(offset, bytes)], place := o }
          match x1.whole with
          | some b => .run (s.completeShard h ed index o b)
          | none => .run ((s.updEdition ed (fun v => { v with parts := v.parts.put index x1 })).ok h stOk n)))

end Sys2Proof.Machine
end

