-- ==== Sys2Proof/Machine/Weights.lean ====
section
/-! DEFINITION. The weights commands that close, switch, retire and abort an edition (R132, R143 to R154, R330, R437), an
edition's way to READY (R145), and the phases of a rolling switch or refresh hold past its gate (Table 5-6). -/

namespace Sys2Proof.Machine

/-- The check that a weights command names an edition of its partition. -/
def State.onEdition (s : State) (h : Hdr) (ed : Nat) (act : Edition → Verdict) : Verdict :=
  let e := s.edition ed
  if ed = 0 ∨ e.partition ≠ h.partition.toNat ∨ e.state = .free then .refuse stNoSuch 0 [] else act e

/-! Closing a build. -/

/-- R138: the shards of a build not yet staged, ascending. -/
def Edition.missing (e : Edition) : List Nat := (List.range e.shardCount).filter (fun i => !e.staged.has i)

/-- R140: hands the level-8 rows of a shadow build, those that no shard names, to the agents. -/
def State.queueBlank (s : State) (ed : Nat) : State :=
  let e := s.edition ed
  e.places.foldl (fun (t : State) place => (List.range 16).foldl (fun (t : State) l =>
    let target := placeEngine place l
    let k := t.physOf place
    t.queueRows k (((t.core k).emap).getD l 0) e.job
      (((List.range 8192).filter (fun r => !e.namesRow target r)).map (fun r => (r, levelEightRow)))) t) s

/-- R202, R388: takes the records of an edition into its entry. -/
def Edition.withRecords (e : Edition) (r : ServingRec × List (Nat × Nat) × Nat) : Edition :=
  { e with serving := some r.1, pairs := r.2.1, pairTol := r.2.2 }

/-- WT_CLOSE (R132, R138, R202, R273, R330): close a build; staged shards that read poisoned are missing. One whose records were found
bad leaves its state only by `WT_ABORT`, so its `WT_CLOSE` is answered `BAD_IMAGE` again. -/
def execWtClose (h : Hdr) (edition : BitVec 16) (s : State) : Out :=
  let ed := edition.toNat
  .next (s.command h rowWtClose (h.length = 4) (fun s0 => s0.onEdition h ed (fun e0 =>
    let s := if e0.state = .building then s0.unstage ed (s0.stagedPoison ed) else s0
    let e := s.edition ed
    if e.state ≠ .building ∨ !e.manDone then .refuse stBadState 0 []
    else if e.badRecords then .run (s.ok h stBadImage)
    else if !e.missing.isEmpty then
      .run (s.ok h stIncomplete 0 (Config.layout rowWtClose.op (e.missing.length :: e.missing.take 64)))
    else if e.kind = .rolling then
      match s.recordsOf ed with
      | none => .run (((s.recordsTouched ed).updEdition ed (fun v => { v with badRecords := true })).ok h stBadImage)
      | some r => .run ((((s.recordsTouched ed).updEdition ed (fun v => { (v.withRecords r) with state := .staged })).goldenCopy ed true).ok h)
    else
      let s1 := (s.updEdition ed (fun v => { v with state := .verifying, closeCmd := some (h.conn, h.cmdTag) })).interim h stAccepted
      .run (if e.kind = .shadow then s1.queueBlank ed else s1))))

/-! READY (R143, R145). -/

/-- R143: whether the rows of an engine are programmed and re-verified and its trims loaded. -/
def State.engineSettled (s : State) (k e : Nat) : Bool :=
  let v := s.engine k e
  v.rowsLeft.isEmpty && !v.agentBusy && v.arrays.vals.all (fun a => a.settled && a.shadow.isNone)

/-- R143, R178: whether a map change of a build's place or of its core waits. -/
def State.mapWaits (s : State) (place k : Nat) : Bool :=
  s.ledger.waits jkCore k jwEmap || s.ledger.emapNext.any (fun x => decide (x.1 = k))
    || s.ledger.waits jkRelocation place 0 || s.ledger.relocNext.any (fun x => decide (x.1 = place))

/-- R143: an engine of the build has a retired array: a spare engine of the core takes it over, or its core's work moves to another core
of the partition; with neither the build stays in VERIFYING and reports the region short. The rows are programmed from staging once
the map change is in force. -/
def State.buildRepair (s : State) (ed k e : Nat) : State :=
  let c := s.core k
  let place := ((s.edition ed).places.find? (fun x => s.physOf x = k)).getD k
  if s.mapWaits place k then s
  else match s.freeSpare k with
    | some p => s.journal { kind := jkCore, key := k, what := jwEmap, vals := c.emap.map (fun x => if x = e then p else x) }
    | none => s.buildMove ed place k none

/-- R145: what reaching READY does: the jobs of its arrays end, its stores and resident regions are filled, its grid terms stand,
and `WT_CLOSE` and a ready report answer. -/
def State.makeReady (s : State) (ed : Nat) (r : ServingRec × List (Nat × Nat) × Nat) : State :=
  let s1 := (s.edEngines ed).foldl (fun (t : State) (x : Nat × Nat) =>
    (t.engine x.1 x.2).arrays.keys.foldl (fun (t : State) a => t.closeJob x.1 x.2 a) t) s
  let s2 := s1.updEdition ed (fun v => { (v.withRecords r) with
    state := .ready, closeCmd := none, repairMissing := false
    staged := v.staged.mapVals (fun _ x => if x.kind = 5 then x else { x with payload := [] }) })
  let s3 := ((s.edition ed).places.foldl (fun (t : State) p => t.placeCore ed p) s2).gridOf ed s.plan.wNext
  let s4 := s3.finishOwed (s.edition ed).closeCmd stReady 0
  s4.weightsReport ed stReady (Config.layout opWeightsReport [(s4.edition ed).drep, s4.passLength ed s4.plan.wNext])

/-- EDITION_READY (R143, R145, R202, R388): an edition in VERIFYING with every row re-verified and its trims loaded becomes READY
if its records are valid; else its `WT_CLOSE` is answered `BAD_IMAGE`, and it leaves VERIFYING only by `WT_ABORT`. -/
def execEditionReady (ed : Nat) (s : State) : Out :=
  let e := s.edition ed
  .next (if !s.powered || e.state ≠ .verifying || e.badRecords then s
    else
      let engines := if e.kind = .shadow then s.edEngines ed else []
      match engines.find? (fun x => (s.engine x.1 x.2).arrays.vals.any (fun a => a.state ≠ 0)) with
      | some x => s.buildRepair ed x.1 x.2
      | none =>
        if !engines.all (fun x => s.engineSettled x.1 x.2) ∨ e.places.any (fun p => s.mapWaits p (s.physOf p))
          ∨ e.places.any (fun p => (s.core (s.physOf p)).clearing) then s
        else match s.recordsOf ed with
          | some r => (s.recordsTouched ed).makeReady ed r
          | none => ((s.recordsTouched ed).finishOwed e.closeCmd stBadImage 0).updEdition ed (fun v => { v with closeCmd := none, badRecords := true }))

/-! Switches. -/

/-- WT_SWITCH_SHADOW (R146): switch the partition to a READY edition, at the first boundary that has room. -/
def execWtSwitchShadow (h : Hdr) (edition : BitVec 16) (earliest : U64) (s : State) : Out :=
  let ed := edition.toNat
  .next (s.command h rowWtSwitch (h.length = 16) (fun s => s.onEdition h ed (fun e =>
    if e.state ≠ .ready ∨ e.noService then .refuse stBadState 0 []
    else if (s.part h.partition.toNat).switch.isSome then .refuse stBusy 0 []
    else
      let w : SwitchReq := { edition := ed, earliest := earliest.toNat, conn := h.conn, cmdTag := h.cmdTag }
      .run ((s.updPart h.partition.toNat (fun v => { v with switch := some w })).interim h stAccepted))))

/-- WT_SWITCH_ROLLING (R148, R150, Table 11-12): switch the partition to a STAGED edition in place; the reply carries H. A mode
above 1, or a choice for pinned requests above 1, is `BAD_PARAM`; `how` holds the two, mode in [7:0]. -/
def execWtSwitchRolling (h : Hdr) (edition : BitVec 16) (how : BitVec 16) (earliest : U64) (s : State) : Out :=
  let ed := edition.toNat
  let pinned := how.toNat / 256
  .next (s.command h rowWtSwitch (h.length = 16) (fun s => s.onEdition h ed (fun e =>
    let p := h.partition.toNat
    if how.toNat % 256 ≠ 1 ∨ 1 < pinned then .refuse stBadParam 0 []
    else if e.state ≠ .staged ∨ e.base ≠ (s.part p).current then .refuse stBadState 0 []
    else if (s.part p).switch.isSome ∨ (s.edition e.base).rolling.isSome then .refuse stBusy 0 []
    else if (e.placement.map Placement.fixed) ≠ ((s.edition e.base).placement.map Placement.fixed) then .refuse stBadImage 0 []
    else
      let us := s.holdBound ed (s.rollRows ed)
      let w : SwitchReq :=
        { edition := ed, rolling := true, endPinned := decide (pinned = 1), earliest := earliest.toNat, conn := h.conn
          cmdTag := h.cmdTag }
      let s1 := (s.updPart p (fun v => { v with switch := some w })).updEdition ed (fun v => { v with
        rolling := some { base := e.base, hUs := us } })
      let s2 := if pinned = 0 then s1.updEdition e.base (fun v => { v with noPinned := true }) else s1
      .run (s2.interim h stAccepted 0 (leBytes 8 us)))) 0x0400)

/-! Retiring and aborting. -/

/-- WT_RETIRE (R154): retire a RETAINED edition; what its policy does to its requests follows at the boundaries. -/
def execWtRetire (h : Hdr) (edition : BitVec 16) (policy : BitVec 8) (s : State) : Out :=
  let ed := edition.toNat
  .next (s.command h rowWtRetire (h.length = 4) (fun s => s.onEdition h ed (fun e =>
    if 1 < policy.toNat then .refuse stBadParam 0 []
    else if e.state ≠ .retained then .refuse stBadState 0 []
    else .run ((s.updEdition ed (fun v => { v with state := .retiring, retireEnd := decide (policy = 1) })).ok h))))

/-- Table 5-1: whether an edition may be aborted. -/
def Edition.abortable (e : Edition) : Bool :=
  match e.state with
  | .building | .verifying | .ready => true
  | .staged => match e.rolling with
    | none => true
    | some r => decide (r.phase = .waiting)
  | _ => false

/-- WT_ABORT (R437): abort a build; it ends at the next boundary. -/
def execWtAbort (h : Hdr) (edition : BitVec 16) (s : State) : Out :=
  let ed := edition.toNat
  .next (s.command h rowWtAbort (h.length = 4) (fun s => s.onEdition h ed (fun e =>
    if !e.abortable then .refuse stBadState 0 [] else s.atBoundary h (.abort ed h.conn h.cmdTag))))

/-- The code of an edition state as `WT_STATUS` gives it; the spec does not number the states. -/
def EdState.code : EdState → Nat
  | .free => Config.unlistedCode 3 0 | .building => Config.unlistedCode 3 1 | .staged => Config.unlistedCode 3 2
  | .verifying => Config.unlistedCode 3 3 | .ready => Config.unlistedCode 3 4 | .current => Config.unlistedCode 3 5
  | .retained => Config.unlistedCode 3 6 | .retiring => Config.unlistedCode 3 7

/-- WT_STATUS (R330, R325): edition states, missing shards and H. -/
def execWtStatus (h : Hdr) (edition : BitVec 16) (s : State) : Out :=
  let ed := edition.toNat
  .next (s.command h rowWtStatus (h.length = 4) (fun s => s.onEdition h ed (fun e =>
    let states := (s.editions.entries.filter (fun (x : Nat × Edition) =>
      x.2.partition = h.partition.toNat ∧ x.2.state ≠ .free)).flatMap (fun x => [x.1, x.2.state.code])
    let us := (e.rolling.map Rolling.hUs).getD 0
    .run (s.ok h stOk 0 (Config.layout rowWtStatus.op (states ++ [us, e.missing.length] ++ e.missing.take 64))))))

/-! Past the gate (Table 5-6). -/

/-- The edition of a partition whose rolling switch or refresh hold stands in a phase. -/
def State.rollingIn (s : State) (p : Nat) (ph : RollPhase) : Option (Nat × Rolling) :=
  (s.editions.entries.findSome? (fun (x : Nat × Edition) => match x.2.rolling with
    | some r => if x.2.partition = p ∧ r.phase = ph then some (x.1, r) else none
    | none => none))

/-- Moves a rolling switch to a phase. -/
def State.rollTo (s : State) (ed : Nat) (ph : RollPhase) : State :=
  s.updEdition ed (fun v => { v with rolling := v.rolling.map (fun r => { r with phase := ph }) })

/-- Whether a token of a partition's edition is in flight. -/
def State.tokensOf (s : State) (ed : Nat) : Bool :=
  s.plan.slots.any (fun x => decide (x.edition = ed)) || s.plan.replays.any (fun x => decide (x.slot.edition = ed))

/-- R155: where the agents take the rows of a target that is moving: the core or the spare engine that takes over its work, else the engine
it names now. -/
def State.rowsTo (s : State) (target : Nat) : Nat × Nat :=
  let q := s.engineOfTarget target
  match s.plan.outUnits.find? (fun u => 2 ≤ u.phase ∧ u.kind = .core ∧ u.unit = packedCore q.1) with
  | some u => (u.dest, (s.core u.dest).emap.getD (unpackEngine target) 0)
  | none => match (s.engine q.1 q.2).refresh with
    | some r => if s.plan.outUnits.any (fun u => decide (2 ≤ u.phase) && decide (u.unit = packedEngine q.1 q.2)) then (q.1, r.spare) else q
    | none => q

/-- ROLLING_DRAIN_DONE (R149, R155): every token of the base edition has been delivered, and the rewrite begins: the staged rows go to
the agents; in a refresh hold the due engines are refreshed in place (R171). -/
def execRollingDrainDone (p : Nat) (s : State) : Out :=
  .next (match s.rollingIn p .drain with
    | none => s
    | some (ed, r) =>
      if !s.powered || s.tokensOf (if r.refresh then ed else r.base) then s
      else
        let s1 := (s.rollTo ed .rewrite).setConc (s.edFields ed)
        let s2 := if r.refresh then
            (s1.edEngines ed).foldl (fun (t : State) (x : Nat × Nat) =>
              if (t.engine x.1 x.2).arrays.vals.any (fun a => a.refDue) ∧ (t.engine x.1 x.2).refresh.isNone then
                t.startRefresh x.1 x.2 x.2 false else t) s1
          else
            ((s1.edition ed).staged.vals.filter (fun x => x.kind = 3)).foldl (fun (t : State) x =>
              let q := t.rowsTo x.target
              let t1 := if q = t.engineOfTarget x.target then t.dropRefresh q.1 q.2 else t
              t1.queueRows q.1 q.2 (t.edition ed).job ((List.range x.rowCount).map (fun i =>
                (x.firstRow + i, bytesAt x.payload (512 * i) 512)))) s1
        s2.rehold ed)

/-- The engines that a rewrite programs. -/
def State.rollEngines (s : State) (ed : Nat) (r : Rolling) : List (Nat × Nat) :=
  if r.refresh then (s.edEngines ed).filter (fun x => match (s.engine x.1 x.2).refresh with
    | some q => q.inPlace
    | none => false)
  else (s.rollRows ed).map (fun x => (x.1, x.2.1))

/-- R149, R155: whether a unit that an edition under rewrite uses is being replaced. -/
def State.rollMoves (s : State) (ed : Nat) (r : Rolling) : Bool :=
  s.plan.outUnits.any (fun u => u.editions.contains (if r.refresh then ed else r.base))

/-- ROLLING_REWRITE_DONE (R149): every staged row has been programmed, and the close begins. -/
def execRollingRewriteDone (p : Nat) (s : State) : Out :=
  .next (match s.rollingIn p .rewrite with
    | none => s
    | some (ed, r) =>
      if s.powered && (s.rollLeft ed).isEmpty && !s.rollMoves ed r
          && (s.rollEngines ed r).all (fun x => (s.engine x.1 x.2).rowsLeft.isEmpty && !(s.engine x.1 x.2).agentBusy
            && (match (s.engine x.1 x.2).refresh with
              | some q => !s.asked x.1 q.spare
              | none => true)) then s.rollTo ed .close
      else s)

/-- R150: the hold has run past the H last reported: a fault, reported against every held request. -/
def State.holdOverrun (s : State) (ed : Nat) (r : Rolling) : State :=
  if s.now ≤ r.gateAt.toNat + r.hUs * 1000 then s
  else
    let p := (s.edition ed).partition
    (s.reqs.entries.filter (fun (x : Nat × Req) => x.2.held ∧ x.2.partition = p)).foldl (fun (t : State) x =>
      t.report opWeightsReport (some p) (t.tag x.1) stFault 0 ed (leBytes 8 r.hUs)) s

/-- ROLLING_CLOSE_DONE (R149): the trims of the rewritten arrays have been sampled, and the stores and resident regions are written;
the edition resumes at the next boundary. -/
def execRollingCloseDone (p : Nat) (s : State) : Out :=
  .next (match s.rollingIn p .close with
    | none => s
    | some (ed, r) =>
      let engines := (s.rollEngines ed r).eraseDups
      if !s.powered ∨ s.rollMoves ed r ∨ !engines.all (fun x => (s.engine x.1 x.2).allTrimmed) then s
      else
        let s1 := engines.foldl (fun (t : State) (x : Nat × Nat) => t.updEngine x.1 x.2 (fun v => { v with refresh := none })) s
        let s2 := if r.refresh then s1 else (s1.edition ed).places.foldl (fun (t : State) q => t.placeCore ed q) s1
        (s2.rollTo ed .resume).holdOverrun ed r)

end Sys2Proof.Machine
end

