-- ==== Sys2Proof/Machine/Multicast.lean ====
section
/-! DEFINITION. Multicast (R304, R305): the tree, the targets' results and their records. -/

namespace Sys2Proof.Machine

/-- R304: the targets that a target forwards to; the origin sends to 0 and 1. -/
def mcastKids (i : Option Nat) : List Nat := match i with
  | none => [0, 1]
  | some i => [2 * i + 2, 2 * i + 3]

/-- R305: a packet to child `c`, or directly to the children of one that cannot be reached; the second part lists those. -/
def State.mcastSend (s : State) (targets : List Nat) (p : FabPkt) : Nat → Nat → State × List Nat
  | 0, _ => (s, [])
  | fuel + 1, c =>
    match targets[c]? with
    | none => (s, [])
    | some m =>
      let r := s.fabSend { p with dst := m }
      if r.2 then (r.1, [])
      else
        let a := r.1.mcastSend targets p fuel (2 * c + 2)
        let b := a.1.mcastSend targets p fuel (2 * c + 3)
        (b.1, c :: (a.2 ++ b.2))

/-- R304: packets to the children of the origin or of a target. -/
def State.mcastForward (s : State) (targets : List Nat) (i : Option Nat) (l : List FabPkt) : State × List Nat :=
  l.foldl (fun (t : State × List Nat) p => (mcastKids i).foldl (fun (t : State × List Nat) c =>
    let r := State.mcastSend t.1 targets p (targets.length + 1) c
    (r.1, r.2.foldl (fun l x => insertNat x l) t.2)) t) (s, [])

/-- R305: the records of a multicast: module and result of each target. -/
def Mcast.records (m : Mcast) : List Byte :=
  ((List.range m.targets.length).zip m.targets).flatMap (fun (x : Nat × Nat) =>
    leBytes 4 (x.2 % 2 ^ 18 + m.results.find x.1 5 * 2 ^ 24))

/-- R305: the origin completes its multicast: the records are written and the command answered. -/
def State.mcastComplete (s : State) (j : Job) (m : Mcast) (status : Nat) : State :=
  let s1 := match s.resolve j.partition 0 m.recAddr (4 * m.targets.length) with
    | some r => s.patchRegion r (stackOff m.recAddr) m.records j.partition
    | none => s
  (s1.updJob j.id (fun j => { j with mcast := none })).finishOwed m.cmd status 0

/-- R305: results reach the origin; the multicast completes once it holds one for every target. -/
def State.mcastResults (s : State) (id : Nat) (l : List (Nat × Nat)) : State :=
  match s.job id with
  | none => s
  | some j => match j.mcast with
    | none => s
    | some m =>
      let m1 := { m with results := l.foldl (fun (t : Map Nat) (x : Nat × Nat) => if t.has x.1 then t else t.put x.1 x.2) m.results }
      let s1 := s.updJob id (fun j => { j with mcast := some m1 })
      if (List.range m.targets.length).all (fun i => m1.results.has i) then s1.mcastComplete j m1 stReady else s1

/-- R285: the number of a multicast: the first that is new towards every target. -/
def State.mcastSeq (s : State) (targets : List Nat) : State × Nat :=
  let n := (targets.map (fun m => s.fabric.seqs.find (m * 256 + ftMcast) 0)).foldl Nat.max 0
  ({ s with fabric := { s.fabric with
    seqs := targets.foldl (fun (t : Map Nat) m => t.put (m * 256 + ftMcast) ((n + 1) % 2 ^ 32)) s.fabric.seqs } }, n)

/-- FB_MCAST (R304, R305): send a message from a stack region to the other members of the job, or to those of a mask. -/
def execFbMcast (h : Hdr) (q : McastParams) (s : State) : Out :=
  .next (s.command h rowFbMcast true (fun s => s.onJob h q.job (fun s j =>
    let ranks := (List.range j.members.length).filter (fun r => r ≠ j.rank ∧ (q.mask.map (fun l => l.contains r)).getD true)
    let bad := (q.mask.getD []).any (fun r => decide (j.members.length ≤ r ∨ r = j.rank))
    if (s.resolve j.partition 0 q.src 0).isNone || (s.resolve j.partition 0 q.recAddr 0).isNone then .refuse stNoSuch 0 []
    else if q.length = 0 ∨ 2 ^ 26 < q.length ∨ bad ∨ ranks.isEmpty ∨ (q.region.isSome ∧ q.length % cbBytes ≠ 0) then
      .refuse stBadParam 0 []
    else match s.resolve j.partition 0 q.src q.length, s.resolve j.partition 0 q.recAddr (4 * ranks.length) with
      | some g, some _ =>
        if j.version < typeSince ftMcast then .refuse stVersion 0 (leBytes 4 j.slow)
        else if j.mcast.isSome then .refuse stBusy 0 []
        else
          let targets := ranks.map (fun r => j.members.getD r 0)
          let data := s.regionBytes g (stackOff q.src) q.length
          let head := mcastHead q.length s.moduleId q.region targets
          let per := versionPayload j.version
          let msg := cleanBytes head ++ data
          let bad := (List.range (ceilDiv msg.length per)).filter (fun i => spPoison ((msg.drop (per * i)).take per))
          let seq := s.mcastSeq targets
          let pk := poisonPackets bad (cutMessage { j.packet ftMcast 0 [] with seq := seq.2 } per (msg.map Prod.fst))
          let m : Mcast := { targets := targets, length := q.length, recAddr := q.recAddr, seq := seq.2
                             deadline := BitVec.ofNat 64 (s.now + q.timeout), cmd := some (h.conn, h.cmdTag) }
          let s1 := ((seq.1.interim h stAccepted).regionTouched g (stackOff q.src) q.length j.partition).updJob q.job (fun j =>
            { j with mcast := some m })
          let sent := s1.mcastForward targets none pk
          .run (sent.1.mcastResults q.job (sent.2.map (fun c => (c, 3))))
      | _, _ => .refuse stBadParam 0 [])))

/-- R305: a whole message on a target: where it lands, and the result; none for a shard whose checks wait (R136). -/
def State.mcastLand (s : State) (j : Job) (m : McastHead) (rx : McastRx) : State × Option Nat :=
  let data := ((joinParts rx.got).drop m.size).take m.length
  let marked := (sortBy Prod.fst rx.got).flatMap (fun (x : Nat × List Byte) => x.2.map (fun b => (b, rx.bad.contains x.1)))
  let cells := (marked.drop m.size).take m.length
  match m.region with
  | some sel => match (s.part j.partition).regions.find? sel with
    | none => (s, some 2)
    | some r =>
      if r.void ∨ !(s.part j.partition).entry.valid ∨ s.writeGuarded j.partition sel 0 m.length then (s, some 2)
      else if r.size < m.length then (s, some 1)
      else (s.regionWrite r 0 cells j.partition, some (if spPoison cells then 4 else 0))
  | none =>
    let ed := natAt data 6 2
    let e := s.edition ed
    if e.partition ≠ j.partition ∨ e.state ≠ .building ∨ !e.manDone then (s, some 2)
    else match s.stagingPlace ed m.length with
      | none => (s, some 1)
      | some o =>
        let i := natAt data 8 4
        if spPoison cells then (s, some 4)
        else
          let s1 := if (s.stagedPoison ed).contains i then s.unstage ed [i] else s
          let r := s1.intake ed i data none (some (j.id, rx.origin, rx.seq))
          (r.1.mirrorShard ed i o data, r.2.map shardResult)

/-- R285, R304: a packet of a multicast is kept with the others of its message, which its origin's rank and its number name. -/
def Job.mcastKeep (j : Job) (p : FabPkt) : McastRx :=
  let old := (j.rxOf p.ref.toNat p.seq).getD { origin := p.ref.toNat, seq := p.seq, sender := p.src }
  { old with
    got := if old.got.any (fun x => x.1 = p.offset) then old.got else old.got ++ [(p.offset, p.payload)]
    bad := if p.poison then insertNat p.offset old.bad else old.bad }

/-- MULTICAST_DATA (R304, R305): multicast data is kept, forwarded to this target's children, and, once whole, lands here and
is reported up the tree. -/
def execMulticastData (port : Nat) (p : FabPkt) (s : State) : Out :=
  .next (s.jobRecv port ftMcast p (fun s j =>
    let old := ((j.rxOf p.ref.toNat p.seq).map McastRx.got).getD []
    let rx := j.mcastKeep p
    let s1 := s.updJob j.id (fun j => { j with rx := j.rx.filter (fun r => !(r.origin = rx.origin ∧ r.seq = rx.seq)) ++ [rx] })
    match mcastHeadOf rx.got with
    | none => s1
    | some m =>
      match m.targets.findIdx? (fun t => t = s.moduleId) with
      | none => s1.fabDiscard port
      | some i =>
        if old.any (fun x => x.1 = p.offset) then s1
        else
          let pass := (if (mcastHeadOf old).isNone then rx.got else [(p.offset, p.payload)]).map (fun (x : Nat × List Byte) =>
            { p with offset := x.1, payload := x.2, poison := rx.bad.contains x.1, last := decide (m.size + m.length ≤ x.1 + x.2.length) })
          let f := s1.mcastForward m.targets (some i) pass
          let s2 := if f.2.isEmpty then f.1 else f.1.mcastReport j rx (f.2.map (fun c => (c, 3)))
          if (rx.got.map (fun x => x.2.length)).sum < m.size + m.length then s2
          else
            let r := s2.mcastLand j m rx
            match r.2 with
            | some st => r.1.mcastOwn j.id rx.origin rx.seq st
            | none => r.1))

/-- MULTICAST_STATUS (R305): results of targets below reach a parent, which passes them up; the origin keeps them. Those of a multicast that
is over, or of none, are discarded. -/
def execMulticastStatus (port : Nat) (p : FabPkt) (s : State) : Out :=
  .next (s.jobRecv port ftMcastStatus p (fun s j =>
    let origin := natAt p.payload 0 4
    let seq := natAt p.payload 4 4
    let l := (List.range ((p.payload.length - 8) / 8)).map (fun i => (natAt p.payload (8 * i + 8) 4, natAt p.payload (8 * i + 12) 4))
    if origin = j.rank then
      (if (j.mcast.map Mcast.seq) = some seq then s.mcastResults j.id l else s.fabDiscard port)
    else match (j.rxOf origin seq).bind (fun r => (mcastHeadOf r.got).map (fun m => (r, m))) with
      | some (rx, m) => match m.targets.findIdx? (fun t => t = s.moduleId) with
        | some _ => s.mcastReport j rx l
        | none => s.fabDiscard port
      | none => s.fabDiscard port))

/-- MCAST_TIMEOUT (R305): a multicast whose timeout expires completes with the results that the origin holds; the others are
given 0x05. -/
def execMcastTimeout (job : Nat) (s : State) : Out :=
  .next (match s.job job with
    | none => s
    | some j => match j.mcast with
      | none => s
      | some m => if s.powered ∧ m.deadline.toNat ≤ s.now then s.mcastComplete j m stTimeout else s)

end Sys2Proof.Machine
end

