-- ==== Sys2Proof/Machine/Session.lean ====
section
/-! DEFINITION. Sessions: opening, resuming and ending (R318, R319, R327, R337, R338), the clock echo (R407), authentication
(R345 to R348). -/

namespace Sys2Proof.Machine

/-- Table 11-9: the module's state as replies give it. -/
def ModState.code : ModState → Nat
  | .noPower => 0 | .bringUp => 0 | .inService => 1 | .stopped => 2 | .outOfService => 3

/-- R11, R177: the reserve fields. -/
def State.roundhouse (s : State) : List Nat := allFields.filter (fun f => decide ((s.field f).role = .roundhouse))

/-- R319: the command sets of the module, highest first, and the bounds of its range. -/
def commandSets : List Nat := [0x0501, 0x0500, 0x0400, 0x0301, 0x0300]
def commandSetRange : List Nat := [0x0300, 0x0501]

/-- R319: the highest command set in both ranges. -/
def commonSet (lo hi : BitVec 16) : Option Nat :=
  commandSets.find? (fun x => decide (lo.toNat ≤ x) && decide (x ≤ hi.toNat))

/-! Traffic between connectors (R337, R338). -/

/-- R315, R333: what a stream sent and saw no acknowledgement of waits again, ahead of the rest. -/
def TxStream.requeued (t : TxStream) : TxStream := { t with queue := t.unacked.map Prod.snd ++ t.queue, unacked := [] }

/-- Moves the packets of a stream that `take` names from one connector to another, ahead of what waits there; `sent` says
whether those already sent and not acknowledged are among them. -/
def State.moveStream (s : State) (a b k : Nat) (sent : Bool) (take : OutPkt → Bool) : State :=
  let t := (s.conn a).tx.find k {}
  let old := if sent then (t.unacked.map Prod.snd).filter take else []
  let moved := old ++ t.queue.filter take
  let s1 := s.updConn a (fun v => { v with tx := v.tx.put k { t with
    queue := t.queue.filter (fun p => !take p), unacked := if sent then t.unacked.filter (fun e => !take e.2) else t.unacked } })
  s1.updConn b (fun v => let u := v.tx.find k {}; { v with tx := v.tx.put k { u with queue := moved ++ u.queue } })

/-- R338: a session ends: its waiting replies and reports are discarded and counted. -/
def State.endSession (s : State) (c : Nat) : State :=
  let v := s.conn c
  let t := v.tx.find 2 {}
  let s1 := s.updConn c (fun v => { v with
    sess := {}
    tx := (v.tx.put 2 { t with queue := [], unacked := [] }).put 4 { (v.tx.find 4 {}) with queue := [], unacked := [] } })
  { s1 with alaok := { s1.alaok with discards := s1.alaok.discards + t.queue.length + t.unacked.length } }

/-! Opening (R327). -/

/-- R163: the wall time at power-up ages every field by the time the module was off, at AF(45 °C); a time earlier than the last
commit makes every array due. -/
def State.agedOff (s : State) (wall : U64) : State :=
  if s.ledger.wallCommit.toNat < wall.toNat then
    let n := (wall.toNat - s.ledger.wallCommit.toNat) * ageFactor 45 / 10 ^ 9
    allFields.foldl (fun (t : State) f => t.updField f (fun v => { v with ageAcc := (v.ageAcc + n) % 2 ^ 64 })) s
  else if wall.toNat < s.ledger.wallCommit.toNat then s.allArraysDue
  else s

/-- R163: wall time supplied in bring-up counts once the ledger is read. -/
def State.wallSupplied (s : State) (wall : U64) : State :=
  let s1 : State := { s with alaok := { s.alaok with wall := some (wall - s.clock.tb) } }
  if s.mod.state ≠ .bringUp ∨ s.alaok.wall.isSome then s1
  else if s.mod.phase < 5 then { s1 with alaok := { s1.alaok with wallGiven := some wall } }
  else s1.agedOff wall

/-- R163: a wall time that was supplied before the ledger was read. -/
def State.takeWall (s : State) : State :=
  match s.alaok.wallGiven with
  | some w => ({ s with alaok := { s.alaok with wallGiven := none } } : State).agedOff w
  | none => s

/-- Table 11-9: the reply to `SS_OPEN`. -/
def State.openBody (s : State) (c : Nat) : List Byte :=
  let v := s.conn c
  leBytes 2 v.sess.cmdSet.toNat ++ leBytes 2 v.link.toNat ++ leBytes 1 s.mod.state.code ++ leBytes 1 s.roundhouse.length
    ++ leBytes 2 s.mod.serviceSet.length ++ leBytes 8 v.sess.id.toNat ++ leBytes 8 s.now ++ leBytes 8 0

/-- R337: whether connector `c` may carry a standby session: it is B, or B carries the active session after a takeover. -/
def State.standbyPlace (s : State) (c : Nat) : Bool := decide (c = 1) || decide (s.alaok.active = 1 ∧ c ≠ 1)

/-- R327: the connector whose session a resume names. -/
def State.sessionNamed (s : State) (id : U64) : Option Nat :=
  [0, 1].find? (fun c => (s.conn c).sess.isOpen && decide ((s.conn c).sess.id = id))

/-- R338: a session resumes on connector `c`, with its outstanding commands and its waiting traffic. -/
def State.resumeSession (s : State) (h : Hdr) (d : Nat) (set : Nat) : State :=
  let c := h.conn
  let was := (s.conn d).sess
  let mine := (s.conn c).sess.outst.filter (fun o => o.is c h.cmdTag)
  let other := if d = c then was.outst.filter (fun o => !o.is c h.cmdTag) else was.outst
  let v : Session := { was with outst := other ++ mine, resumeBy := none, cmdSet := BitVec.ofNat 16 set }
  if d = c then s.updSess c (fun _ => v)
  else
    let s1 := (s.updSess d (fun _ => {})).updSess c (fun _ => v)
    let s2 := [2, 3, 4].foldl (fun (t : State) k => t.moveStream d c k true (fun _ => true)) s1
    if s.alaok.active = d then { s2 with alaok := { s2.alaok with active := c } } else s2

/-- R327, R338: a new session on connector `c`; the active one receives the terminus entries that wait. -/
def State.newSession (s : State) (h : Hdr) (standby : Bool) (set : Nat) : State :=
  let c := h.conn
  let s1 := ((s.updConn c (fun v => { v with clkValid := false })).updSess c (fun v => {
    isOpen := true, standby := standby, id := Config.sessionId s.free, cmdSet := BitVec.ofNat 16 set
    outst := v.outst.filter (fun o => o.is c h.cmdTag) })).drawn
  if standby then s1
  else if s.alaok.active = c then s1
  else
    let s2 := s1.moveStream s.alaok.active c 3 true (fun _ => true)
    { s2 with alaok := { s2.alaok with active := c } }

/-- R338: below link 2.2 a session that its connector's fall left open is not resumed: it ends as the next one opens (log 199). -/
def State.oldSessionEnds (s : State) (h : Hdr) : State :=
  let v := (s.conn h.conn).sess
  if v.suspended && decide ((s.conn h.conn).link.toNat < 0x0202) then
    (s.endSession h.conn).updSess h.conn (fun _ => { outst := v.outst.filter (fun o => o.is h.conn h.cmdTag) })
  else s

/-- SS_OPEN (R327): open or resume a session and negotiate the command set. -/
def execSsOpen (h : Hdr) (o : OpenParams) (s : State) : Out :=
  .next (s.command h rowSsOpen (h.length = 32) (fun s =>
    let c := h.conn
    let link := (s.conn c).link.toNat
    if (o.resume ∧ link < 0x0202) ∨ (o.standby ∧ link < 0x0200) then .refuse stVersion 0 []
    else match commonSet o.cmdMin o.cmdMax with
      | none => .refuse stVersion 0 (Config.layout 0x0101 commandSetRange)
      | some set =>
        let done := fun (t : State) =>
          let t1 := if o.wallValid then t.wallSupplied o.wallTime else t
          Verdict.run ((t1.ok h stOk 0 (t1.openBody c)).pumpAll c)
        if o.resume then
          match s.sessionNamed o.sessionId with
          | none => .refuse stNoSuch 0 []
          | some d => if d ≠ c ∧ (s.conn c).sess.isOpen then .refuse stBadState 0 []
            else done (s.resumeSession h d set)
        else
          let s := s.oldSessionEnds h
          if (s.conn c).sess.isOpen then .refuse stBadState 0 []
          else if o.standby then
            if s.standbyPlace c then done (s.newSession h true set) else .refuse stBadParam 0 []
          else if (s.conn (1 - c)).sess.isOpen ∧ !(s.conn (1 - c)).sess.standby then .refuse stBadState 0 []
          else done (s.newSession h false set)))

/-- SS_CLOSE (R345, R339): end the session; requests continue, and their entries wait for the next one. -/
def execSsClose (h : Hdr) (s : State) : Out :=
  .next (s.command h rowSsClose (h.length = 0) (fun s => .run ((s.ok h).updSess h.conn (fun _ => {}))))

/-- Whether step boundaries come: the module is in service or stopped (R361). Where they do not, what waits for one acts at
once. -/
def State.hasBoundaries (s : State) : Bool := s.serving

/-- R337: the standby session of connector `b` becomes active; the other's becomes standby, or closes if its connector is
down. -/
def State.takeOver (s : State) (b : Nat) (tag : Word) : State :=
  let a := 1 - b
  let up := (s.conn a).up
  let owed := (s.conn a).sess.outst
  let s1 := s.updSess b (fun v => { v with standby := false, outst := v.outst ++ owed })
  let s2 := s1.updSess a (fun v => if up && v.isOpen then { v with standby := true, outst := [] } else {})
  let s3 := (s2.moveStream a b 3 true (fun _ => true)).moveStream a b 4 true (fun _ => true)
  let s4 := (s3.moveStream a b 2 false (fun _ => true)).moveStream a b 2 true (fun p => p.report || !up)
  let s5 : State := { s4 with alaok := { s4.alaok with active := b } }
  (s5.finish b tag stOk).pumpAll b

/-- SS_TAKEOVER (R337): the standby session asks to become active at the next boundary. -/
def execSsTakeover (h : Hdr) (s : State) : Out :=
  .next (s.command h rowSsTakeover (h.length = 0) (fun s =>
    if !(s.conn h.conn).sess.standby then .refuse stBadState 0 []
    else if s.hasBoundaries then s.atBoundary h (.takeover h.conn h.cmdTag)
    else .run (s.takeOver h.conn h.cmdTag)))

/-- Table 15-3, bytes 4 to 27: the measured clock of the control node; zeros before the first measurement and below link 2.1
(R407). -/
def Connector.clockBytes (c : Connector) : List Byte :=
  if c.clkValid && decide (0x0201 ≤ c.link.toNat) then
    leBytes 4 (bitsOf 32 c.clkDrift) ++ leBytes 8 (bitsOf 64 c.clkOffset) ++ leBytes 8 c.clkAt.toNat ++ leBytes 4 c.clkAsym
  else leBytes 24 0

/-- SS_ECHO (R407): the module timebase and the measured clock of the control node. -/
def execSsEcho (h : Hdr) (s : State) : Out :=
  .next (s.command h rowSsEcho (h.length = 0) (fun s =>
    .run (s.ok h stOk 0 (leBytes 8 s.now ++ (s.conn h.conn).clockBytes))))

/-! Authentication (R347, R348). -/

/-- R347: how long a nonce stands, and the lock after three failed exchanges, in ns. -/
def nonceNs : Nat := 10 * 10 ^ 9
def lockNs : Nat := 10 ^ 9

/-- R347: the message that the session signs. -/
def authMessage (id : U64) (nonce : Nat) : List Byte :=
  [0x4B, 0x56, 0x41, 0x55] ++ leBytes 8 id.toNat ++ leBytes 48 nonce ++ leBytes 48 Config.identityDigest

/-- R347: a nonce that still stands. -/
def State.liveNonce (s : State) (c : Nat) : Option Nat :=
  let v := (s.conn c).sess
  if s.since v.nonceAt < nonceNs then v.nonce else none

/-- R347: ends the exchange under way on a connector; its begin command gets the outcome as its final reply. -/
def State.endExchange (s : State) (c status : Nat) : State :=
  let v := (s.conn c).sess
  if v.nonce.isSome then (s.updSess c (fun v => { v with nonce := none })).finish c v.authTag status else s

/-- SS_AUTH_BEGIN (R347): start authentication and return a fresh nonce. -/
def execSsAuthBegin (h : Hdr) (level : BitVec 8) (rsa slh : List Byte) (s : State) : Out :=
  .next (s.command h rowSsAuth (h.length = 440) (fun s =>
    if 1 < level.toNat then .refuse stBadParam 0 []
    else
      let nonce := Config.nonce s.free
      let s1 := (s.endExchange h.conn stTimeout).drawn
      let s2 := s1.updSess h.conn (fun v => { v with
        nonce := some nonce, nonceAt := s.stamp, authLevel := level.toNat, authKey := keyDigest rsa slh, authTag := h.cmdTag
        authRsa := rsa, authSlh := slh })
      .run (s2.interim h stOk 0 (leBytes 48 nonce ++ leBytes 48 Config.identityDigest))))

/-- R347: whether both signatures over M verify under the keys presented. -/
def State.proofOk (s : State) (c nonce : Nat) (rsaSig slhSig : List Byte) : Bool :=
  let v := (s.conn c).sess
  let m := authMessage v.id nonce
  Config.rsaVerifies v.authRsa rsaSig m && Config.slhVerifies v.authSlh slhSig m

/-- R345, R348: whether the presented key's digest is an anchor of the level asked for. -/
def State.anchorOk (s : State) (c : Nat) : Bool :=
  let v := (s.conn c).sess
  if v.authLevel = 0 then decide (s.ledger.owner ≠ 0) && decide (v.authKey = s.ledger.owner)
  else (List.range partitionCount).any (fun p => s.keyOwns v.authKey p)

/-- R347: an exchange fails; the third closes the session, and its connector accepts no hello for 1 s. -/
def State.authFailed (s : State) (h : Hdr) : State :=
  let c := h.conn
  let n := (s.conn c).sess.fails + 1
  let s1 := ((s.ok h stBadSignature).endExchange c stBadSignature).updSess c (fun v => { v with fails := n })
  if n < 3 then s1
  else s1.updConn c (fun v => { v with sess := {}, lockUntil := some (BitVec.ofNat 64 (s.now + lockNs)) })

/-- SS_AUTH_PROVE (R347): verify both signatures over M and grant the session's level. -/
def execSsAuthProve (h : Hdr) (rsaSig slhSig : List Byte) (s : State) : Out :=
  .next (s.command h rowSsAuth (h.length = 16616) (fun s =>
    match s.liveNonce h.conn with
    | none => .refuse stBadState 0 []
    | some nonce =>
      if s.proofOk h.conn nonce rsaSig slhSig && s.anchorOk h.conn then
        .run (((s.ok h).endExchange h.conn stOk).updSess h.conn (fun v => { v with
          level := some v.authLevel, keyDigest := v.authKey }))
      else .run (s.authFailed h)))

/-- SS_AUTH_CLAIM (R348): claim an unclaimed module: the presented key's digest becomes the owner once both ledger copies hold
it. -/
def execSsAuthClaim (h : Hdr) (rsaSig slhSig : List Byte) (s : State) : Out :=
  .next (s.command h rowSsAuth (h.length = 16616) (fun s =>
    match s.liveNonce h.conn with
    | none => .refuse stBadState 0 []
    | some nonce =>
      if s.ledger.owner ≠ 0 ∨ s.ledger.ownerNext.isSome then .run ((s.ok h stBadState).endExchange h.conn stBadState)
      else if s.proofOk h.conn nonce rsaSig slhSig then
        let key := (s.conn h.conn).sess.authKey
        let s1 := (s.interim h stAccepted).endExchange h.conn stOk
        .run (({ s1 with ledger := { s1.ledger with ownerNext := some (key, h.conn, h.cmdTag) } } : State).startSnapshot)
      else .run (s.authFailed h)))

/-- NONCE_EXPIRY (R347): an unused authentication nonce becomes void after 10 s. -/
def execNonceExpiry (conn : Nat) (s : State) : Out :=
  let v := (s.conn conn).sess
  .next (if s.powered && v.nonce.isSome && decide (nonceNs ≤ s.since v.nonceAt) then s.endExchange conn stTimeout else s)

/-- AUTH_LOCKOUT_EXPIRY (R347): the 1 s hello lockout after three failed authentications ends. -/
def execAuthLockoutExpiry (conn : Nat) (s : State) : Out :=
  .next (match (s.conn conn).lockUntil with
    | some t => if s.powered && decide (t.toNat ≤ s.now) then s.updConn conn (fun v => { v with lockUntil := none }) else s
    | none => s)

/-- SESSION_RESUME_EXPIRY (R338): a session left by a down connector is not resumed within 60 s and ends. -/
def execSessionResumeExpiry (conn : Nat) (s : State) : Out :=
  .next (match (s.conn conn).sess.resumeBy with
    | some t => if s.powered && decide (t.toNat ≤ s.now) then s.endSession conn else s
    | none => s)

end Sys2Proof.Machine
end

