-- ==== Sys2Proof/Machine/Link.lean ====
section
/-! DEFINITION. The Alaok link (R313 to R319): frames, acknowledgements and credits, hello, connectors that come up and go down,
and the measured clock of the control node (R407). -/

namespace Sys2Proof.Machine

/-! Receiving. -/

/-- Table 11-2: credits that the module grants at the hello, in units of 64 bytes; 0 for a stream it does not receive. -/
def grantedCredits (stream : Nat) : Nat :=
  if stream = 0 then 4096 else if stream = 1 then 16384 else if stream = 5 then 1024 else 0

/-- Tables 11-2 and 11-4: the streams from the node that a link version has. -/
def nodeStream (link : BitVec 16) (k : Nat) : Bool := decide (k = 0 ∨ k = 1) || (decide (k = 5) && decide (0x0200 ≤ link.toNat))

/-- A reply to a packet that is no command. -/
def State.refusePacket (s : State) (c : Nat) (b : List Byte) (status : Nat) : State :=
  (s.countModule mcRefused 1).sendRefusal c
    { op := natAt b 0 2, final := true, partition := natAt b 3 1 % 64, cmdTag := BitVec.ofNat 32 (natAt b 8 4)
      reqTag := BitVec.ofNat 32 (natAt b 12 4), stamp := s.stamp, status := status }

/-- R322 steps 1 and 2: a packet leaves reassembly: an undefined opcode or a length above 65,536 is refused, a command waits
for its row. -/
def State.packetDone (s : State) (c : Nat) (b : List Byte) : State :=
  if 65536 < natAt b 4 4 then s.refusePacket c b stBadLength
  else if commandOpcodes.contains (natAt b 0 2) then
    { s with alaok := { s.alaok with accepted := s.alaok.accepted ++ [(c, b)] } }
  else s.refusePacket c b stBadOpcode

/-- R314, R321: cuts the packets that a stream's reassembly holds whole. -/
def cutPackets : Nat → List Byte → List (List Byte) × List Byte
  | 0, l => ([], l)
  | n + 1, l =>
    let size := 32 + natAt l 4 4
    if 32 ≤ l.length ∧ size ≤ l.length then
      let r := cutPackets n (l.drop size)
      (l.take size :: r.1, r.2)
    else ([], l)

/-- R315: items of a terminus packet that are acknowledged are delivered (R333). -/
def State.itemDelivered (s : State) (p : OutPkt) : State :=
  let i := tagIndex p.reqTag
  if p.op = opTerminus ∧ tagGen p.reqTag = (s.req i).gen then
    s.updReq i (fun r => { r with delivered := (r.delivered + p.detail) % 2 ^ 32 })
  else s

/-- R315: whether sequence number `q` is at or before `ack`, modulo 2^32. -/
def seqUpTo (ack q : Word) : Bool := decide ((ack - q).toNat < 2 ^ 31)

/-- R314, R315: an acknowledgement of a sending stream; what waited for room in the retry buffer may go. -/
def State.acked (s : State) (c k : Nat) (ack : Word) : State :=
  if k = 2 ∨ k = 3 ∨ k = 4 then
    let t := (s.conn c).tx.find k {}
    let s1 := s.updConn c (fun v => { v with tx := v.tx.put k { t with
      acked := ack, unacked := t.unacked.filter (fun e => !seqUpTo ack e.1) } })
    ((t.unacked.filter (fun e => seqUpTo ack e.1)).foldl (fun (u : State) e => u.itemDelivered e.2) s1).pumpAll c
  else s

/-- R316: further credits of a sending stream; what waits may go. -/
def State.credited (s : State) (c k n : Nat) : State :=
  if k = 2 ∨ k = 3 ∨ k = 4 then
    (s.updConn c (fun v => let t := v.tx.find k {}; { v with tx := v.tx.put k { t with credits := t.credits + n } })).pumpAll c
  else s

/-- Table 11-1: what every valid frame carries: that it came, an acknowledgement and credits. -/
def State.frameHead (s : State) (c : Nat) (fr : Frame) : State :=
  let s1 := s.updConn c (fun v => { v with lastRx := s.stamp })
  (s1.acked c fr.ackStream fr.ack).credited c fr.creditStream fr.credit

/-- R315: a frame is discarded; the first of a run sends a nak naming the number expected. -/
def State.naked (s : State) (c k : Nat) : State :=
  let r := (s.conn c).rx.find k {}
  if r.skipping then s
  else s.updConn c (fun v => { v with
    rx := v.rx.put k { r with skipping := true }, naksSent := v.naksSent ++ [(k, r.next)], lastTx := s.stamp
    heads := v.framed 3 k r.next 0 [] })

/-- R314, R316, R317: a link control frame goes out, with `n` further credits. -/
def Connector.control (v : Connector) (n : Nat) (now : U64) : Connector :=
  { v with ctlSent := v.ctlSent + 1, lastTx := now, heads := v.framed 2 0 0 n [] }

/-- DATA_FRAME (R315, R316, R322): a data frame is received, checked and reassembled into its stream, or discarded: with a nak
when its check or its number fails, counted when it exceeds its credits; one taken is acknowledged, its credits returned, by a
link control frame (log 182). -/
def execDataFrame (conn : Nat) (fr : Frame) (s : State) : Out :=
  let v := s.conn conn
  let r := v.rx.find fr.stream {}
  .next (if !s.powered || !v.carries || !nodeStream v.link fr.stream then s
    else if !fr.crcOk || decide (maxPayload v.link < fr.payload.length) then s.naked conn fr.stream
    else
      let s1 := s.frameHead conn fr
      if fr.seq ≠ r.next then s1.naked conn fr.stream
      else if r.credits < ceilDiv fr.payload.length 64 then
        s1.updConn conn (fun v => ({ v with
          rx := v.rx.put fr.stream { r with dropped := r.dropped + 1 }, heard := fr.stream } : Connector).control r.credits s.stamp)
      else
        let cut := cutPackets (r.asm.length + fr.payload.length) (r.asm ++ fr.payload)
        let credits := grantedCredits fr.stream - ceilDiv cut.2.length 64
        let s2 := s1.updConn conn (fun v => ({ v with
          rx := v.rx.put fr.stream { r with next := r.next + 1, skipping := false, asm := cut.2, credits := credits }
          heard := fr.stream } : Connector).control (credits - (r.credits - ceilDiv fr.payload.length 64)) s.stamp)
        cut.1.foldl (fun (t : State) b => t.packetDone conn b) s2)

/-- LINK_CONTROL_FRAME (R314, R316): a link control frame delivers acknowledgements and credits. -/
def execLinkControlFrame (conn : Nat) (fr : Frame) (s : State) : Out :=
  .next (if s.powered && (s.conn conn).carries && fr.crcOk && fr.payload.isEmpty then s.frameHead conn fr else s)

/-- R315: the frames of a stream that the retry buffer holds from number `q` on. -/
def Connector.retryFrom (v : Connector) (stream : Nat) (q : Word) : List (Word × List Byte) :=
  ((v.tx.find stream {}).unacked.map (fun e => e.2.cut v.link e.1)).flatten.filter (fun f => seqUpTo f.1 q)

/-- Table 11-1: a nak as a frame. -/
def nakAsFrame (n : NakHead) (stream : Nat) : Frame :=
  { stream := stream, seq := n.expected, ack := n.ack, ackStream := n.ackStream, creditStream := n.creditStream
    credit := n.credit, payload := [], crcOk := n.crcOk }

/-- NAK_FRAME (R314, R315): a nak makes the module resend, from the number expected, what its retry buffer holds; its acknowledgement
and credits count like those of any frame. -/
def execNakFrame (conn : Nat) (stream : Nat) (n : NakHead) (s : State) : Out :=
  .next (if !(s.powered && (s.conn conn).carries && n.crcOk) then s
    else
      let s1 := s.frameHead conn (nakAsFrame n stream)
      if !decide (stream = 2 ∨ stream = 3 ∨ stream = 4) then s1
      else
        let again := (s1.conn conn).retryFrom stream n.expected
        s1.updConn conn (fun v => ({ v with lastTx := if again.isEmpty then v.lastTx else s.stamp } : Connector).sendFrames stream again))

/-- IDLE_FRAME_TIMER (R317): a link control frame is sent when no frame has been sent for 10 µs. -/
def execIdleFrameTimer (conn : Nat) (s : State) : Out :=
  let v := s.conn conn
  .next (if s.powered && v.carries && decide (10000 ≤ s.since v.lastTx) then
      s.updConn conn (fun v => v.control 0 s.stamp)
    else s)

/-! Coming up (R317 to R319). -/

/-- R319, Table 11-4: the link versions of the module, highest first. -/
def linkVersions : List Nat := [0x0202, 0x0201, 0x0200, 0x0101, 0x0100]

/-- R318: the highest link version in both ranges. -/
def commonLink (lo hi : BitVec 16) : Option Nat :=
  linkVersions.find? (fun x => decide (lo.toNat ≤ x) && decide (x ≤ hi.toNat))

/-- R363, R423: whether the serialisers run: the module is powered, its timebase locked and its loads not shed. -/
def State.serialisers (s : State) : Bool := s.powered && s.clock.running && !s.mod.powerFail

/-- Table 11-3: the module's hello: its range of link versions, its credits for streams 0 to 5. -/
def helloBytes : List Byte :=
  leBytes 2 0x0100 ++ leBytes 2 0x0202 ++ ((List.range 6).map (fun k => leBytes 4 (grantedCredits k))).flatten ++ leBytes 4 0

/-- R318, R319: a hello goes out. -/
def Connector.greet (v : Connector) (now : U64) : Connector :=
  { v with helloAt := now, helloSent := v.helloSent + 1, lastTx := now, heads := v.framed 4 0 0 0 helloBytes }

/-- CONNECTOR_TRAINED (R318): lane training of a connector completes and the module sends its hello; with no timebase no
serialiser runs and none trains (R363). -/
def execConnectorTrained (conn : Nat) (s : State) : Out :=
  let v := s.conn conn
  .next (if s.serialisers && decide (conn < 2) && !v.trained then
      s.updConn conn (fun v => ({ v with
        up := true, trained := true, hello := false, lanes := 0xF, width := 4, link := 0, lastRx := s.stamp
        rx := .empty, heads := [], heard := 0 } : Connector).greet s.stamp)
    else s)

/-- R315, R317: streams right after the hello exchange: numbers at 0, retry buffers empty, and the credits of both hellos. What
a retry buffer held waits again, since it was never received. -/
def Connector.restarted (c : Connector) (credits : List Nat) : Connector :=
  { c with
    rx := [0, 1, 5].foldl (fun (m : Map RxStream) k => m.put k { credits := grantedCredits k }) .empty
    tx := [2, 3, 4].foldl (fun (m : Map TxStream) k =>
      let t := ((c.tx.find k {}).requeued)
      m.put k { queue := t.queue, credits := credits.getD k 0 }) .empty }

/-- HELLO (R318, R319): a hello frame negotiates the link version and the initial credits; with no common version no other
frame is carried. A connector locked after three failed authentications accepts none (R347). -/
def execHello (conn : Nat) (lo hi : BitVec 16) (credits : List Nat) (s : State) : Out :=
  let v := s.conn conn
  .next (if !s.serialisers || !v.up || !v.trained || v.hello || v.lockUntil.isSome then s
    else match commonLink lo hi with
      | none => s.updConn conn (fun v => { v with lastRx := s.stamp })
      | some x => s.updConn conn (fun v => { v.restarted credits with
          hello := true, link := BitVec.ofNat 16 x, lastRx := s.stamp, naksSent := [], heard := 0 }))

/-- HELLO_RETRY (R319): with no common link version, the hello is repeated every 1 ms. -/
def execHelloRetry (conn : Nat) (s : State) : Out :=
  let v := s.conn conn
  .next (if s.serialisers && v.up && v.trained && !v.hello && decide (10 ^ 6 ≤ s.since v.helloAt) then
      s.updConn conn (fun v => v.greet s.stamp)
    else s)

/-! Going down (R317, R338, R339). -/

/-- R337: whether a standby session may take over from the active one of connector `c`. -/
def State.standbyWaits (s : State) (c : Nat) : Bool :=
  let v := s.conn (1 - c)
  !(s.conn c).sess.standby && v.carries && v.sess.live && v.sess.standby

/-- R317, R338: a connector goes down: part-received packets are lost, what was sent and not acknowledged waits; below link
2.2 its session ends, else it may be resumed for 60 s. One from which a standby session may take over lasts as long too (log 199). -/
def State.connDown (s : State) (c : Nat) : State :=
  let link := (s.conn c).link
  let s1 := s.updConn c (fun v => { v with
    up := false, trained := false, hello := false, clkValid := false
    rx := v.rx.mapVals (fun _ r => { r with asm := [] }), tx := v.tx.mapVals (fun _ t => t.requeued) })
  if !(s.conn c).sess.isOpen then s1
  else if link.toNat < 0x0202 ∧ !s1.standbyWaits c then s1.endSession c
  else
    let t := (s1.conn c).tx.find 2 {}
    let tr := trimReports t.queue.length t.queue
    let s2 := s1.updConn c (fun v => { v with tx := v.tx.put 2 { t with queue := tr.1 } })
    ({ s2 with alaok := { s2.alaok with discards := s2.alaok.discards + tr.2 } } : State).updSess c (fun v => { v with
      resumeBy := some (BitVec.ofNat 64 (s.now + 60 * 10 ^ 9)) })

/-- CONNECTOR_DOWN (R317): a connector loses lock, or receives no valid frame for 1 ms, and goes down. -/
def execConnectorDown (conn : Nat) (s : State) : Out :=
  .next (if s.powered && (s.conn conn).up then s.connDown conn else s)

/-- R317: the lanes that a connector runs on once one has failed: 2, or 1. -/
def laneWidth (left : BitVec 4) : Nat := if 2 ≤ ((List.range 4).filter (fun i => left.getLsbD i)).length then 2 else 1

/-- CONNECTOR_LANE_FAILURE (R317): a lane fails; from link 1.1 on the connector keeps running on 2 lanes or 1, on 1.0 it goes
down. -/
def execConnectorLaneFailure (conn lane : Nat) (s : State) : Out :=
  let v := s.conn conn
  .next (if !s.powered || !v.up || decide (4 ≤ lane) || !v.lanes.getLsbD lane then s
    else
      let left := v.lanes &&& ~~~ BitVec.twoPow 4 lane
      let s1 := s.updConn conn (fun v => { v with lanes := left, width := laneWidth left })
      if left = 0 ∨ v.link = 0x0100 then s1.connDown conn else s1)

/-! The control node's clock (R407). -/

/-- NODE_CLOCK_OFFSET (R407): on link 2.1 and later, at session start and every 1 s, the offset and drift of the control node's
clock are measured as for a port. -/
def execNodeClockOffset (conn : Nat) (exchanges : List (U64 × U64 × U64 × U64)) (s : State) : Out :=
  let v := s.conn conn
  let due := !v.clkValid || decide (10 ^ 9 ≤ s.since v.clkAt)
  .next (if !s.powered || !v.carries || !v.sess.isOpen || decide (v.link.toNat < 0x0201) || !due
      || decide (exchanges.length ≠ 8) then s
    else match keptExchange exchanges with
      | none => s
      | some e =>
        let o := exchangeOffset e
        s.updConn conn (fun v => { v with
          clkValid := true, clkOffset := o, clkAt := e.1, clkAsym := 1 + Config.nodeClockAsym
          clkDrift := if v.clkValid then driftPpb v.clkOffset v.clkAt.toNat o e.1.toNat else 0 }))

end Sys2Proof.Machine
end

