-- ==== Sys2Proof/Machine/Power.lean ====
section
/-! DEFINITION. The signal box's power, heat and pace (R29 to R37, R223 to R233, R240 to R243, R251, R252): grants, throttle
steps, triggers, limit drops up to their boundary, replans, and the isolation of a field. -/

namespace Sys2Proof.Machine

/-! Grants (R224) and steps (R225). -/

/-- R224: divides a budget among fields (field, cap), lowest cap first: a field whose cap its share reaches gets the cap, and
the rest is divided again; each grant rounded down to 1 W. -/
def fillShares : Nat → List (Nat × Nat) → List (Nat × Nat)
  | _, [] => []
  | b, (f, c) :: t =>
    if c * (t.length + 1) ≤ b then (f, c) :: fillShares (b - c) t
    else ((f, c) :: t).map (fun x => (x.1, b / (t.length + 1)))

/-- R224, R36: the fields among which the budget is divided: the holding fields, or with none every service field. -/
def State.grantFields (s : State) : List Nat :=
  let h := s.holdingFields
  if h.isEmpty then s.serviceFields else h

/-- R225: the base step of a field, from its equal share. -/
def State.baseStepOf (s : State) (f : Nat) : Nat :=
  let n := if s.grantFields.contains f then s.grantFields.length else s.serviceFields.length
  baseStep (if n = 0 then 0 else ceilDiv s.budget.inForce n)

/-- R225: the step of a field at its throttle count. -/
def State.stepOf (s : State) (f : Nat) : Nat := Nat.min 7 (s.baseStepOf f + (s.power f).t)

/-- R36, R224: the grants of a rebalance, by field; a field not among them gets 0. While no field holds cores of an edition every
one has the default share; a step's cap holds throughout (R225). -/
def State.grants (s : State) : List (Nat × Nat) :=
  if s.holdingFields.isEmpty then s.serviceFields.map (fun f => (f, Nat.min s.defaultShare (stepCap (s.stepOf f))))
  else fillShares s.budget.inForce (sortBy Prod.snd (s.grantFields.map (fun f => (f, stepCap (s.stepOf f)))))

/-- R224: a field's grant in a rebalance. -/
def State.grantOf (s : State) (f : Nat) : Nat := (((s.grants.find? (fun x => x.1 = f)).map Prod.snd)).getD 0

/-- R36, R224: a field's grant when it alone changes: what a rebalance would give, and no more than the others leave. -/
def State.grantAlone (s : State) (f : Nat) : Nat :=
  let others := ((s.serviceFields.filter (fun g => g ≠ f)).map (fun g => (s.power g).grant)).sum
  Nat.min (s.grantOf f) (Nat.max (s.power f).grant (s.budget.inForce - others))

/-- R225, R33: the setpoint of a field at a step: 0.75 V, or the higher one that a pace fault asked for, held to the step's
highest. -/
def FieldPower.setpointAt (p : FieldPower) (step : Nat) : Nat := Nat.min (p.raised.getD 2) (stepSetpoint step)

/-- R31: the planned column of a field now: the first column whose limit is not below the planning temperature. -/
def State.bandNow (s : State) (f : Nat) : Nat := bandOf (planningCode s.budget.rhoPlan (s.field f))

/-! Limit drops (R229, R232). -/

/-- R229: whether a field's grant, setpoint or floor falls, or its current limits do. -/
def Limits.fall (old new : Limits) : Bool :=
  decide (new.grant < old.grant) || decide (new.setpoint < old.setpoint) || decide (old.step < new.step)
    || decide (paceFloor new.setpoint new.band < paceFloor old.setpoint old.band)

/-- The limits a field is to have at its throttle count, with a grant. -/
def State.target (s : State) (f grant : Nat) : Limits :=
  { step := s.stepOf f, grant := Nat.min grant (stepCap (s.stepOf f)), setpoint := (s.power f).setpointAt (s.stepOf f)
    band := s.bandNow f }

/-- Table 8-4 phases 2 and 4: ns of the decision at its bound, and from its end to the boundary. -/
def decideNs : Nat := 2000
def chooseNs : Nat := 4000

/-- R229, R232: decides new limits for fields, to be applied at the first boundary that begins `wait` ns or more from now; what was
decided before and is due earlier stands until then. -/
def State.setLimits (s : State) (l : List (Nat × Limits)) (wait : Nat) : State :=
  l.foldl (fun (t : State) (x : Nat × Limits) => t.updPower x.1 (fun p => { p with
    drops := p.drops.filter (fun d => d.due.toNat < s.now + wait) ++ [{ due := BitVec.ofNat 64 (s.now + wait), limits := x.2 }] })) s

/-- The fields of a decision whose limits differ from those they will have anyway. -/
def State.changed (s : State) (l : List (Nat × Limits)) : List (Nat × Limits) :=
  l.filter (fun x => (s.power x.1).nextLimits ≠ x.2)

/-- R229: the decision after an event on one field; a fall leaves the timetable 4,000 ns after the decision, and event-driven
drops use hardware mode (R233). -/
def State.decideField (s : State) (f : Nat) : State :=
  if !s.limited f then s
  else
    let l := s.changed [(f, s.target f (s.grantAlone f))]
    let falls := l.any (fun x => (s.power x.1).limits.fall x.2)
    s.setLimits l (decideNs + (if falls then chooseNs else 0))

/-- R233: the hardware proposal of a planned drop for a partition: the entries that each window of an edition must release. -/
def State.proposal (s : State) (p : Nat) (l : List (Nat × Limits)) : List (Nat × Nat × Nat) :=
  let t := s.withLimits l
  (s.editions.entries.filter (fun (e : Nat × Edition) => e.2.partition = p ∧ e.2.carries)).foldl (fun acc e =>
    let limit := (t.entryLimitOf e.1 t.planW).2
    acc ++ ((List.range (64 * e.2.frame)).map (fun i => s.plan.window + 1 + i)).filterMap (fun n =>
      if limit < s.load e.1 n then some (e.1, n, s.load e.1 n - limit) else none)) []

/-- R229, R232, R233: the decision of a rebalance or a command. What rises takes effect at the next boundary past the decision; for
what falls, partitions that choose for themselves are asked, and the boundary then follows the answer or 200 µs. -/
def State.decideAll (s0 : State) : State :=
  let l := s0.changed (s0.serviceFields.map (fun f => (f, s0.target f (s0.grantOf f))))
  let falls := l.filter (fun x => (s0.power x.1).limits.fall x.2)
  let s := s0.setLimits (l.filter (fun x => !(s0.power x.1).limits.fall x.2)) decideNs
  if falls.isEmpty then s
  else
    let parts := (List.range partitionCount).filter (fun p => s.assisted p 6 &&
      falls.any (fun x => (s.fieldParts x.1).contains p) && !(s.proposal p l).isEmpty)
    let asked := parts.filter s.assistRoom
    let s1 := (parts.filter (fun p => !s.assistRoom p)).foldl (fun (t : State) p => t.countPart p pcAssistLate 1) s
    let s2 := asked.foldl (fun (t : State) p =>
      let q := s.proposal p l
      t.sendAssist { fn := 6, partition := p, deadline := t.assistBy 6, entries := q } 0xFFFFFFFF
        (Config.layout opAssist (6 :: q.flatMap (fun x => [x.2.1, x.2.2])))) s1
    let s3 := s2.setLimits falls (decideNs + (if asked.isEmpty then 0 else assistNs 6) + chooseNs)
    if asked.isEmpty then s3 else falls.foldl (fun (t : State) x => t.updPower x.1 (fun p => { p with
      drops := p.drops.map (fun d => if d.limits = x.2 then { d with asked := true } else d) })) s3

/-- GRANT_REBALANCE (R224): every 100 ms, or after a change of the budget or of the holding fields. -/
def execGrantRebalance (s : State) : Out :=
  let due := (match s.plan.lastRebalance with
    | none => true
    | some t => decide (100 * 10 ^ 6 ≤ s.since t)) || decide (s.plan.rebalanced ≠ some (s.budget.inForce, s.holdingFields))
  .next (if s.serving && due then
    ({ s with plan := { s.plan with
        lastRebalance := some s.stamp, rebalanced := some (s.budget.inForce, s.holdingFields) } } : State).decideAll
  else s)

/-! Triggers (R226 to R228). -/

/-- R228: raises a field's throttle count to at least `n`, and decides; while the sequence lasts, the count it began at is kept, with
the events that have counted one up from it. -/
def State.raiseT (s : State) (f n : Nat) : State :=
  let from0 := (s.power f).seqT.getD ((s.power f).t, [])
  let s1 := (s.updPower f (fun p => { p with
    t := Nat.min 7 (Nat.max p.t n), lastTrigger := s.stamp, lowerT := false })).decideField f
  s1.updPower f (fun p => { p with seqT := if p.drops.isEmpty then none else some from0 })

/-- R228, Table 8-12: the count from which an event, by its row of Table 8-3, counts one up: events of several rows active together
make one sequence, to the lowest step of them; one that comes again, in a later round or millisecond, counts from what it made. -/
def FieldPower.baseT (p : FieldPower) (row : Nat) : Nat :=
  match p.seqT with
  | some (b, rows) => if rows.contains row then p.t else b
  | none => p.t

/-- R228: an event of a row takes its part in the sequence in progress, or begins one. -/
def FieldPower.joinSeq (p : FieldPower) (row : Nat) : FieldPower :=
  { p with seqT := some (p.baseT row, match p.seqT with
      | some (_, rows) => if rows.contains row then [row] else row :: rows
      | none => [row]) }

/-- R228: the rows of Table 8-3 that count one up, and the short that clears (R251). -/
def rowRate : Nat := 0
def rowHot : Nat := 1
def rowCurrent : Nat := 2
def rowTransient : Nat := 3

/-- R228: an event that counts the throttle count one up. -/
def State.bumpT (s : State) (f row : Nat) : State :=
  (s.updPower f (fun p => p.joinSeq row)).raiseT f ((s.power f).baseT row + 1)

/-- Whether a field's converter runs and no isolation stands. -/
def State.runs (s : State) (f : Nat) : Bool :=
  s.powered && fieldExists f && (s.power f).converterOn && decide ((s.power f).iso = .none)

/-- CURRENT_TRIGGER (R226): the converter's current is above the planned limit over 10 µs: t + 1. -/
def execCurrentTrigger (f : Nat) (s : State) : Out := .next (if s.runs f then s.bumpT f rowCurrent else s)

/-- THROTTLE_RECOVERY (R227): after 10 ms with no trigger, a low rate of rise and cool sensors, t falls by 1 at a boundary; too few
working sensors are a trigger that lasts. -/
def execThrottleRecovery (f : Nat) (s : State) : Out :=
  let p := s.power f
  .next (if s.runs f && decide (0 < p.t) && decide (10 ^ 7 ≤ s.since p.lastTrigger) && decide (10 ^ 7 ≤ s.since p.lastLower)
      && decide (p.rate ≤ 800 * (s.budget.rhoPlan : Int)) && decide ((s.field f).hottest ≤ degCode 85)
      && decide (5 ≤ (s.field f).working.length) then
    s.updPower f (fun p => { p with lowerT := true })
  else s)

/-- FEED_POWER_OVER (R228): for each ms that input power exceeds its limit, R rises by 600 W. -/
def execFeedPowerOver (watts : Nat) (s : State) : Out :=
  let due := match s.budget.overAt with
    | none => true
    | some t => decide (10 ^ 6 ≤ s.since t)
  .next (if s.powered && due && decide (s.budget.powerLimit < watts) then
    { s with budget := { s.budget with red := s.budget.red + 600, overAt := some s.stamp } }
  else s)

/-- R255: whether the last dip of the feed has ended: a further ms below 48 V did not follow it. -/
def State.dipEnded (s : State) : Bool := match s.budget.lowAt with
  | none => true
  | some t => decide (2 * 10 ^ 6 ≤ s.since t)

/-- FEED_LOW (R228): for each ms that the feed is below 48 V, R rises by 600 W; the event is raised as a dip begins. -/
def execFeedLow (milli : Nat) (s : State) : Out :=
  let due := match s.budget.lowAt with
    | none => true
    | some t => decide (10 ^ 6 ≤ s.since t)
  .next (if s.powered && due && decide (milli < 48000) then
    let s1 := if s.budget.feedLow && !s.dipEnded then s else s.event evFeedLow 0
    { s1 with budget := { s1.budget with red := s1.budget.red + 600, lowAt := some s.stamp, feedLow := true } }
  else s)

/-- BUDGET_RESTORE (R228): every 100 ms while input power is at most 95 % of its limit and the feed at least 49 V, R falls by
600 W. -/
def execBudgetRestore (watts milli : Nat) (s : State) : Out :=
  let last := [s.budget.overAt, s.budget.lowAt, s.budget.restoreAt].filterMap id
  .next (if s.powered && decide (100 * watts ≤ 95 * s.budget.powerLimit) && decide (49000 ≤ milli)
      && last.all (fun t => decide (100 * 10 ^ 6 ≤ s.since t)) then
    { s with budget := { s.budget with red := s.budget.red - 600, restoreAt := some s.stamp, feedLow := false } }
  else s)

/-- HOT_SENSOR_STEP (R228): t + 1 for each ms that a working sensor stays at 90 °C or above. -/
def execHotSensorStep (f : Nat) (s : State) : Out :=
  let p := s.power f
  .next (match p.hotSince with
    | none => s
    | some t =>
      if s.runs f && decide (degCode 90 ≤ (s.field f).hottest) && decide (10 ^ 6 ≤ s.since t)
          && decide (10 ^ 6 ≤ s.since p.lastHot) then
        (s.updPower f (fun p => { p with lastHot := s.stamp })).bumpT f rowHot
      else s)

/-! Isolation (R251, R252, R257, R277). -/

/-- R252: whether a section has work in a field, or a route that crosses it: to its own fields, to the next section's or to the
gate field. -/
def State.sectCrosses (s : State) (ed sect f : Nat) : Bool :=
  let mine := s.sectFields ed sect
  let next := mine ++ s.sectFields ed (sect + 1) ++ [gateField]
  mine.contains f || mine.any (fun a => next.any (fun b => (s.route a b).contains f))

/-- R252: every slot of the sections that a field's isolation reaches is suspect. -/
def State.failWindow (s : State) (f : Nat) : State :=
  { s with plan := { s.plan with slots := s.plan.slots.map (fun x =>
    if s.sectCrosses x.edition x.sect f then { x with causes := insertNat 0x07 x.causes } else x) } }

/-- Table 8-11 phases 4 and 5: the converter turns off and the neighbours close the field's boundary; a packet that has
not wholly crossed it is discarded (R252), and accesses to the stacks that the field attaches are void from here on (R257). -/
def State.switchOff (s : State) (f : Nat) : State :=
  let s1 := (s.updField f (fun v => { v with fenced := true })).updPower f (fun p => { p with
    iso := .off, isoAt := s.stamp, converterOn := false, foldBack := none })
  let s1 := (s1.attachedStacks f).foldl (fun (t : State) k => t.updStack k (fun v => { v with cut := true })) s1
  { s1 with plan := { s1.plan with edges := s1.plan.edges.filter (fun e => !(s.edgeRoute e).contains f) } }

/-- CONVERTER_FOLD_BACK (R226): the current is held at the hard limit; a fold-back before it has ended. -/
def execConverterFoldBack (f : Nat) (s : State) : Out :=
  .next (if s.runs f then s.updPower f (fun p => { p with foldBack := some s.stamp }) else s)

/-- FOLD_BACK_TIMEOUT (R226): a fold-back that lasts 2,000 ns starts the isolation. -/
def execFoldBackTimeout (f : Nat) (s : State) : Out :=
  .next (match (s.power f).foldBack with
    | none => s
    | some t => if s.powered && fieldExists f && decide (2000 ≤ s.since t) then s.switchOff f else s)

/-- R243: whether a field's rail is gated: from its entry into DARK to the start of its wake. -/
def State.railGated (s : State) (f : Nat) : Bool := decide ((s.field f).sleep = .dark) && (s.field f).wakeAt.isNone

/-- SHORT_DETECT (R251 phase 1): current above the hard limit, or the rail below 0.5 V while enabled. -/
def execShortDetect (f amps milli : Nat) (s : State) : Out :=
  .next (if s.runs f && (decide ((s.power f).hard < amps) || (decide (milli < 500) && !s.railGated f)) then
    s.updPower f (fun p => { p with iso := .detected, isoAt := s.stamp, isoAmps := amps, isoMilli := milli })
  else s)

/-- ISOLATION_CONFIRM (R226, R251 phase 3): after 2,000 ns the condition persists and the field goes off, or it has cleared:
`SHORT_TRANSIENT` and t + 1. A fold-back alone that has cleared ends there (R226). -/
def execIsolationConfirm (f : Nat) (persists : Bool) (s : State) : Out :=
  let p := s.power f
  .next (if s.powered && fieldExists f && decide (p.iso = .none) && !persists then s.updPower f (fun p => { p with foldBack := none })
    else if !s.powered || !fieldExists f || p.iso ≠ .detected || s.since p.isoAt < 2000 then s
    else if persists then s.switchOff f
    else ((s.updPower f (fun p => { p with iso := .none, foldBack := none })).event evShortTransient (f * 2 ^ 15)).bumpT f rowTransient)

/-- R257, R277: the stacks that a field attaches, or was to attach after a failover still pending, lose that link: their accesses
complete void until the other link is active; with that one gone too the stack is lost, and shards staged there become missing. -/
def State.detachStacks (s : State) (f : Nat) : State :=
  ((List.range stackCount).filter (fun k => s.attachField k = some f
      || ((s.stack k).switchAt.isSome && decide (s.otherAttach k = f)))).foldl (fun (t : State) k =>
    if t.attachField k = some f && t.carries (t.otherAttach k) then
      (t.updStack k (fun v => { v with cut := false, switchAt := some (BitVec.ofNat 64 (t.now + 50000)) })).keepFromCold
        (t.otherAttach k)
    else
      let t1 := t.updStack k (fun v => { v with link := .lost, cut := false, switchAt := none })
      (t1.editions.entries.foldl (fun (u : State) (x : Nat × Edition) =>
        if x.2.state = .building ∧ (((t1.part x.2.partition).regions.find x.2.staging {}).onStack k).length ≠ 0 then
          u.unstage x.1 (u.stagedWaiting x.1)
        else u) t1).event evStackLost k) s

/-- FIELD_ISOLATED (R251 phases 6 to 8, R252, R253): the field is declared isolated: its cores count as done with a fault, the
window fails for the sections it reaches, the ledger records it, detours are loaded, and its work is lost or rebuilt (R398). -/
def execFieldIsolated (f : Nat) (s : State) : Out :=
  let p := s.power f
  .next (if !s.powered || !fieldExists f || p.iso ≠ .off then s
    else
      let s1 := (s.updPower f (fun p => { p with iso := .declared })).updField f (fun v => { v with
        detour := true, sleepTo := none, wakeAt := none, wakeWanted := false })
      let s2 := s1.overCores f coresPerField (fun t k =>
        if (t.core k).mode = .idle then t
        else t.updCore k (fun c => { c with
          mode := .faulted, contrib := some (c.contrib.getD (c.sig, true)), faultedWin := true, waitMask := none }))
      let s3 := ({ s2 with plan := { s2.plan with
        awaiting := s2.plan.awaiting.filter (fun g => g ≠ f) } } : State)
      let s4 := (s3.failWindow f).event evFieldIsolated (f * 2 ^ 15)
      let data := leBytes 4 p.isoAmps ++ leBytes 4 p.isoMilli
      let s5 := (s4.faultField f 0x0C 5 .field data).journal
        { kind := jkField, key := f, what := jwIsolated, val := (s.field f).isolations + 1 }
      let s6 := (s5.detachStacks f).reroute
      let s7 := if s6.ledger.copyA = some f then s6.copyLost false
        else if s6.ledger.copyB = some f then s6.copyLost true else s6
      s7.loseField f data)

/-! Pace (R29, R33, R370). -/

/-- R370: a monitor's scale now: the smaller of two setpoints' scales during a slew. -/
def Field.scaleNow (v : Field) (m : Nat) : Nat :=
  let sc := fun (i : Nat) => (v.monitors.find m {}).scale.find i 0
  match v.power.oldSetpoint with
  | some o => Nat.min (sc v.power.setpoint) (sc o)
  | none => sc v.power.setpoint

/-- R33: the pace of a field is below its floor: one setpoint higher from the next boundary, where its step allows it, and kept in what
is decided for later; else it is replanned without work and lost. -/
def State.paceBelow (s : State) (f : Nat) : State :=
  let p := s.power f
  if p.setpoint < 4 ∧ p.setpoint + 1 ≤ stepSetpoint p.step then
    let up := p.setpoint + 1
    s.updPower f (fun p => { p with
      raised := some up
      drops := { due := s.stamp, limits := { p.limits with setpoint := up } } :: p.drops.map (fun d => { d with
        limits := { d.limits with setpoint := Nat.min up (stepSetpoint d.limits.step) } }) })
  else (s.updPower f (fun p => { p with noWork := true })).loseField f (leBytes 4 0 ++ leBytes 4 0)

/-- PACE_MEASUREMENT (R29, R370): every 1,000 ns a field's measured pace follows from the counts of its kept monitors; one below
the floor is a fault of the field (R33). -/
def execPaceMeasurement (f : Nat) (counts : List Nat) (s : State) : Out :=
  let v := s.field f
  let due := match v.power.paceAt with
    | none => true
    | some t => decide (1000 ≤ s.since t)
  .next (if !(s.runs f && due && decide (counts.length = 16)) then s
    else
      let kept := (List.range 16).filter (fun m => (v.monitors.find m {}).kept)
      let pace := fun (m : Nat) => v.scaleNow m * counts.getD m 0 / 40960
      match leastBy pace kept with
      | none => s
      | some m =>
        let s1 := (s.updField f (fun w => { w with monitors := w.monitors.mapVals (fun i x => { x with count := counts.getD i 0 }) })).updPower
          f (fun p => { p with pace := pace m, paceAt := some s.stamp })
        if s.serving ∧ !v.power.noWork ∧ s.limited f ∧ pace m < v.power.floor then
          (s1.faultField f 0x09 0 .field (leBytes 1 m ++ leBytes 4 (counts.getD m 0))).paceBelow f
        else s1)

/-! The firing bucket (R37). -/

/-- CREDIT_REFILL (R37): at each multiple of 100 ns every bucket gets ⌊A / 10⌋ credits, up to A; a change of A takes effect. -/
def execCreditRefill (s : State) : Out :=
  .next (if !s.powered || !s.clock.running then s
    else (allFields.filter (fun f => (s.field f).power.converterOn)).foldl (fun (t : State) f => t.updPower f (fun p =>
      let due := match p.lastRefill with
        | none => s.now / 100 * 100
        | some l => l.toNat + 100
      if due ≤ s.now then
        { p with
          allow := p.allowNext, bucket := Nat.min p.allowNext (p.bucket + p.allowNext / 10)
          lastRefill := some (BitVec.ofNat 64 due) }
      else p)) s)

/-! Belfry rounds (R235, R241). -/

/-- The middle of a list of codes, in half codes. -/
def median2 (l : List Nat) : Nat :=
  let a := sortBy id l
  a.getD ((a.length - 1) / 2) 0 + a.getD (a.length / 2) 0

/-- R235: a sensor's rate of rise over 8 rounds in units of 2^-4 K per ms by 1/1000, rounded up; none before nine rounds. -/
def sensorRate (x : Sensor) (code now : Nat) : Option Int :=
  match x.hist[7]? with
  | none => none
  | some (t, c) =>
    if now ≤ t then none
    else some (-((Int.ofNat c - Int.ofNat code) * 10 ^ 9 / Int.ofNat (now - t)))

/-- R241: whether a code alone makes its sensor broken: 0x000, 0xFFF, or below -20 °C. -/
def codeBroken (code : Nat) : Bool := decide (code = 0) || decide (code = 0xFFF) || decide (code < 480)

/-- R241: a sensor after a round that read `code`, the other working sensors having read `others`. -/
def Sensor.round (x : Sensor) (code : Nat) (others : List Nat) (now : Nat) : Sensor :=
  let m := median2 others
  let far := !others.isEmpty && (decide (m + 640 < 2 * code) || decide (2 * code + 640 < m))
  let n := if far then x.devRounds + 1 else 0
  { x with
    code := code, hist := ((now, code) :: x.hist).take 8, devRounds := n
    broken := x.broken || codeBroken code || decide (8 ≤ n) }

/-- R237: the result of a conversion. -/
def blfResult (sum shift : Nat) (seq : BitVec 7) : BlfResult :=
  let v := sum / 2 ^ Nat.min shift 8
  { result := BitVec.ofNat 16 (Nat.min 0xFFFF v), sat := decide (0xFFFF < v), seq := seq, valid := true }

/-- R235: the results of a round in the belfry's registers, and the sensors they read. -/
def Field.afterRound (v : Field) (sums : List Nat) (now : U64) : Field :=
  let codes := (List.range 8).map (fun i => sums.getD i 0 / 16)
  let seq := v.belfry.roundSeq + 1
  { v with
    belfry := { v.belfry with
      res := (List.range 16).foldl (fun m i => m.put i (blfResult (sums.getD i 0) 4 seq)) v.belfry.res
      stamp := now, roundSeq := seq }
    sensors := (List.range 8).foldl (fun m i =>
      let others := ((List.range 8).filter (fun j => j ≠ i ∧ !(v.sensors.find j {}).broken ∧ !codeBroken (codes.getD j 0))).map (fun j => codes.getD j 0)
      m.put i ((v.sensors.find i {}).round (codes.getD i 0) others now.toNat)) v.sensors }

/-- The largest of some rates; 0 where there is none. -/
def topRate : List Int → Int
  | [] => 0
  | a :: t => t.foldl max a

/-- R235, R242: a field's rate of rise in a round: the largest among the sensors that work after it (`w`), by what they read before. -/
def Field.roundRate (v w : Field) (sums : List Nat) (now : Nat) : Int :=
  topRate ((List.range 8).filterMap (fun i =>
    if (w.sensors.find i {}).broken then none else sensorRate (v.sensors.find i {}) (sums.getD i 0 / 16) now))

/-- R228: the throttle count that the events of a round call for: the lowest step of them all. -/
def State.roundT (s : State) (f : Nat) (rate : Int) : Nat :=
  let p := s.power f
  let t := p.t
  let base := s.baseStepOf f
  let hot := (s.field f).hottest
  let a := if (96000 : Int) < rate then Nat.max t (6 - base) else t
  let b := if 1600 * (s.budget.rhoPlan : Int) < rate then Nat.max a (p.baseT rowRate + 1) else a
  if degCode 95 ≤ hot ∨ degCode 95 < planningCode s.budget.rhoPlan (s.field f) then Nat.max b (7 - base) else b

/-- R398, R241: a field with fewer than 5 working sensors goes to step 7 and is lost. -/
def State.sensorsGone (s : State) (f : Nat) : State :=
  if (s.field f).lost then s.updPower f (fun p => { p with lastTrigger := s.stamp })
  else
    let good := ((List.range placeCores).filter (fun c => (s.core (coreKey f c)).good)).length
    let data := leBytes 1 1 ++ leBytes 1 (s.field f).working.length ++ leBytes 1 good
    ((s.raiseT f (7 - s.baseStepOf f)).faultField f 0x11 0 .field data).loseField f data

/-- R228: what the signal box does with a round: isolation, sensors lost, the throttle count, and `THERMAL_WARN`. A rate above its limit takes its part in
the sequence in progress also where the drop of another row covers it. A field whose working
sensors leave its column is decided anew (R31); a sensor found broken counts from the next replan (R254). -/
def State.roundActs (s : State) (f : Nat) (rate : Int) (was : Nat) : State :=
  let v := s.field f
  let s0 := if was < degCode 85 ∧ degCode 85 ≤ v.hottest then s.event evThermalWarn (f * 2 ^ 15) else s
  let s1 := s0.updPower f (fun p => { p with
    rate := rate
    hotSince := if degCode 90 ≤ v.hottest then some (p.hotSince.getD s.stamp) else none
    lastTrigger := if 800 * (s.budget.rhoPlan : Int) < rate ∨ degCode 85 < v.hottest then s.stamp else p.lastTrigger })
  if (320000 : Int) < rate ∨ degCode 105 ≤ v.hottest then s1.switchOff f
  else if v.working.length < 5 then s1.sensorsGone f
  else
    let t := s1.roundT f rate
    let s2 := if 1600 * (s.budget.rhoPlan : Int) < rate then s1.updPower f (fun p => p.joinSeq rowRate) else s1
    if v.power.t < t then s2.raiseT f t
    else if v.power.nextLimits.band < bandOf (v.hottest + permittedRise s.budget.rhoPlan) then s2.decideField f
    else s2

/-- R234: whether sums of 2^n samples are of 12-bit codes. -/
def sumsOk (n : Nat) (sums : List Nat) : Bool := sums.all (fun x => decide (x ≤ 2 ^ n * 4095))

/-- BELFRY_ROUND (R235, R228, R241, R244): a round ends: its results are stamped, broken sensors are marked, and the triggers are
evaluated on the working ones. In COLD the belfry runs only on the way out of it. With a round of the gate field an attestation in
progress is done (R360, log 129). -/
def execBelfryRound (f : Nat) (sums : List Nat) (s : State) : Out :=
  let v := s.field f
  let due := decide (v.belfry.stamp = 0) || decide (128000 ≤ s.since v.belfry.stamp)
  .next (if !(s.powered && fieldExists f && v.brought && due && decide (sums.length = 16) && sumsOk 4 sums)
      || (v.sleep = .cold && v.wakeAt.isNone) || v.power.iso = .off || v.power.iso = .declared then s
    else
      let rate := v.roundRate (v.afterRound sums s.stamp) sums s.now
      let s1 := s.setField f (v.afterRound sums s.stamp)
      let newly := (List.range 8).filter (fun i => ((s1.field f).sensors.find i {}).broken && !(v.sensors.find i {}).broken)
      let s2 := newly.foldl (fun (t : State) i =>
        (t.event evSensorBroken (f * 2 ^ 15) none i).journal { kind := jkField, key := f, what := jwSensor, val := i, vals := [1] }) s1
      let s3 := if s2.serving && v.power.converterOn then s2.roundActs f rate v.hottest else s2
      if f = gateField then s3.attestDone else s3)

/-! Conversions outside the round (R236 to R239). -/

/-- Table 8-7: n of a conversion: 0 is taken as 1, above 8 as 8. -/
def convAvg (n : Nat) : Nat := Nat.max 1 (Nat.min 8 n)

/-- R236: what a write of `blf_sw` queues: channel, n and shift. -/
def swConv (v : Word) : SwConv :=
  { channel := (v.extractLsb' 0 4).toNat, avg := convAvg (v.extractLsb' 4 4).toNat, shift := Nat.min 8 (v.extractLsb' 8 4).toNat }

/-- R238: queues a conversion; a ninth is discarded and counted. -/
def State.queueConv (s : State) (f : Nat) (c : SwConv) : State :=
  if (s.field f).belfry.swQueue.length < 8 then
    s.updField f (fun v => { v with belfry := { v.belfry with swQueue := v.belfry.swQueue ++ [c] } })
  else s.countField f fcBelfryDiscards 1

/-- BLF_SW_START (R236, R238, R246): writes `blf_sw`; with `start` set, one software conversion is queued. The request wakes the
field. -/
def execBlfSwStart (h : Hdr) (f : Nat) (v : Word) (s : State) : Out :=
  .next (s.command h rowHlBelfryWrite true (fun s =>
    if !fieldExists f then .refuse stNoSuch 0 []
    else
      let s1 := s.updField f (fun w => { w with belfry := { w.belfry with sw := v &&& 0x00000FFF } })
      .run (((if v.getLsbD 12 then s1.queueConv f (swConv v) else s1).beginWake f).ok h)))

/-- R239: whether the belfry may write a result word of core `k` at `a`: an aligned word of the scratchpad outside the areas of
the write guard. -/
def State.resultAddrOk (s : State) (k a : Nat) : Bool :=
  decide (a % 4 = 0) && decide (a + 4 ≤ spBytes) && !(s.core k).guarded a 4

/-- BELFRY_CONVERSION_REQUEST (R239): the oldest message to a field's belfry queues a conversion for the posting core. -/
def execBelfryConversionRequest (f : Nat) (s : State) : Out :=
  .next (match (s.field f).blfInbox with
    | [] => s
    | (k, b) :: rest =>
      let s1 := s.updField f (fun v => { v with blfInbox := rest })
      let a := natAt b 4 4
      if natAt b 0 1 = 0x20 ∧ s.resultAddrOk k a then
        s1.queueConv f { channel := natAt b 1 1 % 16, avg := convAvg (natAt b 2 1), shift := Nat.min 8 (natAt b 3 1)
                         core := some (k % coresPerField), addr := a }
      else s1.countField f fcBelfryDiscards 1)

/-- Table 8-7: the bits of a result register. -/
def BlfResult.word (r : BlfResult) : Word :=
  BitVec.ofNat 32 (r.result.toNat + r.sat.toNat * 2 ^ 16 + r.seq.toNat * 2 ^ 24 + r.valid.toNat * 2 ^ 31)

/-- SOFTWARE_CONVERSION_DONE (R238, R239): the oldest queued conversion finishes: its result goes to `blf_sw_res`, or to the
posting core's result word, bytes 0 to 2 first. -/
def execSoftwareConversionDone (f sum : Nat) (s : State) : Out :=
  let v := s.field f
  .next (match v.belfry.swQueue with
    | [] => s
    | c :: rest =>
      if !s.powered || v.sleep = .cold || !sumsOk c.avg [sum] then s
      else
        let seq := v.belfry.swSeq + 1
        let r := blfResult sum c.shift seq
        let s1 := s.updField f (fun v => { v with belfry := { v.belfry with swQueue := rest, swSeq := seq } })
        match c.core with
        | none => s1.updField f (fun v => { v with belfry := { v.belfry with swRes := r } })
        | some n =>
          let k := coreKey f n
          let b := (leBytes 4 r.word.toNat).map (fun x => (x, false))
          (s1.spWrite k c.addr (b.take 3)).spWrite k (c.addr + 3) (b.drop 3))

/-- URGENT_CONVERSION (R238): a conversion that the converter or the signal box asks for runs after the one in progress. -/
def execUrgentConversion (f channel avg shift sum : Nat) (s : State) : Out :=
  .next (if s.powered && fieldExists f && decide ((s.field f).sleep ≠ .cold) && decide (channel < 16) && decide (avg ≤ 8)
      && decide (sum ≤ 2 ^ avg * 4095) then
    s.updField f (fun v => { v with belfry := { v.belfry with
      urgent := v.belfry.urgent.put channel (blfResult sum shift 0).result } })
  else s)

/-! Replans (R240). -/

/-- The window in which a request next enters section 0, if the timetable plans one. -/
def State.nextEntry (s : State) (r : Req) : Option Nat :=
  if !r.active then none
  else
    let l := r.prefill.filter (fun x => s.plan.window < x.1)
    let v := if r.period = 0 then none
      else if s.plan.window < r.nextVisit then some r.nextVisit
      else some (r.nextVisit + ceilDiv (s.plan.window + 1 - r.nextVisit) r.period * r.period)
    match (leastBy Prod.fst l).map Prod.fst, v with
    | some a, some b => some (Nat.min a b)
    | some a, none => some a
    | none, b => b

/-- R243: the windows from now to a field's next window with work. -/
def State.workAhead (s : State) (f : Nat) : Option Nat :=
  let sects := fun (e : Nat) => (List.range (s.edition e).sections).filter (fun i => (s.sectFields e i).contains f)
  let inFlight := s.plan.slots.flatMap (fun x => ((sects x.edition).filter (fun i => x.sect ≤ i)).map (fun i => i - x.sect))
  let replays := s.plan.replays.map (fun r => r.due - s.plan.window)
  let coming := s.reqs.vals.flatMap (fun r => match s.nextEntry r with
    | some n => (sects r.edition).map (fun i => n - s.plan.window + i)
    | none => [])
  leastBy id (inFlight ++ replays ++ coming)

/-- R243: the events other than planned work and scrub passes that a field must be awake for, as ns from now. -/
def State.jobsAhead (s : State) (f : Nat) : List Nat :=
  let units := (s.cores.entries.filter (fun (c : Nat × Core) => c.1 / coresPerField = f)).flatMap (fun c => c.2.engines.vals)
  let arrays := units.flatMap (fun e => e.arrays.vals)
  (if units.any (fun e => !e.rowsLeft.isEmpty || e.agentBusy) then [0] else [])
  ++ arrays.filterMap (fun a => if a.state = 0 then
      some (if 10 ≤ ((s.field f).meanTemp - a.tTrim).natAbs then 0 else a.sampledAt.toNat + 3600 * 10 ^ 9 - s.now) else none)
  ++ arrays.flatMap (fun a => (a.jobRows.filter (fun r => !a.verified.contains r)).map (fun r =>
      (a.progAt.find r 0).toNat + settleNs - s.now))
  ++ units.filterMap (fun e => e.refresh.map (fun r => if r.phase = 4 then r.settleAt.toNat - s.now else 0))
  ++ (if s.mod.tests.any (fun t => t.units.any (fun u => unpackField u = f)) then [0] else [])

/-- R243: the events other than planned work of a field: with the scrub pass of R244. -/
def State.eventsAhead (s : State) (f : Nat) : List Nat :=
  s.jobsAhead f ++ (if (s.field f).sleep = .dark then [(s.field f).darkSince.toNat + darkScrubNs - s.now] else [])

/-- R243: ns from now to the release of a field's next window with work, where one is known. -/
def State.nextWork (s : State) (f : Nat) : List Nat :=
  match s.workAhead f with
  | some n => [s.plan.tNext.toNat + (n - 1) * s.plan.wNext - s.now]
  | none => []

/-- R243: ns from now to the earliest known event of a field: the release of its next window with work, or another event; so long
that every state is allowed where nothing is known. -/
def State.nextEvent (s : State) (f : Nat) : Nat :=
  (leastBy id (s.nextWork f ++ s.eventsAhead f)).getD (10 ^ 15)

/-- R245: whether the wake of a field for its next known event is due: the event is at most the wake time, and what is left of an entry in
progress, and 1,000 ns away. -/
def State.wakeDue (s : State) (f : Nat) : Bool :=
  let v := s.field f
  let wait := match v.sleepTo with
    | some (z, t) => t.toNat - s.now + z.wakeNs v.resident
    | none => v.sleep.wakeNs v.resident
  (s.nextWork f ++ s.jobsAhead f).any (fun g => decide (g ≤ wait + 1000))

/-- FIELD_WAKE (R245): the wake of a sleeping field starts for a known event. -/
def execFieldWake (f : Nat) (s : State) : Out :=
  .next (if s.powered && fieldExists f && decide ((s.field f).sleep ≠ .lit ∨ (s.field f).sleepTo.isSome) && s.wakeDue f then
    s.beginWake f
    else s)

/-- R243: the gap of a field: from the end of its last planned work to the earliest known event. -/
def State.sleepGap (s : State) (f : Nat) : Nat := s.nextEvent f + s.since (s.field f).workEnd

/-- R243, R244: puts a field without planned work into the deepest state that its gap allows. -/
def State.sleepField (s : State) (f : Nat) : State :=
  let v := s.field f
  if v.sleepTo.isSome ∨ v.wakeAt.isSome ∨ !v.power.converterOn ∨ v.fenced ∨ s.workAhead f = some 0 then s
  else if v.scrubWake then (s.updField f (fun v => { v with scrubWake := false })).beginSleep f .dark
  else
    let z := s.chooseSleep f (s.sleepGap f)
    if v.sleep.depth < z.depth then s.beginSleep f z else s

/-- R240, R31, R142, R243: planning temperatures, floors and their columns, programming concurrency, and sleep choices; a planning
temperature above 95 °C parks the field (R228). -/
def State.replan (s : State) : State :=
  let s0 : State := { s with plan := { s.plan with lastReplan := some s.stamp } }
  let s1 := (allFields.filter s0.limited).foldl (fun (t : State) f =>
    if !t.runs f then t
    else if degCode 95 < planningCode t.budget.rhoPlan (t.field f) ∧ (t.power f).t < 7 - t.baseStepOf f then
      t.raiseT f (7 - t.baseStepOf f)
    else if t.bandNow f ≠ (t.power f).nextLimits.band then t.decideField f
    else t) s0
  let s2 := s1.setConc allFields
  let s3 := allFields.foldl (fun (t : State) f => t.agentsOf f) s2
  allFields.foldl (fun (t : State) f => t.sleepField f) s3

/-- REPLAN (R240): the module replans; during a stop that waits for the release (R418). -/
def execReplan (s : State) : Out := .next (if s.serving && !s.stopHolds then s.replan else s)

end Sys2Proof.Machine
end

