-- ==== Sys2Proof/Machine/Gather.lean ====
section
/-! DEFINITION. The end of a window: done reports and holds (R21, R23, R393), messages to the signal box (R247, R250, R379), hand-off
and reduction packets (R81, R120, R298 to R300), pair digests (R390 to R392), suspect passes (R380 to R383, R395) and what a
replay brings back (R385). -/

namespace Sys2Proof.Machine

/-! Done reports and holds. -/

/-- The cores of a field with work in the window in progress. -/
def State.working (s : State) (f : Nat) : List Nat :=
  ((List.range coresPerField).map (coreKey f)).filter (fun k => (s.core k).mode ≠ .idle)

/-- DONE_REPORT (R21, R119, R274): a field whose cores have all contributed, its hand-off writes acknowledged, reports done. -/
def execDoneReport (f : FieldMsg) (s : State) : Out :=
  .next (if s.powered && !(s.field f.field).stopArrived && s.mod.state ≠ .stopped && s.plan.awaiting.contains f.field
      && (s.working f.field).all (fun k => (s.core k).contrib.isSome)
      && !s.plan.edges.any (fun e => decide (e.src / coresPerField = f.field)) then
    (({ s with plan := { s.plan with awaiting := s.plan.awaiting.filter (fun g => g ≠ f.field) } } : State).updField f.field (fun v => { v with
      workEnd := s.stamp })).ctlRetries f.field f.retries
  else s)

/-- R129: whether a field reports a debug halt. -/
def State.fieldHalted (s : State) (f : Nat) : Bool :=
  (s.working f).any (fun k => decide ((s.core k).mode = .halting ∨ (s.core k).mode = .halted))

/-- R21, R379, R381: whether the gather still waits: for a done report, or for a sample message or marks that a core posted before
its `wend`. -/
def State.gatherWaits (s : State) : Bool :=
  !s.plan.awaiting.isEmpty || !s.mod.sampler.isEmpty || s.mod.signal.any (fun m => decide (natAt m.2 0 1 = 0x10))

/-- R283: whether planned fabric traffic waits for a port that retrains: a packet of it is held there, or a planned collective's links
lead through it. -/
def State.retrainHolds (s : State) : Bool :=
  (List.range portCount).any (fun n => (s.port n).retrain && ((s.port n).retry.any FabPkt.planned
    || s.plannedJobs.any (fun j => j.near.any (fun r => decide (s.rankPort j r = some n)))))

/-- BOUNDARY_HOLD (R23, R129, R269, R283, R414): the timebase reaches T(n+1) before every done report: the boundary is held, and what is delivered
late carries the cause. -/
def execBoundaryHold (s : State) : Out :=
  .next (if s.inService && !s.stopHolds && s.plan.released && s.plan.holdFrom.isNone && s.gatherWaits && decide (s.plan.tNext.toNat ≤ s.now) then
    let s1 : State := { s with plan := { s.plan with holdFrom := some s.plan.tNext, held := true } }
    (s1.countModule mcHolds 1).blameAll (fun _ _ => true) (if s.plan.awaiting.any s.fieldHalted then 0x02 else if s.overran then 0x06
      else if s.retrainHolds then 0x0A else 0x01)
  else s)

/-- The cores of a field with work that have not contributed count as done with a fault. -/
def State.faultMissing (s : State) (f : Nat) : State :=
  (s.working f).foldl (fun (t : State) k =>
    if (t.core k).contrib.isSome then t
    else t.updCore k (fun c => { c with contrib := some (c.sig, true), faultedWin := true, waitMask := none, mode := .hung })) s

/-- BOUNDARY_HOLD_LIMIT (R23, R129): a hold reaches 64,000 ns with no debug halt (log 188): the missing fields have
failed and are lost. -/
def execBoundaryHoldLimit (s : State) : Out :=
  .next (match s.plan.holdFrom with
    | none => s
    | some t =>
      if !(s.inService && !s.stopHolds && decide (64000 ≤ s.since t)) || s.plan.awaiting.any s.fieldHalted then s
      else
        let data := leBytes 8 (s.since t)
        s.plan.awaiting.foldl (fun (u : State) f =>
          let u1 := (u.faultMissing f).faultField f 0x0D 0 .field data
          ({ u1 with plan := { u1.plan with awaiting := u1.plan.awaiting.filter (fun g => g ≠ f) } } : State).loseField f data) s)

/-- R393: commands of a core that have not completed: engine, spire and DMA commands and stores, one byte each. -/
def Core.outstanding (c : Core) : List Byte :=
  leBytes 1 ((c.engines.vals.map (fun e => e.queue.length + e.done.toList.length)).sum)
    ++ leBytes 1 (c.spireQ.length + c.spireDone.toList.length) ++ leBytes 1 (c.dmaQ.length + c.dmaDone.toList.length)
    ++ leBytes 1 c.stores.length

/-- HUNG_CORE (R393, R394): a core with work that has not contributed 16,000 ns after T(n+1) is hung: it counts as done with a
fault, is fenced, and is taken out of service; what it has sent and sends later is discarded, its `MARKS` counted (R400). -/
def execHungCore (c : CoreRef) (s : State) : Out :=
  let v := s.core c.key
  let base := Nat.max s.plan.tNext.toNat (s.field c.field).hungFrom.toNat
  .next (if !(c.ok && s.inService && s.plan.released) || s.stop.kind = .nowSpreading || v.mode = .idle || v.contrib.isSome
      || s.fieldHalted c.field || s.now < base + 16000 then s
    else
      let s1 := s.updCore c.key (fun w => { w with
        contrib := some (w.sig, true), faultedWin := true, fenced := true, mode := .hung, waitMask := none })
      let s2 : State := { s1 with
        plan := { s1.plan with
          edges := s1.plan.edges.filter (fun e => e.src ≠ c.key)
          digests := s1.plan.digests.filter (fun d => d.arrived || decide (s.physOf d.core ≠ c.key)) }
        mod := { s1.mod with
          signal := s1.mod.signal.filter (fun m => m.1 ≠ c.key), sampler := s1.mod.sampler.filter (fun m => m.1 ≠ c.key) } }
      let marks := (s1.mod.signal.filter (fun m => m.1 = c.key ∧ natAt m.2 0 1 = 0x10)).length
      ((s2.countField c.field fcAgentDiscards marks).faultCore c.key (packedCore c.key) 0x08 3 .core v.outstanding).takeOut (packedCore c.key) .core)

/-! Messages to agent 0x00 (Table 8-10). -/

/-- The oldest message of a kind that a core posted, taken off. -/
def State.takeSignal (s : State) (k kind : Nat) : Option (List Byte × State) :=
  if s.gateStopped then none
  else match s.mod.signal.find? (fun m => m.1 = k ∧ natAt m.2 0 1 = kind) with
  | none => none
  | some m => some (m.2, { s with mod := { s.mod with signal := s.mod.signal.erase m } })

/-- Table 3-5, Table 14-1: the suspect causes of a `marks` byte. -/
def marksCauses (m : Nat) : List Nat :=
  (if bitAt m 0 then [1] else []) ++ (if bitAt m 2 then [2] else []) ++ (if bitAt m 1 || bitAt m 3 then [3] else [])

/-- MARKS (R274, R379, R380, R400): the marks of a slot and layer reach the suspect-step handling; those of another window are
discarded and counted. -/
def execMarks (c : CoreMsg) (s : State) : Out :=
  .next (match s.takeSignal c.core.key 0x10 with
    | none => s
    | some (b, s0) =>
      let s1 := s0.ctlRetries c.core.field c.retries
      match s1.slotAt c.core.key (natAt b 2 2) with
      | none => s1.countField c.core.field fcAgentDiscards 1
      | some x =>
        if natAt b 8 8 ≠ s1.plan.window ∨ (s1.core c.core.key).fenced then s1.countField c.core.field fcAgentDiscards 1
        else
          let s2 := ((marksCauses (natAt b 4 1)).foldl (fun (t : State) cause => t.markSlot x.id cause) s1).updSlot x.id (fun y =>
            { y with badLayer := if y.badLayer = 0xFFFF then natAt b 6 2 else y.badLayer })
          s2.updCore c.core.key (fun v => { v with marked := true, named := insertNat (4 * packedCore c.core.key) v.named }))

/-- R247: whether a power bank of a core holds what may not be gated: resident regions, hand-off buffers, window records, or a
line remapped into a spare. -/
def Core.bankHeld (c : Core) (b : Nat) : Bool :=
  let lo := b * 2 ^ 20
  let n := 2 ^ 20
  c.residents.any (fun r => rangesMeet lo n r.addr r.length)
    || (c.placeId.isSome && (rangesMeet lo n c.entry.hoff0 c.entry.hoffLen || rangesMeet lo n c.entry.hoff1 c.entry.hoffLen
        || rangesMeet lo n c.entry.wrecBase 0x2200))
    || (c.sp.remap ++ c.sp.waiting ++ c.sp.copying).any (fun r => decide (r.line * 256 / 2 ^ 20 = b))

/-- R247: a `GATE` or `UNGATE` message: banks that may change do so at the release of the named later window; each refusal is
counted. -/
def State.gateMessage (s : State) (c : CoreRef) (kind : Nat) (gate : Bool) : State :=
  match s.takeSignal c.key kind with
  | none => s
  | some (b, s1) =>
    let asked := (List.range 8).filter (fun i => bitAt (natAt b 1 1) i)
    let ok := asked.filter (fun i => decide (s1.plan.window < natAt b 8 8) && !(s1.core c.key).bankHeld i)
    let s2 := if ok.length < asked.length then s1.countField c.field fcGateRefusals (asked.length - ok.length) else s1
    if ok.isEmpty then s2
    else s2.updSp c.key (fun p => { p with gateReq := p.gateReq ++
      [(natAt b 8 8, BitVec.ofNat 8 ((ok.map (fun i => 2 ^ i)).sum), gate)] })

/-- GATE (R247): gates power banks from a later window on. -/
def execGate (c : CoreRef) (s : State) : Out := .next (s.gateMessage c 0x11 true)

/-- UNGATE (R247): ungates them. -/
def execUngate (c : CoreRef) (s : State) : Out := .next (s.gateMessage c 0x12 false)

/-! Hand-off and reduction packets. -/

/-- Table 15-9: the link of a station towards a neighbour: 0 north, 1 east, 2 south, 3 west. -/
def linkDir (a b : Nat) : Nat := if b + 10 = a then 0 else if b = a + 1 then 1 else if b = a + 10 then 2 else 3

/-- Counts a packet on every link of its route. -/
def State.countRoute (s : State) : List Nat → State
  | a :: b :: t =>
    if a = b then s.countRoute (b :: t)
    else
      let bumpLink := fun (v : Field) (i : Nat) => { v with links := v.links.put i (v.links.find i 0 + 1) }
      ((s.updField a (fun v => bumpLink v (2 * linkDir a b))).updField b (fun v => bumpLink v (2 * linkDir b a + 1))).countRoute
        (b :: t)
  | _ => s

/-- R416: whether a packet to a placement core is held: the core's field, or the whole module, has stopped. -/
def State.arrivalHeld (s : State) (place : Nat) : Bool :=
  decide (s.mod.state = .stopped) || (s.field (s.physOf place / coresPerField)).stopArrived

/-- R118: the hand-off buffer that a core reads in window `n`. -/
def Core.readingIn (c : Core) (n : Nat) : Nat := if n % 2 = 0 then c.entry.hoff0 else c.entry.hoff1

/-- R118: the hand-off buffer of a core that fills in window `n`. -/
def Core.fillingIn (c : Core) (n : Nat) : Nat := if n % 2 = 0 then c.entry.hoff1 else c.entry.hoff0

/-- R26, R251, R252, R400: whether a packet meets a closed boundary: its core, its sender or a field on its way is fenced, or no way
stands open. -/
def State.edgeFenced (s : State) (e : Edge) : Bool :=
  let way := s.edgeRoute e
  way.isEmpty || way.any (fun f => (s.field f).fenced) || (s.core (s.physOf e.dest)).fenced || (s.core e.src).fenced

/-- R386: whether a hand-off write waits: this window a replay copies its slot's input, the write is addressed to lines that carry it,
and their read at the core, first on port B, is not over. -/
def State.inputHeld (s : State) (place offset n : Nat) : Bool :=
  s.plan.replays.any (fun q =>
    let mine := q.slot.inputs.filter (fun l => decide (l.1 = place))
    decide (q.since + 1 = s.plan.window) && mine.any (fun l => rangesMeet l.2.1 l.2.2 offset n)
      && decide (s.now * 1000 < (s.plan.tNext.toNat - s.plan.w) * 1000 + stagesToPs (6 + ceilDiv ((mine.map (fun l => l.2.2)).sum) 256)
          (s.power (s.physOf place / coresPerField)).pace))

/-- R118: writes a hand-off into the buffer that fills in the window in progress; what passes the buffer's end is not
written. -/
def State.handoff (s : State) (place offset : Nat) (bytes : List (Byte × Bool)) : State :=
  let k := s.physOf place
  let c := s.core k
  if c.entry.hoffLen < offset + bytes.length then s
  else s.spWrite k (c.fillingIn s.plan.window + offset) bytes

/-- The bytes of a packet, those poisoned marked. -/
def Edge.data (e : Edge) : List (Byte × Bool) := ((List.range e.bytes.length).zip e.bytes).map (fun x => (x.2, e.bad.contains x.1))

/-- R274: a packet as it is delivered: the bytes that fail a station's check are poisoned. -/
def Edge.flip (e : Edge) (flips : List (Nat × Nat)) : Edge :=
  { e with bad := e.bad ++ (flips.map Prod.fst).filter (fun i => i < e.bytes.length) }

/-- R274: what the failed checks of a packet leave. -/
def State.edgeParity (s : State) (e : Edge) (flips : List (Nat × Nat)) : State :=
  s.parityFaults (fun _ => s.edgeRoute e) e.bytes.length flips

/-- Takes packet `n` off those in flight; its route is counted, and its slot keeps what it wrote. -/
def State.takeEdge (s : State) (n : Nat) (e : Edge) : State :=
  let s1 : State := { s with plan := { s.plan with edges := s.plan.edges.eraseIdx n } }
  let s2 := s1.countRoute (s.edgeRoute e)
  match s2.slotAt e.src e.slot with
  | some x => s2.updSlot x.id (fun x => { x with lines := x.lines ++ [(e.dest, e.offset, e.bytes.length)] })
  | none => s2

/-- HANDOFF_WRITE (R81, R118, R120, R274, R386): a hand-off packet reaches the station of its destination core, through the relocation map,
and is written into the buffer that fills; at a closed boundary it is discarded (R400). -/
def execHandoffWrite (n : EdgeMsg) (s : State) : Out :=
  .next (match s.plan.edges[n.place]? with
    | none => s
    | some e =>
      if !s.powered || s.arrivalHeld e.dest || e.reduce || s.inputHeld e.dest e.offset e.bytes.length then s
      else if s.edgeFenced e then { s with plan := { s.plan with edges := s.plan.edges.eraseIdx n.place } }
      else ((s.takeEdge n.place e).edgeParity e n.flips).handoff e.dest e.offset (e.flip n.flips).data)

/-- R121, R298: the reduction of an edition's placement that a packet belongs to: its first offset, length and contributors. -/
def State.reductionOf (s : State) (e : Edge) : Option RedRec :=
  match (s.edition (s.core e.src).edition).placement with
  | none => none
  | some p => p.reductions.find? (fun r => r.dest = e.dest ∧ r.offset ≤ e.offset ∧ e.offset < r.offset + r.length)

/-- R299: exact two's-complement addition of the words of a line. -/
def addWords : List Word → List Word → List Word
  | [], b => b
  | a, [] => a
  | x :: a, y :: b => (x + y) :: addWords a b

/-- The words of a packet's payload. -/
def payloadWords (b : List Byte) : List Word := (List.range (b.length / 4)).map (fun i => BitVec.ofNat 32 (natAt b (4 * i) 4))

/-- R300: `REDUCE_FAULT` and its fault signature, naming the destination core and the line. -/
def State.reduceFault (s : State) (place line count : Nat) : State :=
  let k := s.physOf place
  (s.event evReduceFault (packedCore k)).faultCore k (packedCore k) 0x0A 0 .station (leBytes 4 line ++ leBytes 2 count)

/-- R298, R300: writes a line, poisoned as a whole if it is bad; the slots of a poisoned line are suspect. -/
def State.writeLine (s : State) (l : StoreLine) : State :=
  let s1 := s.handoff l.core l.offset ((l.words.flatMap (fun w => leBytes 4 w.toNat)).map (fun b => (b, l.bad)))
  if l.bad then l.slots.foldl (fun (t : State) i => t.markSlot i 0x01) s1 else s1

/-- Whether two store lines are one line. -/
def StoreLine.same (a b : StoreLine) : Bool := decide (a.core = b.core) && decide (a.offset = b.offset) && decide (a.window = b.window)

/-- R299: whether a packet can be added to one that passes its own station: both carry the same line of one reduction. -/
def State.meets (s : State) (e x : Edge) : Bool :=
  x.reduce && decide (x.dest = e.dest ∧ x.offset = e.offset ∧ x.bytes.length = e.bytes.length ∧ x.window = e.window
      ∧ (s.core x.src).edition = (s.core e.src).edition)
    && (s.edgeRoute e).contains (x.src / coresPerField) && !s.edgeFenced x

/-- R299: the packets, with their places, that were added to packet `e` of place `n` on its way (log 89). -/
def State.mergedWith (s : State) (n : Nat) (e : Edge) (places : List Nat) : List (Nat × Edge) :=
  (((List.range s.plan.edges.length).zip s.plan.edges)).filter (fun x => decide (x.1 ≠ n) && places.contains x.1 && s.meets e x.2)

/-- R299: a packet with another of its line added in: the counts add too, and the poison of either stays. -/
def Edge.add (e x : Edge) : Edge :=
  { e with
    bytes := (addWords (payloadWords e.bytes) (payloadWords x.bytes)).flatMap (fun w => leBytes 4 w.toNat)
    bad := e.bad ++ x.bad, count := e.count + x.count }

/-- R299: the packets added on the way leave those in flight, and their slots keep what they wrote. -/
def State.takeMerged (s : State) (m : List (Nat × Edge)) : State :=
  m.foldl (fun (t : State) x => match t.slotAt x.2.src x.2.slot with
    | some y => t.updSlot y.id (fun y => { y with lines := y.lines ++ [(x.2.dest, x.2.offset, x.2.bytes.length)] })
    | none => t)
    { s with plan := { s.plan with edges := (((List.range s.plan.edges.length).zip s.plan.edges).filter (fun x =>
        !(m.map Prod.fst).contains x.1)).map Prod.snd } }

/-- The places of packets once the packet of place `n` is taken off. -/
def shifted (n : Nat) (m : List (Nat × Edge)) : List (Nat × Edge) := m.map (fun x => (if n < x.1 then x.1 - 1 else x.1, x.2))

/-- REDUCTION_PACKET (R27, R274, R299, R300, R386): a packet, with those of its line that waited at stations on its way, is added into
its line of the destination station's store; the line that its
last contributor completes is written and freed. A count beyond the contributors, a span other than the line and a poisoned
packet poison it; a packet for a line that is freed already delivers it again, poisoned (log 180). -/
def execReductionPacket (n : EdgeMsg) (s : State) : Out :=
  .next (match s.plan.edges[n.place]? with
    | none => s
    | some e0 =>
      let m := s.mergedWith n.place e0 n.merged
      let e := (m.foldl (fun e x => e.add x.2) e0).flip n.flips
      if !s.powered || s.arrivalHeld e.dest || !e.reduce || s.inputHeld e.dest e.offset e0.bytes.length then s
      else if s.edgeFenced e then { s with plan := { s.plan with edges := s.plan.edges.eraseIdx n.place } }
      else match s.reductionOf e with
        | none => (((s.takeEdge n.place e).takeMerged (shifted n.place m)).edgeParity e n.flips).reduceFault e.dest e.offset e.count
        | some r =>
          let lo := r.offset + (e.offset - r.offset) / 256 * 256
          let len := Nat.min 256 (r.offset + r.length - lo)
          let f := s.physOf e.dest / coresPerField
          let mine := (e :: m.map Prod.snd).filterMap (fun x => (s.slotAt x.src x.slot).map (fun y => y.id))
          let fresh : StoreLine := { core := e.dest, offset := lo, length := len, need := r.contributors, window := s.plan.window
                                     words := List.replicate (len / 4) 0 }
          let s1 := ((s.takeEdge n.place e).takeMerged (shifted n.place m)).edgeParity e n.flips
          let old : StoreLine := (((s1.field f).store ++ (s1.field f).full).find? (fun l => l.same fresh)).getD fresh
          let bad := decide (e.offset ≠ lo) || decide (e.bytes.length ≠ len) || !e.bad.isEmpty || decide (old.need < old.count + e.count)
          let new : StoreLine := { old with
            count := old.count + e.count, slots := mine.foldl (fun l i => insertNat i l) old.slots
            words := addWords old.words (payloadWords e.bytes), bad := old.bad || bad }
          let s2 := if bad && !old.bad then s1.reduceFault e.dest lo new.count else s1
          let rest := (s2.field f).store.filter (fun l => !l.same fresh)
          if new.need ≤ new.count then
            (s2.updField f (fun v => { v with store := rest, full := v.full.filter (fun l => !l.same fresh) ++ [{ new with words := fresh.words }] })).writeLine new
          else s2.updField f (fun v => { v with store := rest ++ [new] }))

/-- R300: a line whose count is short at the boundary is written poisoned; every store line is free then. -/
def State.shortLines (s : State) : State :=
  allFields.foldl (fun (t : State) f =>
    let l := (t.field f).store
    if l.isEmpty && (t.field f).full.isEmpty then t
    else (l.filter (fun x => x.count < x.need)).foldl (fun (u : State) x => u.writeLine { x with bad := true })
      (t.updField f (fun v => { v with store := [], full := [] }))) s

/-! Paired mode. -/

/-- R390: whether two digests carry one tag and come from the two cores of a pair. -/
def State.digestPair (s : State) (a b : DigestMsg) : Bool :=
  decide (a.window = b.window) && decide (a.slot = b.slot) && decide (a.layer = b.layer) && decide (a.engine = b.engine)
    && decide (a.core ≠ b.core)
    && (match (s.edition (s.core (s.physOf a.core)).edition).pairOf a.core with
      | some p => decide ((p.1 = a.core ∧ p.2 = b.core) ∨ (p.1 = b.core ∧ p.2 = a.core))
      | none => false)

/-- R391: the first group in which two digests differ by more than the tolerance. -/
def digestMismatch (a b : DigestMsg) (tol : Nat) : Option Nat :=
  (List.range 16).find? (fun g => decide (tol * a.counts.getD g 0 < (a.groups.getD g 0 - b.groups.getD g 0).natAbs * 16))

/-- PAIR_DIGEST (R390, R391, R400): a digest reaches its comparator, which marks the slot if the two digests of a tag differ; one
of an earlier window is discarded. -/
def execPairDigest (n : Nat) (s : State) : Out :=
  .next (match s.plan.digests[n]? with
    | none => s
    | some d =>
      if !s.powered || s.arrivalHeld d.core || d.arrived then s
      else if d.window ≠ s.plan.window then { s with plan := { s.plan with digests := s.plan.digests.eraseIdx n } }
      else match s.plan.digests.find? (fun x => x.arrived ∧ s.digestPair d x) with
        | none => { s with plan := { s.plan with digests := s.plan.digests.set n { d with arrived := true } } }
        | some x =>
          let s1 : State := { s with plan := { s.plan with digests := (s.plan.digests.eraseIdx n).erase x } }
          let k := s.physOf d.core
          match digestMismatch d x (s.edition (s.core k).edition).pairTol with
          | none => s1
          | some g =>
            let copyA := if s.isCopyB k then x else d
            let copyB := if s.isCopyB k then d else x
            let ka := s.physOf copyA.core
            let s2 := match s1.slotAt k d.slot with
              | some y => s1.markSlot y.id 0x04
              | none => s1
            s2.faultCore ka (packedCore ka) 0x04 0 .station
              (leBytes 1 g ++ leBytes 4 (bitsOf 32 (copyA.groups.getD g 0)) ++ leBytes 4 (bitsOf 32 (copyB.groups.getD g 0)))
              (s.slotTag k d.slot) d.layer)

/-- R391: a digest whose partner is missing at the gather is a mismatch. -/
def State.missingDigests (s : State) : State :=
  let left := s.plan.digests.filter (fun d => d.window = s.plan.window)
  left.foldl (fun (t : State) d =>
    let k := t.physOf d.core
    match t.slotAt k d.slot with
    | some y => (t.markSlot y.id 0x04).faultCore k (packedCore k) 0x04 0 .station
        (leBytes 1 0 ++ (if t.isCopyB k then leBytes 4 0 ++ leBytes 4 (bitsOf 32 (d.groups.getD 0 0)) else
          leBytes 4 (bitsOf 32 (d.groups.getD 0 0)) ++ leBytes 4 0)) (t.slotTag k d.slot) d.layer
    | none => t) ({ s with plan := { s.plan with digests := [] } } : State)

/-- R392: the signatures of paired cores that differ make every slot of their section suspect, with a fault signature against
both. -/
def State.compareSignatures (s : State) : State :=
  s.editions.entries.foldl (fun (t : State) (e : Nat × Edition) => e.2.pairs.foldl (fun (u : State) (p : Nat × Nat) =>
    let a := u.physOf p.1
    let b := u.physOf p.2
    match (u.core a).contrib, (u.core b).contrib with
    | some (x, _), some (y, _) =>
      if x = y then u
      else
        let sect := (u.core a).entry.sect
        let u1 : State := { u with plan := { u.plan with slots := u.plan.slots.map (fun z =>
          if z.edition = e.1 ∧ z.sect = sect ∧ z.wait = 0 then { z with causes := insertNat 0x05 z.causes } else z) } }
        [(a, x), (b, y)].foldl (fun (v : State) (q : Nat × Word) =>
          v.faultCore q.1 (packedCore q.1) 0x06 0 .controlCore (leBytes 1 0 ++ leBytes 4 0 ++ leBytes 4 q.2.toNat)) u1
    | _, _ => u) t) s

/-! Suspect passes. -/

/-- R380, R382: the causes that the cores of a slot's section add: a fault or a hung core, and a unit command fault. -/
def State.coreCauses (s : State) (x : Slot) : Slot :=
  if x.wait ≠ 0 then x else
  let ks := (((s.edition x.edition).sectionPlaces x.sect).map s.physOf).map s.core
  let y := if ks.any (fun c => match c.contrib with
    | some (_, bad) => bad
    | none => false) then { x with causes := insertNat 0x06 x.causes } else x
  if ks.any (fun c => c.commandFault) then { y with causes := insertNat 0x06 y.causes, reports := true } else y

/-- R395: notes for each unit of a core with work whether this window's marks name it, and takes out one named in 16 of its last
64 windows with work; an array so taken out is retired-defect. -/
def State.noteUnits (s : State) (k : Nat) : State :=
  let c := s.core k
  let named := if c.marked then c.named else []
  let mine := s.plan.suspectHist.keys.filter (fun u => unpackKey (u / 4) = some k)
  let units := named.foldl (fun l u => insertNat u l) mine
  units.foldl (fun (t : State) u =>
    let h := (named.contains u :: t.plan.suspectHist.find u []).take 64
    let t1 : State := { t with plan := { t.plan with suspectHist := t.plan.suspectHist.put u h } }
    if (h.filter id).length < 16 then t1
    else
      let p := u / 4
      let t2 : State := { t1 with plan := { t1.plan with suspectHist := t1.plan.suspectHist.erase u } }
      if u % 4 = 0 then t2.takeOut p .core
      else if u % 4 = 1 then t2.takeOut p .engine
      else (t2.journalArray k (unpackEngine p) (unpackArray p) jwState 1).takeOut (packedEngine k (unpackEngine p)) .engine) s

/-- R380: the gather: what stations, comparators and cores add to the causes of the window's passes. -/
def State.gather (s : State) : State :=
  let s1 := s.shortLines.missingDigests.compareSignatures
  let s2 : State := { s1 with plan := { s1.plan with slots := s1.plan.slots.map s1.coreCauses } }
  (s2.cores.entries.filter (fun (c : Nat × Core) => c.2.mode ≠ .idle)).foldl (fun (t : State) c => t.noteUnits c.1) s2

/-- R383: the status with which a fault report ends a request: `POISONED` where poison was among the causes. -/
def reportStatus (causes : List Nat) : Nat := if causes.contains 1 then stPoisoned else stFault

/-- R383: a fault report ends the request: a final entry without a token. -/
def State.faultReport (s : State) (i : Nat) (causes : List Nat) : State :=
  let r := s.req i
  if r.state = .free ∨ r.state = .retired then s
  else ((s.dropSlots i).countPart r.partition pcFaultReports 1).endRequest i (reportStatus causes)

/-- Table 3-5: the `marks` bits that a pass's causes stand for. -/
def causeMarks (l : List Nat) : Nat := (l.contains 1).toNat + 2 * (l.contains 3).toNat + 4 * (l.contains 2).toNat

/-- R401: the newest record of a kind against a core of a section, or against a field of one. -/
def State.standing (s : State) (x : Slot) (kinds : List Nat) : Option FaultRec :=
  let ks := ((s.edition x.edition).sectionPlaces x.sect).map s.physOf
  s.mod.faults.reverse.find? (fun r => kinds.contains r.kind && (if r.unitKind = .field then
    ks.any (fun k => decide (k / coresPerField = unpackField r.unit)) else ks.any (fun k => decide (unpackKey r.unit = some k))))

/-- Table 14-6: the kind and the data of the fault signature of a suspect pass. The records of a digest mismatch, of a core's or a
command's fault and of an isolation stand already, and are written again only where a fault report ends the request (log 193). -/
def State.suspectSign (s : State) (x : Slot) (report : Bool) : Option FaultRec :=
  let again := fun (kinds : List Nat) (n : Nat) => (s.standing x kinds).getD { kind := n, data := (x.causes.take 8).flatMap (leBytes 1) }
  if report ∧ 3 ≤ x.replays then some { kind := 0x0E, data := (x.past ++ [x.causes.headD 0]).flatMap (leBytes 1) }
  else match x.causes.find? (fun c => c ≤ 5 ∧ c ≠ 4) with
    | some kind => some { kind := kind, data := (x.causes.take 8).flatMap (leBytes 1) }
    | none =>
      if !report then none
      else if x.causes.contains 4 then some (again [0x04] 0x04)
      else if x.causes.contains 6 then some (again (if x.reports then [0x07] else [0x06, 0x08]) 0x06)
      else some (again [0x0C, 0x0D] (Config.unlistedCode 7 0))

/-- R383, R401: the fault signature of a suspect pass. -/
def State.suspectRecord (s : State) (x : Slot) (report : Bool) : State :=
  match s.suspectSign x report with
  | none => s
  | some v =>
    let place := ((s.edition x.edition).sectionPlaces x.sect).headD 0
    let k := s.physOf place
    let r := s.req x.req
    s.fault (s.fieldRec (k / coresPerField)
      { kind := v.kind, unit := packedCore k, unitKind := .core, place := packedCore place, partition := r.partition
        sect := x.sect, layer := x.badLayer, action := if report then 2 else 1, tag := tagOf x.req x.gen, edition := x.edition, replays := x.replays
        marks := causeMarks x.causes, data := v.data })

/-- R382: whether a suspect pass goes to fault report; so does one that no pool core can replay (log 150). -/
def State.toReport (s : State) (x : Slot) : Bool :=
  let e := s.edition x.edition
  x.reports || decide (16 < e.drep) || (s.poolCores x.edition x.sect).isEmpty || (!e.hasGolden && decide (0 < e.arrayRows)) || decide (3 ≤ x.replays)

/-- R381, R385: withholds a pass that became suspect in window `n` and puts it under replay; in host-assisted mode the control
node is asked until the replay's planned completion. -/
def State.withhold (s : State) (x : Slot) : State :=
  let r := s.req x.req
  let n := s.plan.window
  let drep := (s.edition x.edition).drep
  let y : Slot := { x with
    reports := false, draw := none, drawNone := false, assistLate := false, gramNext := none, gramLate := false, replay := true
    replayed := true, replays := x.replays + 1, past := x.past ++ [x.causes.headD 0] }
  let pool := s.poolCores x.edition x.sect
  let q : Replay := { slot := y, since := n, due := n + drep + 1, pool := pool, owed := s.poolCharge x.edition x.sect pool }
  let s1 : State := { s with
    alaok := { s.alaok with assists := s.alaok.assists.filter (fun a => !((a.fn = 2 || a.fn = 3) && a.slot = x.id)) } }
  let s2 := s1.countPart r.partition pcReplays 1
  let s3 := if (s.edition x.edition).allowance r.cls.replay.toNat < y.replays then s2.blame x.req 0x05 else s2
  if s3.assisted r.partition 5 then
    if s3.assistRoom r.partition then
      let id := s3.alaok.nextAssist.toNat
      let by' := BitVec.ofNat 64 (Nat.max s.now s.plan.tNext.toNat + drep * s.plan.wNext)
      let s4 := s3.sendAssist { fn := 5, partition := r.partition, deadline := by', req := x.req, slot := x.id } (s.tag x.req)
        (leBytes 4 (s.tag x.req).toNat ++ leBytes 2 x.badLayer ++ leBytes 1 (causeMarks x.causes) ++ leBytes 1 x.replays)
      { s4 with plan := { s4.plan with replays := s4.plan.replays ++ [{ q with assist := some id }] } }
    else
      let s4 := s3.countPart r.partition pcAssistLate 1
      { s4 with plan := { s4.plan with replays := s4.plan.replays ++ [q] } }
  else { s3 with plan := { s3.plan with replays := s3.plan.replays ++ [q] } }

/-- R222, R402: whether a cancellation of a request waits for the boundary; a suspect pass of it is discarded. -/
def State.cancelWaits (s : State) (i : Nat) (g : BitVec 7) : Bool :=
  s.mod.deferred.any (fun d => match d with
    | .cancel j h _ _ => decide (j = i) && decide (h = g)
    | _ => false)

/-- R381 to R383: what becomes of every suspect pass: a drafted slot ends its chain; with a suspect real slot its drafted slots
go too; the others go to replay or to fault report. -/
def State.settleSuspects (s : State) : State :=
  let bad := s.plan.slots.filter (fun x => !x.causes.isEmpty)
  let real := bad.filter (fun x => !x.drafted)
  let s1 : State := { s with plan := { s.plan with slots := s.plan.slots.filter (fun x =>
    x.causes.isEmpty && !(x.drafted && real.any (fun y => y.req = x.req ∧ y.sect = x.sect ∧ y.pos < x.pos))) } }
  real.foldl (fun (t : State) x =>
    let r := t.req x.req
    if r.state = .free ∨ r.state = .retired ∨ r.gen ≠ x.gen ∨ s.cancelWaits x.req x.gen then t
    else
      let report := t.toReport x
      let t1 := t.suspectRecord x report
      if report then t1.faultReport x.req x.causes else t1.withhold x) s1

/-! Replays. -/

/-- R184: whether the word of the prompt that a request reads for a position is poisoned. -/
def State.promptPoison (s : State) (r : Req) (pos : Nat) : Bool :=
  decide (pos < r.desc.promptLen.toNat) && spPoison ((s.partBytes r.partition 0 (r.desc.promptOff.toNat + 4 * pos) 4).getD [])

/-- R385: bytes of a replay's output, free values. -/
def replayBytes (ctr n : Nat) : List (Byte × Bool) := (List.range n).map (fun i => (Config.replayByte (ctr + i), false))

/-- R385 phase 5: a replay's output is written into the hand-off buffers its pass wrote to. -/
def State.returnLines (s : State) (x : Slot) : State :=
  x.lines.foldl (fun (t : State) (l : Nat × Nat × Nat) =>
    ({ t with free := t.free + l.2.2 } : State).handoff l.1 l.2.1 (replayBytes t.free l.2.2)) s

/-- Takes a replay off, with its assist. -/
def State.dropReplay (s : State) (id : Nat) : State :=
  let a := (s.plan.replays.find? (fun r => r.slot.id = id)).bind Replay.assist
  { s with
    plan := { s.plan with replays := s.plan.replays.filter (fun r => r.slot.id ≠ id) }
    alaok := { s.alaok with assists := s.alaok.assists.filter (fun x => some x.id.toNat ≠ a) } }

/-- R400: the output of a replay whose request is gone is discarded and counted (log 194). -/
def State.lateReplay (s : State) (id : Nat) : State :=
  let t := s.dropReplay id
  { t with plan := { t.plan with lateOutputs := t.plan.lateOutputs + 1 } }

/-- R381: a replay rewrites what its pass wrote at its position in the request's KV pages; which bytes of the position's pages these
are, and what they hold, are free values (log 88). -/
def State.returnKv (s : State) (x : Slot) : State :=
  let r := s.req x.req
  let e := s.edition x.edition
  match e.serving, (s.part r.partition).regions.find? 2 with
  | some v, some g =>
    (Config.replayKv s.free).foldl (fun (t : State) w =>
      match r.pageOffset (x.pos / v.posPerPage * v.groups + w.1) with
      | some o => if w.1 < v.groups ∧ w.2.1 + w.2.2.length ≤ pageBytes then t.patchRegion g (o + w.2.1) w.2.2 r.partition else t
      | none => t) { s with free := s.free + 1 }
  | _, _ => s

/-- R384: a replay's charge is taken from the credits that this window still holds back in its pool's fields. -/
def State.payReplay (s : State) (id : Nat) : State :=
  match s.plan.replays.find? (fun r => r.slot.id = id ∧ !r.returned) with
  | none => s
  | some q =>
    let p := q.owed.foldl (fun (acc : State × List (Nat × Nat)) x =>
      let t := acc.1.takeHeld x.1 x.2
      (t.1, if t.2 < x.2 then acc.2 ++ [(x.1, x.2 - t.2)] else acc.2)) (s, [])
    { p.1 with plan := { p.1.plan with replays := p.1.plan.replays.map (fun r => if r.slot.id = id then { r with owed := p.2 } else r) } }

/-- R384: the charges of every replay under way, in their order. -/
def State.payReplays (s : State) : State := (s.plan.replays.map (fun q => q.slot.id)).foldl (fun (t : State) i => t.payReplay i) s

/-- R385 phase 2: at the release of the window after a pass became suspect, its input lines are read at their cores and sent to the
pool. -/
def State.copyInputs (s : State) : State :=
  (s.plan.replays.filter (fun q => q.since + 1 = s.plan.window)).foldl (fun (t : State) q =>
    let at' := fun (l : Nat × Nat × Nat) => (t.physOf l.1, (t.core (t.physOf l.1)).readingIn q.since + l.2.1, l.2.2)
    let bad := q.slot.inputs.any (fun l => spPoison (t.spRead (at' l).1 (at' l).2.1 (at' l).2.2))
    let t1 := q.slot.inputs.foldl (fun (u : State) l => u.spTouched (at' l).1 (at' l).2.1 (at' l).2.2) t
    { t1 with plan := { t1.plan with replays := t1.plan.replays.map (fun r =>
      if r.slot.id = q.slot.id then { r with copyBad := r.copyBad || bad } else r) } }) s

/-- R175, R385 phase 3: whether the golden rows of a section read poisoned; a forerunner's are its reload rows. -/
def State.goldenBad (s : State) (ed sect : Nat) : Bool :=
  let e := s.edition ed
  let span := e.layersOf sect
  if e.kind = .forerunner then
    (List.range (span.2 + 1 - span.1)).any (fun l => (s.forerunnerLayer ed (span.1 + l)).any (fun r => spPoison r.2.2))
  else match e.regions.find? 4 with
    | none => false
    | some r => (e.goldenRuns.foldl (fun (acc : Nat × Bool) x =>
        (acc.1 + x.2.2, acc.2 || ((e.sectionPlaces sect).contains ((unpackKey x.1).getD 0)
          && spPoison (s.regionBytes r (512 * acc.1) (512 * x.2.2))))) (0, false)).2

/-- R268 to R272, R385 phase 3: what a replay's load of the golden rows of its section leaves behind. -/
def State.goldenRead (s : State) (ed sect : Nat) : State :=
  let e := s.edition ed
  let span := e.layersOf sect
  if e.kind = .forerunner then
    (List.range (span.2 + 1 - span.1)).foldl (fun (t : State) l => t.layerTouched ed (span.1 + l) (fun _ => true)) s
  else match e.regions.find? 4 with
    | none => s
    | some r => (e.goldenRuns.foldl (fun (acc : State × Nat) x =>
        (if (e.sectionPlaces sect).contains ((unpackKey x.1).getD 0) ∧ x.2.2 ≠ 0 then acc.1.regionTouched r (512 * acc.2) (512 * x.2.2) e.partition
         else acc.1, acc.2 + x.2.2)) (s, 0)).1

/-- R397, Table 14-7: a replay whose pool core failed or was taken away restarts on other pool cores, as a further replay; one that
may not goes to fault report. -/
def State.checkPools (s : State) : State :=
  (s.plan.replays.filter (fun q => !q.returned && q.pool.any (fun k =>
      !s.coreFree k || (s.field (k / coresPerField)).lost || (s.field (k / coresPerField)).fenced))).foldl (fun (t : State) q =>
    let x := q.slot
    let pool := t.poolCores x.edition x.sect
    if pool.isEmpty ∨ 3 ≤ x.replays then ((t.dropReplay x.id).suspectRecord x true).faultReport x.req x.causes
    else
      let r := t.req x.req
      let t1 := t.countPart r.partition pcReplays 1
      let t2 := if (t.edition x.edition).allowance r.cls.replay.toNat < x.replays + 1 then t1.blame x.req 0x05 else t1
      { t2 with plan := { t2.plan with replays := t2.plan.replays.map (fun p =>
        if p.slot.id = x.id then { p with
          slot := { x with replays := x.replays + 1 }, due := t.plan.window + (t.edition x.edition).drep + 1, pool := pool
          owed := t.poolCharge x.edition x.sect pool } else p) } }) s

/-- R382, R273: whether a replay's own reads were poisoned: its copied input, its golden rows, or the prompt's word. -/
def State.replayBad (s : State) (q : Replay) : Bool :=
  q.copyBad || s.goldenBad q.slot.edition q.slot.sect || (decide (q.slot.sect = 0) && s.promptPoison (s.req q.slot.req) q.slot.pos)

/-- REPLAY_RETURN (R382, R384, R385, R400): a replay's output is back in the window before it rejoins, once its charge is paid: written to the
next section's hand-off buffers, or its candidate record handed to the sampler, with the KV positions its pass wrote (R381). One whose
reads were poisoned again goes to fault report at the next boundary, as does one whose answer of 1 came in time; one whose request is
gone is discarded and counted. Those returned stand in the order of their arrival (R387). In phase 3 of a global stop a replay returns
whatever its window (R413); a draw then waits for the release. -/
def execReplayReturn (slot : Nat) (poisoned : Bool) (s0 : State) : Out :=
  let s := s0.payReplay slot
  .next (match s.plan.replays.find? (fun r => r.slot.id = slot ∧ !r.returned) with
    | none => s0
    | some q =>
      let x := q.slot
      let r := s.req x.req
      if !s.powered || s.mod.state = .stopped || s.stop.kind = .nowSpreading
          || (decide (s.plan.window + 1 < q.due) && decide (s.stop.kind ≠ .settling)) then s0
      else if r.gen ≠ x.gen ∨ r.state = .free ∨ r.state = .retired then s.lateReplay slot
      else if poisoned ∨ s.replayBad q ∨ q.report then
        let causes := if poisoned ∨ s.replayBad q then insertNat 1 x.causes else x.causes
        let s1 := (((if q.owed.isEmpty then s.goldenRead x.edition x.sect else s).dropReplay slot).suspectRecord { x with causes := causes } true)
        { s1 with mod := { s1.mod with deferred := s1.mod.deferred ++ [.retire x.req x.gen (reportStatus causes)] } }
      else if !q.owed.isEmpty then q.owed.foldl (fun (t : State) x => t.countField x.1 fcStallWaits 1) s
      else if (s.edition x.edition).sections = x.sect + 1 ∧ x.lastPrompt then
        let s1 := ((s.goldenRead x.edition x.sect).returnKv x).dropReplay slot
        let y : Slot := { x with causes := [], sect := if s.stop.kind = .settling then x.sect + 1 else x.sect }
        let s2 : State := { s1 with free := s1.free + 1, plan := { s1.plan with slots := s1.plan.slots ++ [y] } }
        s2.drawSlot y (Config.replayRecord s.free)
      else
        let s1 := ((s.goldenRead x.edition x.sect).returnKv x).returnLines x
        let rs := s1.plan.replays
        { s1 with plan := { s1.plan with replays := rs.filter (fun r => r.slot.id ≠ slot)
          ++ (rs.filter (fun r => r.slot.id = slot)).map (fun r => { r with returned := true }) } })

end Sys2Proof.Machine
end

