-- ==== Sys2Proof/Machine/Deliver.lean ====
section
/-! DEFINITION. What the release of a window does with the draws of the window before: accepted drafts, stop conditions, ring
entries and the token fed back (R19, R185, R198, R206, R207, R215 to R217, R220). -/

namespace Sys2Proof.Machine

/-- R156: whether a slot's work in its section ended with this window: one that waits has had none, and a forerunner slot fires one
layer in a window of its own, after that layer's reload span. -/
def State.sectDone (s : State) (x : Slot) : Bool :=
  let e := s.edition x.edition
  decide (x.wait = 0) && (decide (e.kind ≠ .forerunner) || decide ((e.layersOf x.sect).2 ≤ x.layer))

/-- Whether a slot's pass was that of its edition's last section. -/
def State.passDone (s : State) (x : Slot) : Bool := s.sectDone x && decide ((s.edition x.edition).sections ≤ x.sect + 1)

/-- R156: a slot that begins a layer of a section: the reload span comes first. -/
def State.atLayer (s : State) (x : Slot) (sect layer : Nat) : Slot :=
  { x with
    sect := sect, layer := layer, spanAt := s.stamp, badLoad := false
    wait := if (s.edition x.edition).kind = .forerunner then s.layerSpan x.edition layer s.plan.wNext else 0 }

/-- R17, R156, R273: a slot at the next boundary: one reload window less, once its layer is reloaded the window in which it fires, the
next layer, or the next section. A layer reloaded from poisoned rows makes the step suspect. -/
def State.slotOn (s : State) (x : Slot) : Slot :=
  let y := { x with inputs := if x.wait = 0 then x.lines else x.inputs, lines := [], causes := [], badLayer := 0xFFFF, reports := false, replay := false }
  if x.wait ≠ 0 then
    if s.spanBlocked x then { y with spanAt := s.stamp }
    else if x.wait = 1 ∧ !s.layerLoaded x then y
    else { y with wait := x.wait - 1, causes := if x.wait = 1 ∧ x.badLoad then [1] else [] }
  else if s.sectDone x then s.atLayer y (x.sect + 1) ((s.edition x.edition).layersOf (x.sect + 1)).1
  else s.atLayer y x.sect (x.layer + 1)

/-- R214, R215: the grammar state after a drawn token: the control node's where it answered, else the table's; none where the
token advances no grammar. -/
def State.nextState (s : State) (x : Slot) (t : Nat) : Option Nat :=
  let r := s.req x.req
  if !r.advances x.pos t then none
  else match x.gramNext with
    | some n => some n
    | none => some (s.gramNext r.partition r.desc.grammar.toNat r.gstate.toNat t)

/-- R198, R216: the status with which a token ends its request, none where the request goes on. A late grammar answer ends
nothing. -/
def State.tokenEnds (s : State) (x : Slot) (t : Nat) : Option Nat :=
  let r := s.req x.req
  if r.stopsAt x.pos t then some stFinished
  else if x.gramLate then none
  else match s.nextState x t with
    | none => none
    | some n =>
      if n = noState then some stGrammarError
      else if ((s.gramState r.partition r.desc.grammar.toNat n).map GramState.stop).getD false then some stFinished
      else none

/-- What a visit's delivery leaves: the state, tokens delivered, the last of them and its slot's position, and the status it ends
with. -/
structure Chain where
  state : State
  n     : Nat := 0
  last  : Nat := 0
  pos   : Nat := 0
  ended : Option Nat := none

/-- R215: a token that advances its grammar moves the request's grammar state. -/
def State.advanceGrammar (s : State) (x : Slot) (t : Nat) : State :=
  if x.gramLate then s
  else match s.nextState x t with
    | some n =>
      let r := s.req x.req
      let s1 := if x.gramNext.isSome then s else s.gramTouched r.partition r.desc.grammar.toNat r.gstate.toNat t n
      if n = noState then s1 else s1.updReq x.req (fun r => { r with gstate := BitVec.ofNat 32 n })
    | none => s

/-- R206, R217: delivers the draws of a visit, real slot first: the chain ends at a stop, at the first draft that differs from
the draw before it, at one whose pass was withheld (R381), and at a drafted slot with no candidate. A draining request's last token is flagged `final` (R185). -/
def Chain.run (stamp : Nat) : List Slot → Chain → Chain
  | [], c => c
  | x :: rest, c =>
    if decide (0 < c.n) && (c.ended.isSome || decide (x.token ≠ c.last) || decide (x.pos ≠ c.pos + 1)) then c
    else match x.draw with
      | none => if c.n = 0 then
            { c with state := c.state.finalEntry x.req stMaskEmpty, ended := some stMaskEmpty }
          else c
      | some t =>
        let r := c.state.req x.req
        let more := match rest with
          | y :: _ => decide (y.token = t) && decide (y.pos = x.pos + 1) && y.draw.isSome
          | [] => false
        let ends := c.state.tokenEnds x t
        let drains := decide (r.state = .draining) && !r.shipping && !more
        let f : EntryFlags :=
          { late := c.state.plan.held, final := ends.isSome || drains, drafted := decide (0 < c.n), replayed := x.replayed
            assistLate := x.assistLate, eos := r.eosToken t }
        let s1 := (c.state.deliverToken x.req t x.edition stamp f).advanceGrammar x t
        let status := if decide (r.state = .draining) && (ends.isSome || drains) then some (r.ended.getD stFinished) else ends
        Chain.run stamp rest { state := s1, n := c.n + 1, last := t, pos := x.pos, ended := status }

/-- R206: the tokens that the draft model proposes for the next visit. -/
def draftsFor (ed pos token depth : Nat) : List Nat := (List.range depth).map (fun k => Config.draftToken ed pos token k)

/-- R19, R185, R206, R207, R208: a request after a visit that delivered `n` tokens from position `pos` on: its committed length,
the token fed back, its draft depth, and its state. -/
def Req.afterVisit (r : Req) (pos n last window : Nat) : Req :=
  let first := decide (pos < r.desc.promptLen.toNat)
  let singles := if first then 0 else if n = 1 then r.singles + 1 else 0
  let depth := if r.desc.draftAdapt ∧ 16 ≤ singles then 0 else r.depth
  { r with
    committed := pos + n, lastToken := last, fedAt := window, singles := singles, depth := depth
    drafts := draftsFor r.edition (pos + n) last depth
    state := if r.state = .prefill ∨ r.state = .admitted then .running else r.state
    sidedFrom := if r.state = .siding then .running else r.sidedFrom }

/-- R195, R215: a visit whose control node answered late: its request goes to the siding under `ASSIST`, whose cause lasts until the
assist sent again is answered; for a late sampling answer, the sampler's own draw having been used (R212), it clears at once
(log 105). -/
def State.assistSiding (s : State) (i : Nat) (xs : List Slot) (last : Nat) : State :=
  let x := xs.headD {}
  if x.gramLate && (s.req i).advances x.pos last then
    let s1 := (s.blame i 0x07).toSiding i causeAssist
    match x.gramNext with
    | some next => s1.gramSettled i next
    | none => s1
  else if xs.any (fun y => y.assistLate) then ((s.blame i 0x07).toSiding i causeAssist).clearCause i causeAssist
  else s

/-- R206: delivers a visit, or the first token of a prefill, at the release of window `n + 1`; what it delivers counts as committed
also where it ends the request (R186, R208). -/
def State.deliverVisit (s : State) (i : Nat) (xs : List Slot) : State :=
  let x := xs.headD {}
  let c := Chain.run x.drawStamp.toNat xs { state := s }
  let s1 := if c.n = 0 then c.state
    else (c.state.updReq i (fun r => r.afterVisit x.pos c.n c.last (s.plan.window + 1))).writeContext i
  match c.ended with
  | some st => (s1.dropSlots i).retire i st
  | none =>
    let r := s1.req i
    if r.desc.ship ∧ x.pos < r.desc.promptLen.toNat then s1.startShipment i else s1.assistSiding i (xs.take c.n) c.last

/-- R200, R437: at a cancel or the end of its edition, the token of a request that was sampled before the boundary is delivered, though the control node has not
answered for its grammar. -/
def State.deliverSampled (s : State) (i : Nat) : State :=
  let mine := sortBy Slot.pos (s.plan.slots.filter (fun x => x.req = i ∧ (s.edition x.edition).sections ≤ x.sect))
  let xs := mine.takeWhile (fun x => x.draw.isSome && !s.alaok.assists.any (fun a => decide (a.fn = 2) && decide (a.slot = x.id)))
  match xs with
  | [] => s
  | x :: _ => if x.drafted then s else
    (Chain.run x.drawStamp.toNat (xs.map (fun y => { y with gramLate := y.gramLate || y.gramNext.isNone })) { state := s }).state

/-- R437: the tokens of an edition's requests that were sampled before the boundary are delivered. -/
def State.sampledOf (s : State) (ed : Nat) : State :=
  (s.reqs.entries.filter (fun (x : Nat × Req) => x.2.edition = ed)).foldl (fun (t : State) x => t.deliverSampled x.1) s

/-- R212, R215: whether a visit waits for the control node. -/
def State.visitWaits (s : State) (xs : List Slot) : Bool := xs.any s.drawWaits

/-- The requests with a finished pass, in the order of the slots. -/
def State.finishedReqs (s : State) : List Nat :=
  (s.plan.slots.filter s.passDone).foldl (fun l x => if l.contains x.req then l else l ++ [x.req]) []

/-- R19, R381: what the last sections' passes leave: finished prefill positions go, draws are delivered, and a visit whose control
node has not answered waits; the other passes move on to the next section. -/
def State.deliverWindow (s : State) : State :=
  let done := s.plan.slots.filter s.passDone
  let s1 : State := { s with plan := { s.plan with slots := s.plan.slots.filterMap (fun x =>
    if s.passDone x then
      (if x.lastPrompt && s.visitWaits (done.filter (fun y => y.req = x.req)) then some { x with sect := (s.edition x.edition).sections }
       else none)
    else some (s.slotOn x)) } }
  s.finishedReqs.foldl (fun (t : State) i =>
    let xs := sortBy Slot.pos (done.filter (fun y => y.req = i ∧ y.lastPrompt))
    match xs with
    | [] => t
    | x :: _ =>
      let r := t.req i
      if r.gen ≠ x.gen ∨ r.state = .free ∨ r.state = .retired then t
      else if s.visitWaits xs then t
      else if x.drafted then t
      else t.deliverVisit i xs) s1

end Sys2Proof.Machine
end

