-- ==== Sys2Proof/Machine/Regrid.lean ====
section
/-! DEFINITION. What a boundary does to the timetable (R194 to R197, R229 to R232): decided limits take effect, W, F and E are
taken again, visits are moved to the new grid, requests go to the siding and return from it. -/

namespace Sys2Proof.Machine

/-! Limits that take effect (R229, R232, R227). -/

/-- R227, R232: a throttle count falls at a boundary, and what rises with it takes effect at once. -/
def State.lowerThrottle (s : State) (f : Nat) : State :=
  if !(s.power f).lowerT then s
  else
    let s1 := s.updPower f (fun p => { p with t := p.t - 1, lowerT := false, lastLower := s.stamp })
    let l := s1.changed [(f, s1.target f (s1.grantAlone f))]
    if l.any (fun x => (s1.power x.1).limits.fall x.2) then s1.decideField f else s1.setLimits l 0

/-- R36: what the grants of all fields leave of the budget. -/
def State.unGranted (s : State) : Nat := s.budget.inForce - (allFields.map (fun f => (s.power f).grant)).sum

/-- Table 8-4 phase 6: the limits of a field decided for this boundary: the converter's limits, the allowance with the bucket
clamped to it, and the setpoint, whose slew begins. Grants that fall go first (`rises` false); a grant that rises takes no more than
the others leave of the budget (R36), and the rest of it waits for a later boundary. -/
def State.applyLimits (s : State) (rises : Bool) (f : Nat) : State :=
  let p := s.power f
  match (p.drops.filter (fun d => d.due.toNat ≤ s.now)).getLast? with
  | none => s
  | some d =>
    let l := d.limits
    if decide (p.grant < l.grant) ≠ rises then s
    else
      let g := if rises then Nat.min l.grant (p.grant + s.unGranted) else l.grant
      let a := allowanceOf g
      let later := p.drops.filter (fun d => s.now < d.due.toNat)
      let left := if g < l.grant ∧ later.isEmpty then [d] else later
      let s1 := s.updPower f (fun p => { p with
        step := l.step, planned := stepPlanned l.step, hard := stepHard l.step
        grant := g, allowNext := a, bucket := Nat.min p.bucket a
        oldSetpoint := if l.setpoint = p.setpoint then p.oldSetpoint else some p.setpoint
        setpoint := l.setpoint, band := l.band, drops := left, seqT := if left.isEmpty then none else p.seqT })
      let s2 := if l.step = p.step then s1 else s1.event evPowerStep (f * 2 ^ 15) none l.step
      if l.step = 7 ∧ p.step ≠ 7 then s2.event evThermalPark (f * 2 ^ 15) else s2

/-- R233: what a boundary that takes `s` to `t` by its limits leaves of an answer: the choice where limits it was asked for apply. -/
def State.choose (t s : State) : State :=
  let mine := fun (u : State) => allFields.flatMap (fun f => (u.power f).drops.filter Drop.asked)
  { t with plan := { t.plan with
      choice := if (mine s).any (fun d => d.due.toNat ≤ s.now) then s.plan.prefer else []
      prefer := if (mine t).isEmpty then [] else s.plan.prefer } }

/-- R232: the fields whose limits are lowered from `s` to `t`, where some are raised. -/
def State.noteRises (t s : State) : State :=
  let moved := allFields.filter (fun f => (t.power f).limits ≠ (s.power f).limits)
  let fell := moved.filter (fun f => (s.power f).limits.fall (t.power f).limits)
  { t with plan := { t.plan with fell := if fell.length < moved.length then some fell else none } }

/-- The limits of every field at a boundary; the slews of the window before have ended. -/
def State.boundaryLimits (s : State) : State :=
  let s1 := allFields.foldl (fun (t : State) f => if (t.power f).oldSetpoint.isSome then
      t.updPower f (fun p => { p with oldSetpoint := none }) else t)
    (allFields.foldl (fun (t : State) f => t.lowerThrottle f) s)
  let s2 := [false, true].foldl (fun (u : State) rises => allFields.foldl (fun (t : State) f => t.applyLimits rises f) u) s1
  (s2.choose s1).noteRises s

/-! Visits on a new grid (R194). -/

/-- R196: the order in which requests are moved for `POWER`: lower priority first, then latest
admitted first. -/
def sidingOrder (l : List (Nat × Req)) : List (Nat × Req) :=
  sortBy (fun x => x.2.cls.priority.toNat) ((sortBy (fun x => x.2.order) l).reverse)

/-- The first window from `lo` on, over one period, from which visits of a request have room. -/
def State.roomFrom (s : State) (ed lo period slots : Nat) : Option Nat :=
  ((List.range period).map (fun i => lo + i)).find? (fun w0 => s.fits ed w0 period slots)

/-- The window after the one in progress. -/
def State.nextWindow (s : State) : Nat := s.plan.window + 1

/-- A request's next planned visit at or after the window to come. -/
def State.plannedVisit (s : State) (r : Req) : Nat :=
  if r.period = 0 ∨ s.nextWindow ≤ r.nextVisit then Nat.max r.nextVisit s.nextWindow
  else r.nextVisit + ceilDiv (s.nextWindow - r.nextVisit) r.period * r.period

/-- R193: a guaranteed request without room: its next bound is broken, reported with cause 0x08. -/
def State.brokenFor (s : State) (i : Nat) : State :=
  let r := s.req i
  (s.blame i 0x08).lateReport i 0x08 r.firstDone.toNat ((r.nextBound.map Prod.fst).getD 0) 0 s.now

/-- Table 7-16: after a change of W the first-token bound of a prefill that is planned anew is checked again (R192 step 6): a plan
that passes it is reported with cause 0x08, and so is a token that passes what was admitted. -/
def State.recheckFirst (s : State) (i : Nat) (we : Int) : State :=
  let r := s.req i
  let e := s.edition r.edition
  let left : Int := (we - s.nextWindow + 1 + (s.passLength r.edition s.plan.wNext : Nat)
    + (e.allowance r.cls.replay.toNat * e.drep : Nat)) * (s.plan.wNext : Nat)
  let tft := (s.since r.acceptedAt + left : Int)
  let bound := r.cls.firstUs.toNat * 1000
  if s.plan.wNext = s.plan.w ∨ bound = 0 ∨ r.suspended ∨ tft ≤ r.firstNs then s
  else
    let s1 := s.blame i 0x08
    if tft ≤ bound then s1 else s1.lateReport i 0x08 0 bound (tft - bound).toNat s.now

/-- R192 steps 3 to 6 for the prefill positions a request has still to enter, with no first-token check: the plan. -/
def State.replanPrefill (s : State) (i period : Nat) : PlanRes :=
  let r := s.req i
  s.planRequest { ed := r.edition, a := s.nextWindow, need := r.desc.promptLen.toNat - r.prefillPos, period := period
                  slots := 1 + r.depth, extra := 0, bound := 0, w := s.plan.wNext, wait := 0, first := s.nextWindow }

/-- Whether a request has prefill positions still to enter section 0. -/
def Req.prefilling (r : Req) : Bool :=
  decide (r.state = .admitted ∨ r.state = .prefill) && decide (r.committed = 0) && decide (r.prefillPos < r.desc.promptLen.toNat)

/-- The window in which the last prefill slot of a request entered section 0, while it is under way. -/
def State.lastPrefill (s : State) (i : Nat) : Option Int :=
  ((s.plan.slots ++ s.plan.replays.map Replay.slot).find? (fun x => decide (x.req = i) && x.lastPrompt)).map (fun x => (x.entered : Int))

/-- R194 step 2: places a request, whose visits are off the grid, at a period: its prefill and its visits from the first window at or
after `planned` that has room; none without room. -/
def State.placeAgain (s : State) (i planned period : Nat) : Option State :=
  let r := s.req i
  if r.prefilling then
    match s.replanPrefill i period with
    | .ok l w0 we => some ((s.recheckFirst i we).updReq i (fun r => { r with period := period, prefill := l, nextVisit := w0 }))
    | _ => none
  else
    let s1 := match (if r.firstDone then none else s.lastPrefill i) with
      | some we => s.recheckFirst i we
      | none => s
    (s1.roomFrom r.edition planned period (1 + r.depth)).map (fun w0 =>
      s1.updReq i (fun r => { r with period := period, nextVisit := w0 }))

/-- R194: the period that a request is placed with, and whether it is a guaranteed one kept at P = F. -/
def State.keptPeriod (s : State) (r : Req) : Nat × Bool :=
  let p := s.periodOf r
  if p = 0 then ((s.edition r.edition).frame, true) else (p, false)

/-- R230: a guaranteed request for which there is no room keeps its visits, moved by R194 step 2. -/
def State.keepVisits (s : State) (i planned period : Nat) : State :=
  (s.placeAgain i planned period).getD (s.updReq i (fun r => { r with period := period, nextVisit := planned }))

/-- R194 steps 1 to 3: places a request, whose visits are off the grid, again. One without a period or without room goes to the
siding under `POWER`; a guaranteed one keeps its visits, its broken bound reported unless it is already `told`. Where only
raised limits change an edition's room, none of its requests goes to the siding (R232, log 171). -/
def State.regridReq (s : State) (i planned : Nat) (told : Bool) : State :=
  let r := s.req i
  let k := s.keptPeriod r
  if k.2 ∧ !r.cls.guaranteed ∧ !s.plan.riseEds.contains r.edition then s.toSiding i causePower
  else
    let s1 := s.updReq i (fun r => { r with kept := k.2 })
    match s1.placeAgain i planned k.1 with
    | some t => t
    | none =>
      if !r.cls.guaranteed ∧ !s.plan.riseEds.contains r.edition then s1.toSiding i causePower
      else
        let s2 := s1.keepVisits i planned k.1
        if r.cls.guaranteed ∧ !told then s2.brokenFor i else s2

/-- The requests with a place on the grid of an edition, and the window of the next visit of each, in the order in which a
re-grid places them: guaranteed ones first, then by priority, then by admission. -/
def State.onGrid (s : State) (ed : Nat) : List (Nat × Nat) :=
  let l := s.reqs.entries.filter (fun (x : Nat × Req) => x.2.edition = ed ∧ x.2.active ∧ x.2.period ≠ 0)
  let m := sortBy (fun (x : Nat × Req) => (if x.2.cls.guaranteed then 0 else 8) + (7 - x.2.cls.priority.toNat))
    (sortBy (fun (x : Nat × Req) => x.2.order) l)
  m.map (fun x => (x.1, s.plannedVisit x.2))

/-- Takes requests off the grid, to place them again. -/
def State.offGrid (s : State) (l : List Nat) : State :=
  l.foldl (fun (t : State) i => t.updReq i (fun r => { r with
    period := 0, prefill := if r.prefilling then [] else r.prefill })) s

/-- R194: the visits of an edition's requests on its new grid; a longer frame moves a first visit that waits for its prefill. -/
def State.regrid (s : State) (ed oldFrame : Nat) (told : List Nat) : State :=
  let l := s.onGrid ed
  let more := (s.edition ed).frame - oldFrame
  l.foldl (fun (t : State) x =>
    t.regridReq x.1 (if (t.req x.1).firstDone then x.2 else x.2 + more) (told.contains x.1)) (s.offGrid (l.map Prod.fst))

/-! Less room (R230). -/

/-- The windows to come, over `n` of them, that hold more than an edition's entry limit. -/
def State.overfull (s : State) (ed n : Nat) : List Nat :=
  let e := s.edition ed
  ((List.range n).map (fun i => s.nextWindow + i)).filter (fun n => e.entryLimit < s.load ed n)

/-- R230: makes room over `n` windows in an edition whose entry limit fell: requests that choose themselves first (R233), then in the
order of R196; guaranteed requests are never moved: their visits shift, and their next bound is broken. Also the requests so
reported. -/
def State.makeRoom (s : State) (ed n : Nat) : State × List Nat :=
  let l := s.reqs.entries.filter (fun (x : Nat × Req) => x.2.edition = ed ∧ x.2.active ∧ !x.2.cls.guaranteed)
  let order := l.filter (fun x => s.plan.choice.contains x.1) ++ (sidingOrder l).filter (fun x => !s.plan.choice.contains x.1)
  let s1 := order.foldl (fun (t : State) x =>
    if (t.overfull ed n).any (fun n => decide ((t.req x.1).slotsAt n ≠ 0)) then t.toSiding x.1 causePower else t) s
  let full := s1.overfull ed n
  if full.isEmpty then (s1, [])
  else
    let left := (s1.onGrid ed).filter (fun x => full.any (fun n => decide ((s1.req x.1).slotsAt n ≠ 0)))
    (left.foldl (fun (t : State) x => ((t.offGrid [x.1]).keepVisits x.1 x.2 (t.req x.1).period).brokenFor x.1) s1,
      left.map Prod.fst)

/-- R188, R190, R194, R230: the grid terms of an edition at the boundary: room is made where E falls, and what changes with W or F is
placed again. -/
def State.regridEdition (s : State) (wOld ed : Nat) : State :=
  let e := s.edition ed
  let s1 := s.gridOf ed s.plan.wNext
  let v := s1.edition ed
  let r := if v.entryLimit < e.entryLimit ∧ !s.plan.riseEds.contains ed then s1.makeRoom ed (64 * Nat.max e.frame v.frame) else (s1, [])
  if v.frame ≠ e.frame ∨ s.plan.wNext ≠ wOld then r.1.regrid ed e.frame r.2 else r.1

/-- R194, R229, R231, R232: the plan of the window to come: W, then the grid of every edition that carries tokens. What a boundary that
raises limits, lowers none of an edition's own fields and does not lengthen W changes for that edition, the raised limits change. -/
def State.replanGrid (s : State) : State :=
  let w := s.planW
  let eds := (s.editions.entries.filter (fun (x : Nat × Edition) => x.2.carries)).map Prod.fst
  let s1 : State := { s with plan := { s.plan with
    wNext := w
    riseEds := match s.plan.fell with
      | some l => if w ≤ s.plan.wNext then eds.filter (fun ed => !(s.edFields ed).any (fun f => l.contains f)) else []
      | none => [] } }
  let s2 := eds.foldl (fun (t : State) ed => t.regridEdition s.plan.wNext ed) s1
  { s2 with plan := { s2.plan with choice := [], fell := none, riseEds := [] } }

/-! The way out of the siding (R195, R197). -/

/-- R197: the visits that a request in the siding would return with: its period, its prefill and its first visit, which a forerunner
edition's pool rows must bear (R157). -/
def State.siding (s : State) (i : Nat) : Option (Nat × List (Nat × Nat) × Nat) :=
  let r := s.req i
  let f := (s.edition r.edition).frame
  let p := s.periodOf r
  let plan : Option (Nat × List (Nat × Nat) × Nat) :=
    if p = 0 ∨ (s.edition r.edition).noService then none
    else if r.sidedFrom = .running then
      let lo := Nat.max (r.fedAt + f) s.nextWindow
      (((List.range (p + 1 - f)).map (fun k => lo + k)).find? (fun w0 => s.fits r.edition w0 p (1 + r.depth))).map (fun w0 =>
        (p, [], w0))
    else match s.planRequest
        { ed := r.edition, a := s.nextWindow, need := r.desc.promptLen.toNat - Nat.max r.prefillPos r.committed, period := p
          slots := 1 + r.depth, extra := 0, bound := 0, w := s.plan.wNext, wait := 0, first := s.nextWindow + 1 } with
      | .ok l w0 _ => some (p, l, w0)
      | _ => none
  plan.filter (fun x => !s.poolShort r.edition (s.edPasses r.edition (some i)
    + passesPerDay s.aheadW x.1 x.2.1.length (r.desc.maxLen.toNat - r.committed)))

/-- R185, R197: a request returns from the siding; its next token is flagged `sided` and its between-token clock restarts. -/
def State.fromSiding (s : State) (i : Nat) (p : Nat) (prefill : List (Nat × Nat)) (w0 : Nat) : State :=
  let s1 := s.updReq i (fun r => { r with
    state := r.sidedFrom, causes := 0, period := p, prefill := prefill, nextVisit := w0, sidedFlag := true, kept := false
    lastStamp := if r.suspended then s.stamp else r.lastStamp })
  (s1.sidedReport i 0 1).wakeAll (s1.edFields (s1.req i).edition)

/-- R197, R221, R336: the causes of a request in the siding that have cleared by themselves: room in its ring. -/
def State.ringClears (s : State) (i : Nat) : State :=
  let r := s.req i
  if r.causes.getLsbD causeRing ∧ s.ringRoom i (r.depth + 2) then s.clearCause i causeRing else s

/-- R197: the test at a boundary of the requests in the siding whose causes but `POWER` have cleared, in descending priority
and then by entry into the siding. -/
def State.sidingTests (s : State) : State :=
  let l := s.reqs.entries.filter (fun (x : Nat × Req) => x.2.state = .siding)
  let s1 := l.foldl (fun (t : State) x => t.ringClears x.1) s
  let order := sortBy (fun (x : Nat × Req) => 7 - x.2.cls.priority.toNat) (sortBy (fun (x : Nat × Req) => x.2.sidedOrder) l)
  order.foldl (fun (t : State) x =>
    let r := t.req x.1
    if (r.causes &&& 0xE#4) ≠ 0 ∨ r.held then t
    else match t.siding x.1 with
      | some (p, pre, w0) => t.fromSiding x.1 p pre w0
      | none => t) s1

end Sys2Proof.Machine
end

