-- ==== Sys2Proof/Machine/Protect.lean ====
section
/-! DEFINITION. Protection (R340 to R354): the checks of `PR_SET`, what a change of the tables does at its boundary (Table 12-4),
`PR_GET`, the owner key and firmware fragments (R348, R358), and attestation (R360). -/

namespace Sys2Proof.Machine

/-! Entries. -/

/-- Table 12-1: the 176 bytes of an entry. -/
def protBytes (e : ProtEntry) : List Byte :=
  leBytes 1 e.valid.toNat ++ leBytes 1 e.rights.toNat ++ leBytes 1 e.portShare.toNat ++ leBytes 1 e.stationShare.toNat
    ++ leBytes 1 e.fireShare.toNat ++ leBytes 3 0 ++ leBytes 4 e.reqFirst.toNat ++ leBytes 4 e.reqCount.toNat
    ++ leBytes 4 e.steerFirst.toNat ++ leBytes 4 e.steerCount.toNat ++ e.extents.toList.flatMap (fun x => leBytes 2 x.toNat)
    ++ leBytes 48 e.tenantKey.toNat ++ leBytes 48 e.imageKey.toNat ++ leBytes 8 0

/-- What an entry grants: nothing while its `valid` bit is clear. -/
def protGrants (e : ProtEntry) : ProtEntry := if e.valid then e else {}

/-- The extents that an entry grants on a stack. -/
def protOnStack (e : ProtEntry) (k : Nat) : Nat := ((protGrants e).extents.toList.getD k 0).toNat

/-- The tables of R344: the 64 entries and the core map. -/
structure Tables where
  entries : List ProtEntry
  map     : Map Nat

/-- Writes entries from `first` on. -/
def Tables.setEntries (t : Tables) (first : Nat) (l : List ProtEntry) : Tables :=
  { t with entries := t.entries.take first ++ l ++ t.entries.drop (first + l.length) }

/-- Writes core map bytes from `first` on. -/
def Tables.setMap (t : Tables) (first : Nat) (l : List Byte) : Tables :=
  { t with map := ((List.range l.length).zip l).foldl (fun (m : Map Nat) (x : Nat × Byte) => m.put (first + x.1) x.2.toNat) t.map }

/-- R344: the tables as they will stand at the next boundary, after every change accepted for it. -/
def State.tablesNext (s : State) : Tables :=
  s.mod.deferred.foldl (fun (t : Tables) d => match d with
    | .prot first l _ _ => t.setEntries first l
    | .coreMap first l _ _ => t.setMap first l
    | _ => t) { entries := (List.range partitionCount).map (fun p => (s.part p).entry), map := s.mod.coreMap }

/-- Whether a property of two elements fails for some pair of a list. -/
def somePair {α : Type} (p : α → α → Bool) : List α → Bool
  | [] => false
  | x :: t => t.any (p x) || somePair p t

/-- R344: a request or steering range of an entry that runs past its table. -/
def protOutside (e : ProtEntry) : Bool :=
  decide (131072 < e.reqFirst.toNat + e.reqCount.toNat) || decide (262144 < e.steerFirst.toNat + e.steerCount.toNat)

/-- R344: two entries whose ranges overlap. -/
def protOverlaps (a b : ProtEntry) : Bool :=
  rangesMeet a.reqFirst.toNat a.reqCount.toNat b.reqFirst.toNat b.reqCount.toNat
    || rangesMeet a.steerFirst.toNat a.steerCount.toNat b.steerFirst.toNat b.steerCount.toNat

/-- R344, Table 12-1: an entry whose `rights`, `req_first`, `req_count` or extent count is out of its range; a reserved bit of `rights`
that is set counts as out of its range (R14 reads otherwise, log 153). -/
def protBad (e : ProtEntry) : Bool :=
  decide (31 < e.rights.toNat) || decide (e.reqFirst.toNat % 256 ≠ 0) || decide (e.reqCount.toNat % 256 ≠ 0)
    || decide (131072 < e.reqCount.toNat) || e.extents.toList.any (fun x => decide (768 < x.toNat))

/-- R341: a core map entry that may not stand: cores 64 to 67 (the ledger cores among them), absent positions and reserve fields
own nothing. -/
def State.mapBad (s : State) (i v : Nat) : Bool :=
  decide (v ≠ 255) && (decide (63 < v) || !fieldExists (i / coresPerField) || decide (64 ≤ i % coresPerField)
    || decide ((s.field (i / coresPerField)).role = .roundhouse))

/-- R344: the firing shares of the partitions that hold cores in some field add up to more than 256. -/
def Tables.firesOver (t : Tables) : Bool :=
  allFields.any (fun f =>
    let ps := ((List.range coresPerField).map (fun c => t.map.find (coreKey f c) 255)).foldl (fun l p =>
      if p < partitionCount then insertNat p l else l) []
    decide (256 < (ps.map (fun p => ((t.entries.getD p {}).fireShare).toNat)).sum))

/-- R344: whether the tables may not stand together. -/
def Tables.bad (t : Tables) : Bool :=
  let l := t.entries.filter (fun e => e.valid)
  l.any protOutside || somePair protOverlaps l
    || (List.range stackCount).any (fun k => decide (768 < (l.map (fun e => protOnStack e k)).sum))
    || decide (256 < (l.map (fun e => e.portShare.toNat)).sum) || decide (256 < (l.map (fun e => e.stationShare.toNat)).sum)
    || t.firesOver

/-! What work sees (Table 12-4). -/

/-- R351: a request retires with status `DENIED`: what is left of it is abandoned, with its replays. -/
def State.denyReq (s : State) (i : Nat) : State :=
  let r := s.req i
  if r.state = .free ∨ r.state = .retired then s
  else (s.dropSlots i).endRequest i stDenied

/-- R146, R351: the switch pending in a partition ends with a status before it takes effect; one past its gate runs on. -/
def State.endSwitch (s : State) (p status : Nat) : State :=
  match (s.part p).switch with
  | none => s
  | some w =>
    let e := s.edition w.edition
    if (e.rolling.map (fun r => decide (r.phase ≠ .waiting))).getD false then s
    else s.cancelSwitch w.edition status

/-- R351: an edition is revoked: each of its requests retires with `DENIED`, and it goes to FREE whatever its state. -/
def State.revoke (s : State) (ed : Nat) : State :=
  let p := (s.edition ed).partition
  let s0 := s.sampledOf ed
  let s1 := (s0.reqs.entries.filter (fun (x : Nat × Req) => x.2.edition = ed ∧ x.2.partition = p)).foldl
    (fun (t : State) x => t.denyReq x.1) s0
  let s2 := s1.endEdition ed stDenied
  s2.updPart p (fun v => { v with current := if v.current = ed then 0 else v.current })

/-- R351: the free entries of a partition's new request range: those free before keep their turn. -/
def State.newRange (s : State) (p : Nat) (old new : ProtEntry) : State :=
  if (protGrants old).reqFirst = (protGrants new).reqFirst ∧ (protGrants old).reqCount = (protGrants new).reqCount then s
  else
    let lo := (protGrants new).reqFirst.toNat
    let n := (protGrants new).reqCount.toNat
    let mine := (List.range (protGrants old).reqCount.toNat).map (fun i => (protGrants old).reqFirst.toNat + i)
    let gone := mine.filter (fun i => !(decide (lo ≤ i) && decide (i < lo + n)))
    let s1 := gone.foldl (fun (t : State) i => if (t.req i).state = .free then t else (t.denyReq i).freeReq i) s
    s1.updPart p (fun v =>
      let kept := v.freed.filter (fun i => decide (lo ≤ i) && decide (i < lo + n))
      let rest := ((List.range n).map (fun i => lo + i)).filter (fun i => decide ((s1.req i).state = .free) && !kept.contains i)
      { v with fresh := n, freed := rest ++ kept })

/-- R353: extents of a stack leave their partition: they are cleared before any region can use them. -/
def State.clearExtents (s : State) (k : Nat) (ext : List Nat) : State :=
  s.updStack k (fun v => { v with
    clearing := ext.foldl (fun l e => insertNat e l) v.clearing, used := ext.foldl (fun l e => insertNat e l) v.used
    owner := ext.foldl (fun m e => m.erase e) v.owner })

/-- R343, R351, R353: extents taken from a partition on a stack: first those that none of its regions uses; then its regions made
last become void until the rest fit. -/
def State.takeExtents (s : State) (p k : Nat) (allowed : Nat) : State :=
  let mine := (s.part p).regions.entries.map (fun (x : Nat × Region) => (0, x.1, x.2))
    ++ (s.editions.entries.filter (fun (x : Nat × Edition) => x.2.partition = p ∧ x.2.state ≠ .free)).flatMap (fun x =>
      x.2.regions.entries.map (fun (y : Nat × Region) => (x.1, y.1, y.2)))
  let order := (sortBy (fun (x : Nat × Nat × Region) => x.2.2.madeIn) mine).reverse
  let inUse := (mine.map (fun x => (x.2.2.onStack k).length)).sum
  let idle := ((s.stack k).owner.entries.filter (fun x => x.2 = p ∧ !(s.stack k).used.contains x.1)).map Prod.fst
  let s1 := s.clearExtents k (idle.reverse.take (inUse + idle.length - allowed))
  (order.foldl (fun (acc : State × Nat) (x : Nat × Nat × Region) =>
    let ext := x.2.2.onStack k
    if acc.2 ≤ allowed ∨ ext.isEmpty then acc
    else
      let t := acc.1.clearExtents k ext
      let gone := x.2.2.withdrawn k
      let u := if x.1 = 0 then t.updPart p (fun v => { v with regions := v.regions.put x.2.1 gone })
        else t.updEdition x.1 (fun v => { v with regions := v.regions.put x.2.1 gone })
      (u, acc.2 - ext.length)) (s1, inUse)).1

/-- R350, R351: a protection entry takes effect. -/
def State.setEntry (s : State) (p : Nat) (new : ProtEntry) : State :=
  let old := (s.part p).entry
  let s1 := s.updPart p (fun v => { v with entry := new })
  let s2 := if (protGrants new).rights.getLsbD 0 then s1 else s1.endSwitch p stDenied
  let s3 := s2.newRange p old new
  let s4 := (List.range stackCount).foldl (fun (t : State) k =>
    if protOnStack new k < protOnStack old k then t.takeExtents p k (protOnStack new k) else t) s3
  let lo := (protGrants new).steerFirst.toNat
  s4.updPart p (fun v => { v with
    steers := v.steers.keep (fun i _ => decide (lo ≤ i) && decide (i < lo + (protGrants new).steerCount.toNat)) })

/-- R121, R351: whether an edition names a placement core, in a placement image that still waits for its pair too. -/
def Edition.namesPlace (e : Edition) (place : Nat) : Bool :=
  e.places.contains place || (e.held.find? 0).toList.any (fun x => (Placement.ofBytes x.payload).cores.any (fun c => decide (c.core = place)))

/-- R341, R351, R352: a core map entry takes effect: editions of the old owner that name the core are revoked, and the core is
owed a clear, for which its field wakes (R246). -/
def State.setOwner (s : State) (place owner : Nat) : State :=
  let old := s.ownerOf place
  if old = owner then s
  else
    let s1 : State := { s with mod := { s.mod with coreMap := s.mod.coreMap.put place owner } }
    if partitionCount ≤ old then s1
    else
      let eds := (s1.editions.entries.filter (fun (x : Nat × Edition) =>
        x.2.partition = old ∧ x.2.state ≠ .free ∧ x.2.namesPlace place)).map Prod.fst
      let k := s1.physOf place
      let s2 := (eds.foldl (fun (t : State) ed => t.revoke ed) s1).revokeRows k
      (s2.updCore k (fun c => { c with clearing := true, clearJob := none, clearDone := false })).beginWake (k / coresPerField)

/-- R350: the protection changes of a boundary, in acceptance order, with their final replies. -/
def State.protections (s : State) : State :=
  let l := s.mod.deferred
  let other := l.filter (fun d => match d with
    | .prot _ _ _ _ => false
    | .coreMap _ _ _ _ => false
    | _ => true)
  l.foldl (fun (t : State) d => match d with
    | .prot first es c tag =>
      (((List.range es.length).zip es).foldl (fun (u : State) (x : Nat × ProtEntry) => u.setEntry (first + x.1) x.2) t).finish c tag stOk
    | .coreMap first bs c tag =>
      (((List.range bs.length).zip bs).foldl (fun (u : State) (x : Nat × Byte) => u.setOwner (first + x.1) x.2.toNat) t).finish c tag
        stOk
    | _ => t) { s with mod := { s.mod with deferred := other } }

/-! `PR_SET` (R344, R348 to R350, R358). -/

/-- R129: a halted core goes on: past the halt at its pc, for one instruction if `step`. -/
def Core.goOn (c : Core) (step : Bool) : Core :=
  if c.mode = .halted ∨ c.mode = .halting then { c with mode := .running, stepping := step, passBp := true } else c

/-- R129: what a hold with a debug halt in it delays carries that cause. -/
def State.blameHalt (s : State) : State :=
  if s.plan.holdFrom.isNone then s
  else { s with reqs := s.reqs.mapVals (fun _ r => if r.lateCause = 0x01 then { r with lateCause := 0x02 } else r) }

/-- R129, R393: core `k` goes on, and the wait for its contribution counts again. -/
def State.resumeCore (s : State) (k : Nat) (step : Bool) : State :=
  (s.blameHalt.updCore k (fun c => c.goOn step)).updField (k / coresPerField) (fun v => { v with hungFrom := s.stamp })

/-- R350: the halted cores of a partition whose debug right a change withdraws resume at acceptance. -/
def State.resumeWithdrawn (s : State) (p : Nat) : State :=
  (s.cores.entries.filter (fun (x : Nat × Core) => (x.2.mode = .halted ∨ x.2.mode = .halting) ∧
    s.ownerOf (x.2.placeId.getD x.1) = p)).foldl (fun (t : State) x => t.resumeCore x.1 false) s

/-- Holds a protection change for the next boundary; without boundaries it acts at once. -/
def State.protect (s : State) (h : Hdr) (d : Deferred) : State :=
  let s1 := (s.interim h stAccepted).defer d
  if s.hasBoundaries then s1 else s1.protections

/-- PR_SET_ENTRIES (R344, R350): write protection entries, effective at the next boundary. -/
def execPrSetEntries (h : Hdr) (first : Nat) (entries : List ProtEntry) (s : State) : Out :=
  let n := entries.length
  .next (s.command h rowPrSet (h.length = 16 + 176 * n) (fun s =>
    if n = 0 ∨ partitionCount < first + n ∨ entries.any protBad ∨ (s.tablesNext.setEntries first entries).bad then
      .refuse stBadParam 0 []
    else
      let s1 := ((List.range n).zip entries).foldl (fun (t : State) (x : Nat × ProtEntry) =>
        if (protGrants (t.part (first + x.1)).entry).rights.getLsbD 3 ∧ !(protGrants x.2).rights.getLsbD 3 then
          t.resumeWithdrawn (first + x.1) else t) s
      .run (s1.protect h (.prot first entries h.conn h.cmdTag))))

/-- PR_SET_CORE_MAP (R341, R344, R350): write core map bytes, effective at the next boundary. -/
def execPrSetCoreMap (h : Hdr) (first : Nat) (bytes : List Byte) (s : State) : Out :=
  let n := bytes.length
  .next (s.command h rowPrSet (h.length = 16 + n) (fun s =>
    if n = 0 ∨ 6800 < first + n ∨ ((List.range n).zip bytes).any (fun x => s.mapBad (first + x.1) x.2.toNat)
        ∨ (s.tablesNext.setMap first bytes).bad then .refuse stBadParam 0 []
    else .run (s.protect h (.coreMap first bytes h.conn h.cmdTag))))

/-- PR_SET_OWNER_KEY (R348): replace the owner digest; a snapshot starts at once and the final reply follows it. -/
def execPrSetOwnerKey (h : Hdr) (rsa slh : List Byte) (s : State) : Out :=
  .next (s.command h rowPrSet (h.length = 448) (fun s =>
    if s.ledger.ownerNext.isSome then .refuse stBusy 0 []
    else
      let s1 : State := { s with ledger := { s.ledger with ownerNext := some (keyDigest rsa slh, h.conn, h.cmdTag) } }
      .run (s1.startSnapshot.interim h stAccepted)))

/-- R357: bytes that a firmware image may have. -/
def fwAreaBytes : Nat := 2199552

/-- PR_SET_FIRMWARE (R357, R358): install an image fragment; the last one has the image checked as role 0 and written through a
snapshot. -/
def execPrSetFirmware (h : Hdr) (last commitSvn : Bool) (first : Nat) (bytes : List Byte) (s : State) : Out :=
  .next (s.command h rowPrFirmware (h.length = 16 + bytes.length) (fun s =>
    let have' := if first = 0 then [] else s.ledger.fwFrag
    if first ≠ have'.length ∨ fwAreaBytes < first + bytes.length then .refuse stBadParam 0 []
    else
      let img := have' ++ bytes
      let keep := fun (t : State) (l : List Byte) => ({ t with ledger := { t.ledger with fwFrag := l } } : State)
      if !last then .run ((keep s img).ok h)
      else
        let code := natAt img 12 4
        let svn := natAt img 8 4
        if s.ledger.fwNext.isSome then .refuse stBusy 0 []
        else if natAt img 0 4 ≠ 0x5746564B ∨ natAt img 4 2 ≠ 1 ∨ img.length ≠ 64 + code + sigBytes
            ∨ !sigOk img (64 + code) 0 Config.role0Anchor then .run ((keep s []).ok h stBadSignature)
        else if svn < s.ledger.minSvn then .run ((keep s []).ok h stVersion)
        else
          let s1 : State := { (keep s []) with ledger := { (keep s []).ledger with
            fwNext := some ({ svn := svn, bytes := img, made := false }, commitSvn, h.conn, h.cmdTag) } }
          .run (s1.startSnapshot.interim h stAccepted)))

/-! Reading. -/

/-- PR_GET (R340, R354): read protection entries, or core map bytes; at level 1 those of the session's partitions. -/
def execPrGet (h : Hdr) (op : BitVec 8) (first count : Nat) (s : State) : Out :=
  .next (s.command h rowPrGet true (fun s =>
    let sees := fun (p : Nat) => s.isLevel0 h.conn || s.sessOwns h.conn p
    if op = 0 then
      if count = 0 ∨ partitionCount < first + count then .refuse stBadParam 0 []
      else if !((List.range count).all (fun i => sees (first + i))) then .refuse stDenied 0 []
      else .run (s.ok h stOk 0 ((List.range count).flatMap (fun i => protBytes (s.part (first + i)).entry)))
    else if op = 1 then
      if count = 0 ∨ 6800 < first + count then .refuse stBadParam 0 []
      else .run (s.ok h stOk 0 ((List.range count).flatMap (fun i =>
        let p := s.ownerOf (first + i)
        leBytes 1 (if s.isLevel0 h.conn || (decide (p < partitionCount) && sees p) then p else 255))))
    else .refuse stBadParam 0 []))

/-- Table 12-8: the record of a partition in an attestation. -/
def State.attestRecord (s : State) (p : Nat) : List Byte :=
  let e := (s.part p).entry
  let map := (List.range 6800).flatMap (fun i => leBytes 1 (if s.ownerOf i = p then p else 255))
  let cur := (s.part p).current
  leBytes 1 p ++ leBytes 1 e.rights.toNat ++ leBytes 2 cur ++ leBytes 4 0 ++ leBytes 48 (Config.sha384 (protBytes e ++ map))
    ++ leBytes 48 (if cur = 0 then 0 else Config.sha384 (s.edition cur).manifest) ++ leBytes 24 0

/-- Table 12-8: an attestation of partitions with a nonce. -/
def State.attestation (s : State) (ps : List Nat) (nonce : List Byte) : List Byte :=
  let reserve := (allFields.filter (fun f => (s.field f).role = .roundhouse)).length
  let b := leBytes 4 0x5441564B ++ leBytes 2 1 ++ leBytes 2 ps.length ++ leBytes 16 Config.serial.toNat
    ++ leBytes 48 Config.identityDigest ++ leBytes 48 (Config.sha384 s.ledger.fwBytes) ++ leBytes 4 s.ledger.fwSvn
    ++ leBytes 4 s.ledger.minSvn ++ leBytes 48 s.ledger.owner ++ bytesAt (nonce ++ List.replicate 48 0) 0 48
    ++ leBytes 8 s.now ++ leBytes 1 s.mod.state.code ++ leBytes 1 reserve ++ leBytes 2 s.mod.serviceSet.length ++ leBytes 20 0
    ++ ps.flatMap s.attestRecord
  b ++ identityBlock b

/-- PR_ATTEST (R360): a signed attestation of the module and the partitions of a mask; at most 4 are in progress. -/
def execPrAttest (h : Hdr) (nonce : List Byte) (mask : U64) (s : State) : Out :=
  .next (s.command h rowPrAttest (h.length = 56) (fun s =>
    let ps := (List.range partitionCount).filter (fun p => mask.getLsbD p)
    if !s.isLevel0 h.conn && ps.any (fun p => !s.sessOwns h.conn p) then .refuse stDenied 0 []
    else if 4 ≤ s.mod.attests.length then .refuse stBusy 0 []
    else
      let s1 := s.interim h stAccepted
      .run { s1 with mod := { s1.mod with
        attests := s1.mod.attests ++ [{ conn := h.conn, cmdTag := h.cmdTag, report := s.attestation ps nonce }] } }))

end Sys2Proof.Machine
end

