-- ==== Sys2Proof/Machine/Bringup.lean ====
section
/-! DEFINITION. Power-up, bring-up and reset (R361 to R374, R422 to R424): what survives the loss of power, the phases of Table 13-2,
the tests of Table 13-3, the service set, `MG_RESET`, and power failure. -/

namespace Sys2Proof.Machine

/-! What survives (R364). -/

/-- R364: an array's levels and its ledger record, as committed; its trims in force are those of the record, and a column map of the ledger whose
spares are not all programmed waits for them. -/
def Array.kept (a : Array) : Array :=
  { levels := a.levels, stuck := a.stuck, trim := a.trimKept.1, colMap := a.colMap, mapLedger := a.mapLedger
    mapRows := if a.progMap = a.mapLedger then a.mapRows else []
    shadow := if a.mapLedger = a.colMap then none else some (a.trimKept.1, a.mapLedger)
    sampled := a.trimKept.1, tTrim := a.trimKept.2.1, birth := a.trimKept.2.2.1, tBirth := a.trimKept.2.2.2
    trimKept := a.trimKept, stamp := a.stamp, wear := a.wear, state := a.state, refOpen := a.refOpen
    refDue := a.refDue, overdueAt := if a.refDue then some 0 else none, trimLimit := a.trimLimit }

/-- R364: an engine: its arrays, and whether it failed a test. -/
def Engine.kept (e : Engine) : Engine := { arrays := e.arrays.mapVals (fun _ a => a.kept), failed := e.failed }

/-- R364: a core: its engines, and the engine map, row remap entries and state of its ledger record. -/
def Core.kept (c : Core) : Core :=
  { engines := c.engines.mapVals (fun _ e => e.kept), emap := c.emap, failed := c.failed, sp := { remap := c.sp.remap } }

/-- R364: a field: its ledger record. -/
def Field.kept (v : Field) : Field :=
  { role := v.role, ageAcc := v.ageKept, ageKept := v.ageKept, poweredS := v.poweredS, isolations := v.isolations, ledgerCopy := v.ledgerCopy, unrecorded := v.unrecorded
    marked := v.marked, sensors := v.sensors.mapVals (fun i _ => { broken := v.marked.getLsbD i }) }

/-- R424: a slot, or the image in it, that was only half written: its signatures do not verify. -/
def LedgerSlot.halfWritten (x : LedgerSlot) : LedgerSlot := { seq := x.seq, made := false }
def FwImage.halfWritten (i : FwImage) : FwImage := { svn := i.svn, made := false }

/-- R364, R424: the ledger; what had not been committed is lost, a committed relocation holds, and a slot that a snapshot was being
written into, with its firmware image where one was being installed, is spoilt. -/
def Ledger.kept (l : Ledger) : Ledger :=
  { l with relocation := l.relocNext.foldl (fun m x => if x.2 = x.1 then m.erase x.1 else m.put x.1 x.2) l.relocation
           slots := if l.snapping then l.slots.set (1 - l.slot) (l.slots.getD (1 - l.slot) {}).halfWritten else l.slots
           fw := if l.snapping && l.fwNext.isSome then l.fw.set (1 - l.slot) (l.fw.getD (1 - l.slot) {}).halfWritten else l.fw
           waiting := [], inHand := 0, relocNext := [], snapNext := {}, allDue := false, emapNext := [], snapping := false, ownerNext := none, fwFrag := [], fwNext := none
           rebuildA := none, rebuildB := none, copyA := none, copyB := none, lostA := false, lostB := false, counterAt := 0
           snapAt := 0 }

/-- R364: the module without power: what the arrays, the ledger and the firmware area keep, and nothing else. -/
def State.unpowered (s : State) : State :=
  { fields := s.fields.mapVals (fun _ v => v.kept), cores := s.cores.mapVals (fun k _ => (s.coreHeld k).kept), ledger := s.ledger.kept
    free := s.free, pending := s.pending }

/-- R251, R428: `alert_n` is low: `FEED_LOW` in force, a field isolated, in the ledger or declared so, the module out of service, or no timebase. -/
def State.alertLow (s : State) : Bool :=
  s.powered && (s.budget.feedLow || s.fields.vals.any (fun v => decide (v.role = .isolated) || decide (v.power.iso = .declared)) || decide (s.mod.state = .outOfService)
    || !s.clock.running)

/-! Phases 1 and 2 (R362, R363, R422). -/

/-- FEED_VALID (R362, R421): the feed has stayed valid for 10 ms, and power-up begins with everything but what survives
empty. -/
def execFeedValid (s : State) : Out :=
  .next (if s.mod.state ≠ .noPower then s
    else
      let s1 := s.unpowered
      { s1 with mod := { s1.mod with state := .bringUp, phase := 1, feedOk := true, pwrGood := s.mod.pwrGood } })

/-- HOT_SWAP_CHARGED (R422, R428): the hold-up capacitance is charged, and `pwr_good` is asserted. -/
def execHotSwapCharged (s : State) : Out :=
  .next (if s.mod.powerFail then s else { s with mod := { s.mod with pwrGood := true } })

/-- R363: the loop chosen: A if it locks and agrees with B, else whichever locked; where both locked and disagree, A. -/
def chooseLoop (aOk bOk : Bool) : Loop :=
  if aOk then .a else if bOk then .b else .none

/-- TIMEBASE_LOCK (R363): the loops lock or not, one is chosen, and the timebase starts at 0; with none the module stays dark. -/
def execTimebaseLock (aOk bOk _agree : Bool) (s : State) : Out :=
  .next (if !(decide (s.mod.state = .bringUp) && decide (s.mod.phase = 1) && s.mod.failure.isNone && !s.mod.powerFail) then s
    else if chooseLoop aOk bOk = .none then { s with mod := { s.mod with failure := some .timebase } }
    else { s with
      clock := { tb := 0, running := true, loop := chooseLoop aOk bOk }
      mod := { s.mod with phase := 2 } })

/-! The tests of a field (Table 13-3). -/

/-- R373: the two readings of a sensor. -/
def probeSensor (p : FieldProbe) (i : Nat) : Nat × Nat := ((p.sensors.getD i (0, 0)).1 / 16, (p.sensors.getD i (0, 0)).2 / 16)

/-- R373: whether a sensor works: neither reading at an end of the range, at least -20 °C, within 5 K of the median. -/
def probeWorks (p : FieldProbe) (i : Nat) : Bool :=
  let x := probeSensor p i
  let m := median2 ((List.range 8).map (fun j => (probeSensor p j).2))
  let ok := fun (c : Nat) => decide (c ≠ 0xFFF) && decide (480 ≤ c)
  ok x.1 && ok x.2 && decide (2 * x.2 ≤ m + 160) && decide (m ≤ 2 * x.2 + 160)

/-- Table 13-5: the bandgap that a belfry uses: channel 13 reads 2,400 ± 32 against channel 14 reading 0 to 8. -/
def probeBandgap (p : FieldProbe) : Option Nat :=
  let ok := fun (sum : Nat) => decide (p.ground / 16 ≤ 8) && decide (2368 ≤ sum / 16) && decide (sum / 16 ≤ 2432)
  if ok p.bandgap0 then some 0 else if ok p.bandgap1 then some 1 else none

/-- R369: a monitor's scale from the class-loop minimum and its own total. -/
def monitorScale (nMin m : Nat) : Nat := if m = 0 then 0 else 49 * 4096 * nMin / (50 * m) % 65536

/-- R369: the smallest class-loop total at a setpoint. -/
def probeMin (p : FieldProbe) (sp : Nat) : Nat := (leastBy id (p.classLoops.getD sp [])).getD 0

/-- R369: the scale of monitor `m` at a setpoint. -/
def probeScale (p : FieldProbe) (sp m : Nat) : Nat := monitorScale (probeMin p sp) ((p.monitors.getD sp []).getD m 0)

/-- Table 13-5: the wires that a byte lane of the link to neighbour `g` uses: the lowest 8 of its 10 that passed. -/
def probeWires (p : FieldProbe) (g lane : Nat) : List Nat :=
  ((List.range 10).filter (fun w => !p.wireFails.contains (g, lane, w))).take 8

/-- Table 13-5: whether the link to neighbour `g` is down: some byte lane of it has fewer than 8 wires left. -/
def probeLinkFails (p : FieldProbe) (g : Nat) : Bool :=
  p.wireFails.any (fun x => decide (x.1 = g) && decide ((probeWires p g x.2.1).length < 8))

/-- R370: a monitor is discarded where its scale at some setpoint is more than 10 % off the median. -/
def probeKept (p : FieldProbe) (m : Nat) : Bool :=
  (List.range 5).all (fun sp =>
    let med := median2 ((List.range 16).map (probeScale p sp))
    let x := 2 * probeScale p sp m
    decide (10 * x ≤ 11 * med) && decide (9 * med ≤ 10 * x))

/-- R370: the pace measured at a setpoint over the kept monitors. -/
def probePace (p : FieldProbe) (sp : Nat) : Nat :=
  (leastBy id (((List.range 16).filter (probeKept p)).map (fun m =>
    probeScale p sp m * (p.paceCounts.getD sp []).getD m 0 / 40960))).getD 0

/-- R370: whether the floor check fails at some setpoint, in the column of the hottest working sensor. -/
def probeSlow (p : FieldProbe) (hottest : Nat) : Bool :=
  (List.range 5).any (fun sp => decide (probePace p sp < paceFloor sp (bandOf hottest)))

/-- The list that a pair list gives a key. -/
def listOf (l : List (Nat × List Nat)) (k : Nat) : List Nat := ((l.find? (fun x => x.1 = k)).map Prod.snd).getD []

/-- R367: the engine map after a test: passing engines keep their place, and a failing one's goes to the lowest passing engine
not in the map. -/
def testedMap (old fails : List Nat) : List Nat :=
  (old.foldl (fun (acc : List Nat × List Nat) e =>
    if fails.contains e then (acc.1 ++ [acc.2.headD e], acc.2.drop 1) else (acc.1 ++ [e], acc.2))
    ([], (List.range enginesPerCore).filter (fun e => !old.contains e && !fails.contains e))).1

/-- R99, R367, R371: a line that the march tests found bad, or whose spare line they did, takes the lowest spare line that passed and
is free. -/
def Scratch.marchLine (p : Scratch) (x : Nat) : Scratch :=
  let used := p.remap ++ p.copying ++ p.waiting
  if used.any (fun r => decide (r.line = x)) then p
  else match (List.range 16).find? (fun n => !p.badSpares.contains n && !used.any (fun r => decide (r.spare = n))) with
    | some n => { p with waiting := p.waiting ++ [{ line := x, spare := n }] }
    | none => p

/-- R366: the scratchpad after its march over every line and spare line: the entries whose spare fails are given up, and each failing
line takes another spare, from the release on. -/
def Scratch.marched (p : Scratch) (lines spares : List Nat) : Scratch :=
  let lost := (p.remap.filter (fun r => spares.contains r.spare)).map Remap.line
  (lines ++ lost).foldl Scratch.marchLine
    { p with badSpares := spares, remap := p.remap.filter (fun r => !spares.contains r.spare) }

/-- R367: a core after its tests. -/
def Core.tested (c : Core) (fails : Bool) (engines lines spares : List Nat) (fill : Bool) : Core :=
  let sp := c.sp.marched lines spares
  let good := !fails && decide (engines.length ≤ 2)
    && (lines ++ c.sp.remap.map Remap.line).all (fun x => (sp.remap ++ sp.waiting).any (fun r => decide (r.line = x)))
  { c with
    good := good, failed := !good, emap := if good then testedMap c.emap engines else c.emap
    engines := (c.engines.keys ++ engines).foldl (fun (m : Map Engine) e =>
      m.put e { (m.find e {}) with failed := engines.contains e }) c.engines,
    sp := { sp with filled := fill } }

/-- R366: the good cores of a field, those of a ledger copy aside in a field that holds one. -/
def State.goodCores (s : State) (f : Nat) : Nat :=
  let n := if (s.field f).ledgerCopy ≠ 0 then 66 else coresPerField
  ((List.range n).filter (fun c => (s.core (coreKey f c)).good)).length

/-- R366: a field fails bring-up with a code: its rail off, its station fenced, packets led around it. -/
def State.fieldFails (s : State) (f code : Nat) : State :=
  (s.updField f (fun v => { v with code := code, brought := true, fenced := true, detour := true })).updPower f (fun p =>
    { p with converterOn := false, grant := 0, allow := 0, allowNext := 0 })

/-- Table 13-3 phase 1: bandgap and sensors; a mark that changes goes to the ledger, and a broken sensor is reported. -/
def State.senseField (s : State) (f : Nat) (p : FieldProbe) (fast : Bool) : State :=
  let s1 := s.updField f (fun v => { v with
    belfry := { v.belfry with bandgap := (probeBandgap p).getD 0 },
    sensors := (List.range 8).foldl (fun (m : Map Sensor) i =>
      let x := m.find i {}
      m.put i { x with code := (probeSensor p i).2, broken := if fast then x.broken else !probeWorks p i }) v.sensors })
  (List.range 8).foldl (fun (t : State) i =>
    let was := ((s.field f).sensors.find i {}).broken
    let now := ((s1.field f).sensors.find i {}).broken
    let t1 := if was = now then t else t.journal { kind := jkField, key := f, what := jwSensor, val := i, vals := [now.toNat] }
    if now ∧ !fast then t1.event evSensorBroken (f * 2 ^ 15) none i else t1) s1

/-- R365: whether the station of a field carries packets in bring-up. -/
def State.stationUp (s : State) (f : Nat) : Bool := (s.field f).brought && !(s.field f).fenced

/-- Table 13-3 phase 3: the links to the neighbours that are up are tested; each byte lane takes its lowest passing wires, and a
link with a byte lane short of them is down. -/
def State.testLinks (s : State) (f : Nat) (p : FieldProbe) : State :=
  let near := (gridNeighbours f).filter s.stationUp
  let lanes := near.flatMap (fun g =>
    ((p.wireFails.filter (fun x => x.1 = g)).foldl (fun l x => insertNat x.2.1 l) []).map (fun n => (g, n, probeWires p g n)))
  s.updField f (fun v => { v with wires := lanes, linksDown := near.filter (probeLinkFails p) })

/-- R365: the way of a field to the gate field through stations and links that are up: that of R25, or a detour of R26, of at most
4 hops more; none where there is none. -/
def State.bringRoute (s : State) (f : Nat) : Option (List Nat) :=
  let up := fun (x : Nat) => decide (x = f) || s.stationUp x
  let way := gridRoute f gateField
  if f = gateField ∨ (way.all up && s.linksOpen way) then some way
  else
    let w := detourRoute (fun a b => up b && s.linkOpen a b) f gateField
    if w.isEmpty ∨ gridDistance f gateField + 4 < w.length - 1 then none else some w

/-- R365: a field's station carries packets to the gate field by a way, a detour of which it holds. -/
def State.joined (s : State) (f : Nat) (way : List Nat) : State :=
  s.updField f (fun v => { v with
    lanesOk := true, detours := if way = gridRoute f gateField then v.detours else v.detours.put gateField way })

/-- Table 13-3 phase 4: monitor `i` of a field: whether it is kept, and its scale at each setpoint. -/
def probedMonitor (p : FieldProbe) (i : Nat) : Monitor :=
  { kept := probeKept p i, scale := (List.range 5).foldl (fun (x : Map Nat) sp => x.put sp (probeScale p sp i)) Map.empty }

/-- Table 13-3 phase 4: the scales of the monitors, and those kept. -/
def State.scaleField (s : State) (f : Nat) (p : FieldProbe) : State :=
  s.updField f (fun v => { v with
    monitors := (List.range 16).foldl (fun (m : Map Monitor) i => m.put i (probedMonitor p i)) v.monitors })

/-- Table 13-3 phase 5: the cores' tests; new maps, remaps and states go to the ledger and take effect from there (R178). -/
def State.testCores (s : State) (f : Nat) (p : FieldProbe) : State :=
  (List.range coresPerField).foldl (fun (t : State) c =>
    let k := coreKey f c
    let old := t.core k
    let new := old.tested (p.coreFails.contains c) (listOf p.engineFails c) (listOf p.lineFails c) (listOf p.spareFails c) (!t.mod.skipFill)
    let t1 := t.setCore k { new with emap := old.emap, failed := old.failed }
    let t2 := if new.emap = old.emap then t1 else t1.journal { kind := jkCore, key := k, what := jwEmap, vals := new.emap }
    let t3 := if new.sp.remap = old.sp.remap ∧ new.sp.waiting = old.sp.waiting then t2
      else t2.journal { kind := jkCore, key := k, what := jwRemap }
    if new.failed = old.failed then t3
    else t3.journal { kind := jkCore, key := k, what := jwCoreState, val := new.failed.toNat }) s

/-- R372: the trims of an array's matching: number `i` of 1,040 offset trims in units of 1/8 pu (±7), 1,040 gain trims in
units of 0.1 % (±8) and 16 segment trims in units of 0.05 % (±32). -/
def State.calTrimOf (s : State) (k e a i : Nat) : Option Int :=
  let lim : Int := if i < arrayColumns then 7 else if i < 2 * arrayColumns then 8 else 32
  let rank := ((k % coresPerField) * enginesPerCore + e) * arraysPerEngine + a
  let base := match (s.array k e a).cal with
    | some b => some b
    | none => (s.field (k / coresPerField)).calBase.map (fun b => b + rank * (2 * arrayColumns + 16))
  base.map (fun b => max (-lim) (min lim (Config.calTrim (b + i))))

/-- R372: the matching of one array under its field's new trims: a column on its limit is handled as one with a stuck cell off target,
an array with a segment on its limit is retired; then one trim sample. -/
def State.calibrateArray (s : State) (k e a : Nat) : State :=
  let s1 := s.updArray k e a (fun x => { x with cal := none, calNext := none })
  let on := fun (i : Nat) (lim : Int) => decide (s1.calTrimOf k e a i = some lim) || decide (s1.calTrimOf k e a i = some (-lim))
  let cols := (List.range arrayColumns).filter (fun c => on c 7 || on (arrayColumns + c) 8)
  let map := (s1.array k e a).progMap
  let s2 := if (s1.array k e a).state ≠ 0 then s1
    else if (List.range 16).any (fun i => on (2 * arrayColumns + i) 32) then s1.journalArray k e a jwState 1
    else s1.absorb k e a (cols.filterMap (servedColumn map))
  s2.sampleWhole k e a

/-- R366 phase 6, R372: every array of every good core of a field is calibrated (log 79). -/
def State.calibrateField (s : State) (f : Nat) : State :=
  let s1 : State := { (s.updField f (fun v => { v with calBase := some s.free, calTemp := v.hottest })) with
    free := s.free + coresPerField * enginesPerCore * arraysPerEngine * (2 * arrayColumns + 16) }
  ((List.range coresPerField).filter (fun c => (s.core (coreKey f c)).good)).foldl (fun (t : State) c =>
    (List.range enginesPerCore).foldl (fun (u : State) e =>
      (List.range arraysPerEngine).foldl (fun (v : State) a => v.calibrateArray (coreKey f c) e a) u) t) s1

/-- R374: whether a fast reset spares a field phases 3, 4 and 6: it was calibrated, and is within 10 K of that reading. -/
def State.sparesField (s : State) (f : Nat) (p : FieldProbe) : Bool :=
  let hot := ((List.range 8).map (fun i => if ((s.field f).sensors.find i {}).broken then 0 else (probeSensor p i).2)).foldl Nat.max 0
  let t := (s.field f).calTemp
  s.mod.fast && (s.field f).calBase.isSome && decide (hot ≤ t + 160) && decide (t ≤ hot + 160)

/-- R366: the phases of Table 13-3 on one field, up to the first that fails; a field of a ledger copy with too few good cores stays
powered for it (R177). -/
def State.bringField (s : State) (f : Nat) (p : FieldProbe) : State :=
  let fast := s.sparesField f p
  let s1 := (s.updField f (fun v => { v with stationOnly := false })).senseField f p fast
  if (s.field f).unrecorded && decide (f ≠ gateField) then s.fieldFails f 0x17
  else if (probeBandgap p).isNone then s1.fieldFails f 0x12
  else if (s1.field f).working.length < 5 then s1.fieldFails f 0x11
  else
    let s2 := s1.updPower f (fun _ => { converterOn := true, grant := 0, allow := 0, allowNext := 0 })
    if !p.railOk then s2.fieldFails f 0x10
    else
    let s2t := if fast then s2 else s2.testLinks f p
    match s2t.bringRoute f with
    | none => s2t.fieldFails f 0x15
    | some way =>
      let s3 := (if fast then s2t else s2t.scaleField f p).joined f way
      if !fast ∧ ((List.range 16).filter (probeKept p)).length < 12 then s3.fieldFails f 0x13
      else if !fast ∧ probeSlow p (s3.field f).hottest then s3.fieldFails f 0x14
      else
        let s4 := s3.testCores f p
        if s4.goodCores f < 64 then
          if (s4.field f).ledgerCopy = 0 then s4.fieldFails f 0x16
          else s4.updField f (fun v => { v with code := 0x16, brought := true, fenced := false, detour := false })
        else
          let s5 := if fast then s4 else s4.calibrateField f
          s5.updField f (fun v => { v with code := 0x01, brought := true, fenced := false, detour := false, lost := false })

/-- R365: the group of a field in its wave: a wave ramps 12 fields at a time, in ascending field number. -/
def rampGroup (f : Nat) : Nat :=
  (allFields.filter (fun g => decide (gridDistance g gateField = gridDistance f gateField) && decide (g < f))).length / 12

/-- R365: whether a field may come up now: the gate field in phase 3; another once the boot chain has run and every field nearer
to the gate field, and every field of an earlier group of its wave, has been through it. -/
def State.mayBring (s : State) (f : Nat) : Bool :=
  decide (s.mod.state = .bringUp) && s.mod.failure.isNone && !s.mod.powerFail && fieldExists f && !(s.field f).brought
    && (if f = gateField then decide (s.mod.phase = 2) && s.mod.pwrGood
        else decide (s.mod.phase = 5) && allFields.all (fun g => (s.field g).brought
          || decide (gridDistance f gateField < gridDistance g gateField)
          || (decide (gridDistance f gateField = gridDistance g gateField) && decide (rampGroup f ≤ rampGroup g))))

/-- FIELD_BRINGUP (R362, R365, R366): a field runs its phases and reports; the gate field's failure keeps the module out of
service. -/
def execFieldBringup (f : Nat) (p : FieldProbe) (s : State) : Out :=
  .next (if !s.mayBring f then s
    else
      let s1 := s.bringField f p
      if f ≠ gateField then s1
      else if (s1.field f).code = 0x01 then { s1 with mod := { s1.mod with phase := 3 } }
      else { s1 with mod := { s1.mod with failure := some .gateField } })

/-! The boot chain (R176, R180, R357). -/

/-- R348: the owner area in force: the one of highest `owner_seq` that verifies, of any slot; none verifying, as it stands. -/
def Ledger.ownerRead (l : Ledger) : Ledger :=
  match (l.slots.filterMap LedgerSlot.ownerRead).foldl (fun (b : Option (Nat × Nat × Nat)) x =>
      match b with
      | none => some x
      | some y => if y.2.1 < x.2.1 then some x else some y) none with
  | some x => { l with owner := x.1, ownerSeq := x.2.1, minSvn := x.2.2 }
  | none => l

/-- R357: the image that runs: of the stored ones whose block verifies, the highest `svn` not below `min_svn`. -/
def Ledger.bestImage (l : Ledger) : Option FwImage :=
  (l.fw.filter (fun i => i.stands && decide (l.minSvn ≤ i.svn))).foldl (fun (b : Option FwImage) i =>
    match b with
    | none => some i
    | some x => if x.svn < i.svn then some i else some x) none

/-- R180: the newer slot whose signatures verify. -/
def Ledger.slotRead (l : Ledger) : Option Nat :=
  [l.slot, 1 - l.slot].find? (fun i => (l.slots.getD i {}).stands)

/-- R99, R180: the row remap entries of a core record: each line and each spare line stands in one entry, and a line that takes a
new spare already keeps that. -/
def Scratch.remapRead (p : Scratch) (b : List Byte) : Scratch :=
  let under := p.copying ++ p.waiting
  { p with remap := (List.range 16).foldl (fun (m : List Remap) j =>
      let w := natAt b (16 + 4 * j) 4
      let r : Remap := { line := w % 2 ^ 15, spare := w / 2 ^ 15 % 16 }
      if bitAt w 31 && !(m ++ under).any (fun x => decide (x.line = r.line) || decide (x.spare = r.spare)) then m ++ [r] else m) [] }

/-- R180: a record of the ledger as read: what it says holds (kinds of Table 6-8; records of Tables 6-6 and 6-7). -/
def State.recordRead (s : State) (kind i : Nat) (b : List Byte) : State :=
  if kind = jkField then s.updField i (fun v => { v with
    ageAcc := natAt b 0 8, ageKept := natAt b 0 8, poweredS := natAt b 8 8, isolations := natAt b 18 2, ledgerCopy := natAt b 20 1
    unrecorded := decide (natAt b 16 1 = 0)
    role := [FieldRole.absent, .service, .roundhouse, .isolated, .failed, .ledgerOnly].getD (natAt b 16 1) .absent
    marked := BitVec.ofNat 8 (natAt b 17 1)
    sensors := if v.brought then v.sensors else (List.range 8).foldl (fun (m : Map Sensor) j =>
      m.put j { m.find j {} with broken := bitAt (natAt b 17 1) j }) v.sensors })
  else if kind = jkCore then s.updCore i (fun c => { c with
    emap := (List.range 16).map (fun j => natAt b j 1), failed := decide (natAt b 80 4 ≠ 0), sp := c.sp.remapRead b })
  else if kind = jkRelocation then
    match unpackKey (natAt b 0 4), unpackKey (natAt b 4 4) with
    | some p, some k => { s with ledger := { s.ledger with
        relocation := if p = k then s.ledger.relocation.erase p else s.ledger.relocation.put p k } }
    | _, _ => s
  else if kind = jkStuck then
    let a := natAt b 0 4
    let x := (arrayKey ((unpackKey a).getD 0) (unpackEngine a) (unpackArray a), natAt b 4 2, natAt b 6 2)
    { s with ledger := { s.ledger with
        stuckList := if i < s.ledger.stuckList.length then s.ledger.stuckList.set i x else s.ledger.stuckList ++ [x]
        stuckCount := Nat.max s.ledger.stuckCount (i + 1) } }
  else if kind = jkArray then
    let n := i / arraysPerEngine / enginesPerCore
    let k := coreKey (allFields.getD (n / coresPerField) 0) (n % coresPerField)
    let t := BitVec.ofNat 32 (natAt b 12 4)
    let birth := BitVec.ofNat 32 (natAt b 8 4)
    let m := natAt b 18 11
    let sampled := (s.field (k / coresPerField)).brought
    s.updArray k (i / arraysPerEngine % enginesPerCore) (i % arraysPerEngine) (fun v => { v with
      wear := natAt b 0 3, state := natAt b 3 1 % 4 % 3, refOpen := bitAt (natAt b 3 1) 2, refDue := bitAt (natAt b 3 1) 3
      overdueAt := if bitAt (natAt b 3 1) 3 then some s.stamp else none
      trimLimit := bitAt (natAt b 3 1) 4, stamp := natAt b 4 4, birth := if sampled then v.birth else birth
      sampled := if sampled then v.sampled else t
      tBirth := if sampled then v.tBirth else (BitVec.ofNat 8 (natAt b 16 1)).toInt
      tTrim := if sampled then v.tTrim else (BitVec.ofNat 8 (natAt b 17 1)).toInt
      trimKept := (t, (BitVec.ofNat 8 (natAt b 17 1)).toInt, birth, (BitVec.ofNat 8 (natAt b 16 1)).toInt)
      mapLedger := (List.range 8).map (fun j =>
        let c := m / 2 ^ (11 * j) % 2 ^ 11
        if c = 0x7FF then 0 else BitVec.ofNat 16 (0x8000 + c)) })
  else s

/-- Table 6-6: the record that stands at an offset of a slot: its kind and index. -/
def slotRecord (o : Nat) : Nat × Nat :=
  if o < 0x11000 then (jkHeader, 0)
  else if o < 0x13000 then (jkField, (o - 0x11000) / 64)
  else if o < 0xB3000 then (jkCore, (o - 0x13000) / 96)
  else if o < 0xBD000 then (jkRelocation, (o - 0xB3000) / 8)
  else if o < 0x4BD000 then (jkStuck, (o - 0xBD000) / 8)
  else (jkArray, (o - 0x4BD000) / 32)

/-- R180: the records of a slot, then those of the journal entries that follow it. -/
def State.recordsRead (s : State) (x : LedgerSlot) (later : List JournalRec) : State :=
  let s1 := x.body.foldl (fun (t : State) r => t.recordRead (slotRecord r.1).1 (slotRecord r.1).2 r.2) s
  later.foldl (fun (t : State) r => t.recordRead r.kind (natAt r.payload 0 4) (r.payload.drop 4)) s1

/-- R180: whether copy A (B) can be read: its flag stands, and the field found now is the one that held it, if any did. -/
def State.copyStands (s : State) (copyB : Bool) (now : Option Nat) : Bool :=
  let was := s.fields.entries.find? (fun f => f.2.ledgerCopy = (if copyB then 2 else 1))
  (if copyB then s.ledger.okB else s.ledger.okA) && now.isSome && was.all (fun f => decide (some f.1 = now))

/-- R180: copies A and B stand in the fields found for them now; a copy that does not stand is lost. -/
def State.copiesFound (s : State) (a b : Option Nat) : State :=
  let aOk := s.copyStands false a
  let bOk := s.copyStands true b
  let s1 : State := { s with ledger := { s.ledger with copyA := if aOk then a else none, copyB := if bOk then b else none } }
  let s2 := s1.fields.keys.foldl (fun (t : State) f => t.updField f (fun v => { v with ledgerCopy := 0 })) s1
  let mark := fun (t : State) (c : Option Nat) (n : Nat) => match c with
    | some f => t.updField f (fun v => { v with ledgerCopy := n })
    | none => t
  let s3 := mark (mark s2 s1.ledger.copyA 1) s1.ledger.copyB 2
  let s4 := if aOk then s3 else s3.copyLost false
  if bOk then s4 else s4.copyLost true

/-- R180: the copies read from a slot on: the journal ends at the first entry that does not stand, the higher sequence is the
ledger's. -/
def State.ledgerRead (s : State) (a b : Option Nat) (slot : Nat) : State :=
  let l := s.ledger
  let x := l.slots.getD slot {}
  let after := l.entries.filter (fun r => decide (x.last < r.seq))
  let later := journalFrom x.last after
  let seq := if later.length < after.length then later.foldl (fun _ r => r.seq) x.last
    else Nat.max (if s.copyStands false a then l.seqA else 0) (if s.copyStands true b then l.seqB else 0)
  let s0 := s.copiesFound a b
  let was := s0.fields
  let s1 := s0.recordsRead x later
  { s1 with
    fields := s1.fields.mapVals (fun f v => { v with ledgerCopy := (was.find f {}).ledgerCopy })
    ledger := { s1.ledger with
      entries := l.entries.filter (fun r => decide (r.seq ≤ x.last)) ++ later, journal := later.length, slot := slot
      seqA := seq, seqB := seq, powerCycles := l.powerCycles + 1 } }

/-- R362, Table 13-2 phase 4: the stations on the ways to the ledger's candidate fields run in station-only mode, and cores 66 and 67
of the candidates that are found good come up. -/
def State.ledgerPath (s : State) (good : List Nat) : State :=
  let candidates := ledgerCandidates false ++ ledgerCandidates true
  let s1 := ((candidates.flatMap (fun f => gridRoute gateField f)).filter (· ≠ gateField)).foldl (fun (t : State) f =>
    t.updField f (fun v => { v with stationOnly := true })) s
  let s2 := (candidates.filter (fun f => good.contains f)).foldl (fun (t : State) f =>
    [66, 67].foldl (fun (u : State) c => u.updCore (coreKey f c) (fun v => { v with good := true })) t) s1
  { s2 with mod := { s2.mod with phase := 4 } }

/-- BOOT_CHAIN (R176, R180, R348, R357, R362): the ledger path; with the cores 66 and 67 of some ledger candidates up, the owner area, the firmware
and, after the factory region's check, the ledger are chosen; what fails keeps the module in bring-up, where an image of the boot
ROM's session is written to the copies that stand (R358). -/
def execBootChain (goodLedgerFields : List Nat) (s : State) : Out :=
  let pick := fun (c : List Nat) => c.find? (fun f => goodLedgerFields.contains f)
  let a := pick (ledgerCandidates false)
  let b := pick (ledgerCandidates true)
  let fails := fun (t : State) (x : BringFail) => ({ t with mod := { t.mod with failure := some x } } : State)
  .next (if !(decide (s.mod.state = .bringUp) && decide (s.mod.phase = 3) && s.mod.failure.isNone && !s.mod.powerFail) then s
    else if !(s.copyStands false a || s.copyStands true b) then fails (s.ledgerPath goodLedgerFields) .ledger
    else
      let s1 : State := { s.ledgerPath goodLedgerFields with ledger := s.ledger.ownerRead }
      match s1.ledger.bestImage with
      | none => fails (s1.copiesFound a b) .firmware
      | some i =>
        if !factoryOk then fails (s1.copiesFound a b) .factory
        else match s1.ledger.slotRead with
          | none => fails s1 .ledger
          | some n =>
            let s2 := (s1.ledgerRead a b n).takeWall
            { s2 with ledger := { s2.ledger with fwSvn := i.svn, fwBytes := i.bytes }
                      mod := { s2.mod with phase := 5, gateIsolated := decide ((s2.field gateField).role = .isolated) } })

/-! Stacks (R256 to R258, R275). -/

/-- R257: whether a field carries a stack's link in bring-up. -/
def State.carriesStack (s : State) (f : Nat) : Bool := (s.field f).brought && (s.field f).power.converterOn

/-- R271: the remap table with the factory entries of the ledger's repair map; an entry whose granule or spare has one already
adds nothing. -/
def Stack.factoryMap (t : Stack) (k : Nat) : List GranMap :=
  (Config.factoryGranules k).foldl (fun l g =>
    if (l ++ t.copying ++ t.waiting).any (fun m => decide (m.granule = g.1 ∨ m.spare = g.2)) ∨ 64 ≤ g.2 then l
    else l ++ [{ granule := g.1, spare := g.2 }]) t.remap

/-- STACK_TRAINING (R257, R258, R271, R362): a stack trains through its active attach field, home before alternate; one that trains
through neither keeps the module in bring-up. Its remap table takes the factory entries of the ledger. -/
def execStackTraining (k : Nat) (ok : Bool) (s : State) : Out :=
  let t := s.stack k
  let home := (s.field (stackHome k)).brought && !s.carriesStack (stackHome k)
  let link := if t.link = .home ∧ home then StackLink.alternate else t.link
  let field := if link = .home then stackHome k else stackAlternate k
  .next (if !(decide (k < stackCount) && decide (s.mod.state = .bringUp) && decide (5 ≤ s.mod.phase) && s.mod.failure.isNone && !s.mod.powerFail
      && !t.trained && decide (link ≠ .lost) && (s.field field).brought) then s
    else if ok && s.carriesStack field then
      s.updStack k (fun t => { t with
        link := link, trained := true, fillDone := s.mod.skipFill, filled := false, remap := t.factoryMap k })
    else if link = .home then s.updStack k (fun t => { t with link := .alternate })
    else
      let s1 := s.updStack k (fun t => { t with link := .lost })
      { s1 with mod := { s1.mod with failure := some .stackSet } })

/-- R271, R275: granules that the read-back of the fill found bad are remapped. -/
def State.remapFilled (s : State) (k : Nat) (bad : List Nat) : State :=
  (bad.foldl (fun l cb => insertNat (cb / cbPerGranule) l) []).foldl (fun (u : State) g =>
    let t := u.stack k
    let taken := t.remap ++ t.copying ++ t.waiting
    if taken.any (fun m => decide (m.granule = g)) then u
    else match (List.range 64).find? (fun n => !taken.any (fun m => decide (m.spare = n))) with
      | some n => (u.updStack k (fun t => { t with remap := t.remap ++ [{ granule := g, spare := n }] })).event evStackRemap k
      | none => (u.updStack k (fun t => { t with hard := insertNat g t.hard })).event evStackRemapFull k) s

/-- R258: a stack reached through no attach field keeps a module in bring-up out of service. -/
def State.stackMissing (s : State) : State :=
  if s.mod.state = .bringUp ∧ s.mod.failure = none then { s with mod := { s.mod with failure := some .stackSet } } else s

/-- STACK_FILL_DONE (R275): a stack's fill and read-back complete; `bad` lists the codeblocks that did not read clean. A stack lost
before that keeps the module in bring-up, and one whose link fails over waits (R257, R258). -/
def execStackFillDone (k : Nat) (bad : List Nat) (s : State) : Out :=
  .next (if !(decide (k < stackCount) && s.powered && (s.stack k).trained && !(s.stack k).fillDone) then s
    else if (s.stack k).link = .lost then s.stackMissing
    else if (s.stack k).void then s
    else (s.updStack k (fun t => { t with
      fillDone := true, filled := true, mem := {}, errs := .empty, parErr := [], flags := .empty, writtenCb := [] })).remapFilled k
      bad)

/-! The service set (R368). -/

/-- R368: the fields that bring-up found good. -/
def State.goodFields (s : State) : List Nat := allFields.filter (fun f => decide ((s.field f).code ≤ 1) && (s.field f).brought)

/-- R368 step 3: for each field of the old set that is not good now, the nearest good field not yet chosen: (old, new). -/
def State.replacements (s : State) (good : List Nat) : List (Nat × Nat) :=
  let old := allFields.filter (fun f => decide ((s.field f).role = .service))
  let kept := gateField :: (old.filter (fun f => good.contains f && decide (f ≠ gateField)))
  ((old.filter (fun f => !good.contains f)).foldl (fun (acc : List (Nat × Nat) × List Nat) f =>
    match leastBy (fun g => gridDistance f g) (good.filter (fun g => !acc.2.contains g)) with
    | some g => (acc.1 ++ [(f, g)], acc.2 ++ [g])
    | none => acc) ([], kept)).1

/-- R368: the service fields, at most 80. -/
def State.chooseService (s : State) (good : List Nat) : List Nat :=
  let old := good.filter (fun f => decide ((s.field f).role = .service) && decide (f ≠ gateField))
  let a := gateField :: old ++ (s.replacements good).map Prod.snd
  (a ++ good.filter (fun f => !a.contains f)).take 80

/-- R368: the physical core that a placement core has, or the same number in the field that replaces that core's. -/
def State.sameCore (s : State) (repl : List (Nat × Nat)) (place : Nat) : Nat :=
  let old := s.physOf place
  let f := old / coresPerField
  coreKey (((repl.find? (fun x => x.1 = f)).map Prod.snd).getD f) (old % coresPerField)

/-- R368: the physical core of a placement core: the one it has if that is still good, the same number in the field that
replaces its own, or the lowest good spare of the field not taken. -/
def State.placeAt (s : State) (repl : List (Nat × Nat)) (taken : List Nat) (place : Nat) : Nat :=
  let same := s.sameCore repl place
  let g := same / coresPerField
  if (s.core same).good && !s.ledgerCore same then same
  else ((([64, 65, 66, 67].map (coreKey g)).filter (fun k => (s.core k).good && !s.ledgerCore k && !taken.contains k)).head?).getD same

/-- R11, R368: the placement cores: those relocated already, and those of the given fields that serve no other placement core. -/
def State.placementCores (s : State) (fields : List Nat) : List Nat :=
  let moved := s.ledger.relocation.keys
  let targets := moved.map s.physOf
  moved ++ (fields.flatMap (fun f => (List.range placeCores).map (coreKey f))).filter (fun p => !moved.contains p && !targets.contains p)

/-- R368, R11: the relocation map of the service set; a core that a placement core keeps is no spare for another. -/
def State.relocateAll (s : State) (repl : List (Nat × Nat)) (fields : List Nat) : State :=
  let places := s.placementCores fields
  let kept := (places.map (s.sameCore repl)).filter (fun k => (s.core k).good && !s.ledgerCore k)
  let m := places.foldl (fun (acc : Map Nat × List Nat) place =>
    let k := s.placeAt repl acc.2 place
    (if k = place then acc.1.erase place else acc.1.put place k, k :: acc.2)) (s.ledger.relocation, kept)
  { s with ledger := { s.ledger with relocation := m.1 } }

/-- R177: the role that a field's record takes. -/
def State.roleOf (s : State) (service : List Nat) (f : Nat) : FieldRole :=
  if service.contains f then .service
  else if (s.field f).code ≤ 1 then .roundhouse
  else if (s.field f).ledgerCopy ≠ 0 ∧ (s.field f).code = 0x16 then .ledgerOnly else .failed

/-- R36, R225: the grants with which the service fields start at step 3: the default share; any other field has none. -/
def State.startGrants (s : State) : State :=
  let g := Nat.min s.defaultShare (stepCap 3)
  s.serviceFields.foldl (fun (t : State) f => t.updPower f (fun p => { p with
    grant := g, allow := allowanceOf g, allowNext := allowanceOf g })) s

/-- R180: a copy that the boot chain found lost is rebuilt in its next candidate field, once those are powered. -/
def State.rebuildLost (s : State) : State :=
  let s1 := if s.ledger.lostA && s.ledger.rebuildA.isNone then s.copyLost false else s
  if s1.ledger.lostB && s1.ledger.rebuildB.isNone then s1.copyLost true else s1

/-- R178: the records that the service set changes, fields' and relocations, are committed. -/
def State.setCommitted (s was : State) : State :=
  let s1 := (allFields.filter (fun f => (s.field f).role ≠ (was.field f).role)).foldl (fun (t : State) f => t.fieldCommitted f) s
  let moved := (allFields.flatMap (fun f => (List.range placeCores).map (coreKey f))).filter (fun p => s.physOf p ≠ was.physOf p)
  moved.foldl (fun (t : State) p => t.journalWritten jkRelocation (p, relocRecord p (t.physOf p))) s1

/-- SERVICE_SET (R6, R177, R368): the service fields, the reserve and the relocation map are chosen and committed; with fewer
than 80 good fields the module stays in bring-up. -/
def execServiceSet (s : State) : Out :=
  .next (if !(decide (s.mod.state = .bringUp) && decide (s.mod.phase = 5) && s.mod.failure.isNone && !s.mod.powerFail
      && allFields.all (fun f => (s.field f).brought)) then s
    else
      let good := s.goodFields
      if good.length < 80 then { s with mod := { s.mod with failure := some .fieldCount } }
      else
        let set := s.chooseService good
        let repl := s.replacements good
        let placed := (set.filter (fun f => !(repl.any (fun x => decide (x.2 = f))))) ++ repl.map Prod.fst
        let s1 := s.relocateAll repl placed
        let s2 := allFields.foldl (fun (t : State) f => t.updField f (fun v => { v with
          role := s.roleOf set f, code := if set.contains f then 0x00 else v.code })) s1
        let s3 := (s2.setCommitted s).rebuildLost
        ({ s3 with mod := { s3.mod with serviceSet := set, phase := 8 } } : State).startGrants.loadDetours)

/-- R65, R67: an array whose committed column map waits for its spares has the rows not programmed under it programmed again. -/
def State.remakeMaps (s : State) : State :=
  s.overArrays (fun t k e a =>
    let v := t.array k e a
    if v.progMap = v.colMap ∨ v.state = 1 ∨ v.state = 2 then t
    else t.repairRows k e a ((List.range arrayRows).filter (fun r => !v.mapRows.contains r)))

/-- CORE_RELEASE (R31, R163, R258, R362): with every stack ready the stores are zeroed, window 0 is planned at the columns of the present
temperatures and in progress, and the
module is in service; without a wall time supplied every array is due. -/
def execCoreRelease (s : State) : Out :=
  .next (if !(decide (s.mod.state = .bringUp) && decide (s.mod.phase = 8) && s.mod.failure.isNone && !s.mod.powerFail
      && (List.range stackCount).all (fun k => (s.stack k).trained && (s.stack k).fillDone)) then s
    else if (List.range stackCount).any (fun k => decide ((s.stack k).link = .lost)) then s.stackMissing
    else
      let s1 := if s.alaok.wall.isNone then s.allArraysDue else s
      let s2 := ({ s1 with cores := s1.cores.mapVals (fun _ c => { c with prog := .empty, progFill := 0, cmds := .empty }) } : State).remakeMaps
      let s3 := (allFields.filter s2.limited).foldl (fun (t : State) f => t.updPower f (fun p => { p with band := s2.bandNow f })) s2
      let w := s3.planW
      { s3 with
        mod := { s3.mod with state := .inService, phase := 9 }
        plan := { window := 0, w := w, wNext := w, tNext := BitVec.ofNat 64 (s3.now + w), released := true } })

/-! Self-tests end (R375 to R378). -/

/-- R375, Table 13-7: whether a test of the mask is a test of a unit of the scope; a core or field stands at the address of its first
array. -/
def SelfTest.covers (t : SelfTest) (u test : Nat) : Bool :=
  t.tests.getLsbD test && (if test ≤ 1 then true else if test = 2 then decide (t.scope ≤ 3) && decide (u % 8 = 0)
    else if test ≤ 5 then decide (t.scope ≤ 2) && decide (u % 2 ^ 8 = 0) else decide (t.scope ≤ 1) && decide (u % 2 ^ 15 = 0))

/-- R378, Table 13-8: the unit now tested under a unit's name: of an engine that a refresh has swapped, the other of the two. -/
def SelfTest.unitNow (t : SelfTest) (u test : Nat) : Nat :=
  if test ≤ 2 then
    t.swaps.foldl (fun v x =>
      if unpackKey v ≠ some x.1 then v
      else if unpackEngine v = x.2.1 then packedArray x.1 x.2.2 (unpackArray v)
      else if unpackEngine v = x.2.2 then packedArray x.1 x.2.1 (unpackArray v)
      else v) u
  else u

/-- R375, R378: the tests of a self-test: (unit, test). -/
def SelfTest.pairs (t : SelfTest) : List (Nat × Nat) :=
  (List.range 9).flatMap (fun n => (t.units.eraseDups.filter (fun u => t.covers u n)).map (fun u => (t.unitNow u n, n)))

/-- Table 13-7: the kind of unit that a test is one of: arrays, engines, cores, fields. -/
def testKind (test : Nat) : Nat := if test ≤ 1 then 0 else if test = 2 then 1 else if test ≤ 5 then 2 else 3

/-- R377: the final reply of a self-test: the counts of units, and a record for each unit and test that did not pass: (address, test,
result). A unit is tested if one of its tests has run, and has passed if none of those failed; of the others one with a test skipped
or out of service is skipped. -/
def SelfTest.body (t : SelfTest) (results : List (Nat × Nat × Nat)) : List Byte :=
  let units := (t.pairs.map (fun x => (x.1, testKind x.2))).eraseDups
  let has := fun (u : Nat × Nat) (l : List Nat) => results.any (fun x => decide ((x.1, testKind x.2.1) = u) && l.contains x.2.2)
  let ran := fun (u : Nat × Nat) => t.pairs.any (fun x => decide ((x.1, testKind x.2) = u)
    && !results.any (fun y => decide (y.1 = x.1 ∧ y.2.1 = x.2 ∧ y.2.2 ≠ 1)))
  let tested := units.filter ran
  let others := units.filter (fun u => !ran u)
  let failed := (tested.filter (fun u => has u [1])).length
  let skipped := (others.filter (fun u => has u [2, 4])).length
  let l := sortBy (fun (x : Nat × Nat × Nat) => x.1) results
  leBytes 4 tested.length ++ leBytes 4 (tested.length - failed) ++ leBytes 4 failed ++ leBytes 4 skipped
    ++ leBytes 4 (others.length - skipped)
    ++ leBytes 4 0 ++ (l.take 8188).flatMap (fun x => leBytes 4 x.1 ++ leBytes 1 x.2.1 ++ leBytes 1 x.2.2 ++ leBytes 2 0)

/-- R378: the self-tests in progress end with every unit not run. -/
def State.testsAbandoned (s : State) : State :=
  s.mod.tests.foldl (fun (u : State) t => u.finish t.conn t.cmdTag stOk 0 none (t.body (t.pairs.map (fun x => (x.1, x.2, 3)))))
    { s with mod := { s.mod with tests := [] } }

/-! Reset (R374). -/

/-- R352, R374: a core after a reset: its ledger record, the calibration records and counters (R403) of its arrays, and the
clear that it owes. -/
def Core.restarted (c : Core) : Core :=
  { c.kept with clearing := c.clearing, engines := c.engines.mapVals (fun _ e =>
      { e.kept with arrays := e.arrays.mapVals (fun _ a => { a.kept with
        cal := a.cal, firings := a.firings, refDev := a.refDev, clips := a.clips }) }) }

/-- R374: the replies and final entries that stand on their streams, which drain before the link retrains (log 202). -/
def State.parting (s : State) : List (Nat × Nat × OutPkt) :=
  s.alaok.conns.entries.flatMap (fun c => (c.2.tx.entries.filter (fun k => k.1 = 2 ∨ k.1 = 3)).flatMap (fun k =>
    (k.2.unacked.map Prod.snd ++ k.2.queue).map (fun p => (c.1, k.1, p))))

/-- R374: what a reset keeps besides what a power loss leaves: the timebase and its loop, the feed, the power record, protection
tables and core map (R350), counters (R403), fault records (R401), and in fast mode what a spared field needs. -/
def State.restarted (s : State) (fast skipFill : Bool) : State :=
  let u := s.unpowered
  { u with
    cores := s.cores.mapVals (fun k _ => (s.coreHeld k).restarted)
    clock := s.clock, budget := s.budget
    fields := s.fields.mapVals (fun _ v => { v.kept with
      ctr := v.ctr, links := v.links, calBase := v.calBase, calTemp := v.calTemp, lanesOk := v.lanesOk, wires := v.wires, linksDown := v.linksDown, monitors := v.monitors
      trace := v.trace, sensors := v.sensors.mapVals (fun i x => { code := x.code, broken := v.marked.getLsbD i }) })
    stackSet := s.stackSet.mapVals (fun _ t => { remap := t.remap, ctr := t.ctr })
    parts := s.parts.mapVals (fun _ v => { entry := v.entry, ctr := v.ctr })
    fabric := { ports := s.fabric.ports.mapVals (fun _ p => { ctr := p.ctr }) }
    alaok := { conns := s.alaok.conns.mapVals (fun _ c => { up := c.up, lanes := c.lanes, width := c.width }), nextAssist := s.alaok.nextAssist
               wall := s.alaok.wall, nextSession := s.alaok.nextSession, discards := s.alaok.discards, parting := s.parting }
    ledger := { s.ledger.kept with counterAt := s.ledger.counterAt, snapAt := s.ledger.snapAt }
    mod := { state := .bringUp, phase := 2, pwrGood := s.mod.pwrGood, feedOk := s.mod.feedOk, fast := fast
             skipFill := fast && skipFill, coreMap := s.mod.coreMap, ctr := s.mod.ctr, faults := s.mod.faults
             faultSeq := s.mod.faultSeq } }

/-- R374: every change that waits is committed, as long as one can be. -/
def State.commitAll : Nat → State → State
  | 0, s => s
  | n + 1, s => if s.ledger.waiting.isEmpty then s else State.commitAll n s.commitOne

/-- R374: the reset: tokens in the pipeline are abandoned, every request gets a final entry with `NOT_IN_SERVICE`, the ledger
is committed, the final `OK` goes out, and the module restarts from phase 3. -/
def State.resetModule (s : State) (fast skipFill : Bool) (conn : Nat) (tag : Word) : State :=
  let s0 : State := { s with plan := { s.plan with slots := [], replays := [], edges := [], digests := [] } }
  let s1 := (s0.reqs.entries.filter (fun (x : Nat × Req) => x.2.state ≠ .free)).foldl (fun (t : State) x =>
    (t.finalEntry x.1 stNotInService).freeReq x.1) s0
  let s2 := State.commitAll s1.ledger.waiting.length s1.testsAbandoned.attestsEnd
  (s2.finish conn tag stOk).restarted fast skipFill

/-! Power failure (R423, R424). -/

/-- R423: the fields whose converters stay on to the last commit: the gate field's and those of the ledger. -/
def State.heldUp (s : State) : List Nat := gateField :: (s.ledger.copyA.toList ++ s.ledger.copyB.toList)

/-- POWER_FAIL (R421, R423): the feed leaves its valid range: `pwr_good` is released and the loads are shed; no window is
released and no row program or commit starts any more; before feed valid, `pwr_good` alone is released. -/
def execPowerFail (milli : Nat) (s : State) : Out :=
  .next (if s.mod.powerFail || (decide (44000 ≤ milli) && decide (milli ≤ 60500)) then s
    else if !s.powered then { s with mod := { s.mod with pwrGood := false } }
    else
      let s1 : State := { s with
        mod := { s.mod with powerFail := true, pwrGood := false, feedOk := false }
        plan := { s.plan with released := false, awaiting := [], slots := [], edges := [] }
        fields := s.fields.mapVals (fun f v => if s.heldUp.contains f then v
          else { v with power := { v.power with converterOn := false }, fenced := true })
        cores := s.cores.mapVals (fun k c => if s.heldUp.contains (k / coresPerField) then
            { c with mode := .idle, engines := c.engines.mapVals (fun _ e => { e with rowsLeft := [] }) }
          else (s.coreHeld k).kept)
        ledger := { s.ledger with inHand := Nat.min 1 s.ledger.waiting.length }
        stackSet := s.stackSet.mapVals (fun _ t => { t with trained := false })
        fabric := { s.fabric with ports := s.fabric.ports.mapVals (fun _ p => { p with up := false }) } }
      [0, 1].foldl (fun (t : State) c => t.connDown c) s1)

/-- POWER_FAIL_OFF (R423, R364): the remaining converters turn off: the module is without power. -/
def execPowerFailOff (s : State) : Out := .next (if s.mod.powerFail then s.unpowered else s)

end Sys2Proof.Machine
end

