-- ==== Sys2Proof/Machine/Boundary.lean ====
section
/-! DEFINITION. What happens at a boundary besides the timetable (R22, R324): the commands that wait for it, units fenced and fields
lost (R396 to R398), edition switches and their holds (R146 to R154, R171), and the changes that a release brings into force
(R99, R166, R178, R247, R271). -/

namespace Sys2Proof.Machine

/-! Commands that take effect at a boundary (R324). -/

/-- Table 15-2: counters of a scope: partition, field, stack, port, module, array. -/
def counterCount (scope : Nat) : Nat := [25, 21, 11, 6, 7, 3].getD scope 0

/-- R404: the value of a counter; a field's time in its present sleep state counts up to now. -/
def State.counterValue (s : State) (scope index n : Nat) : Nat :=
  if scope = 0 then (s.part index).ctr.find n 0
  else if scope = 1 then
    let v := s.field index
    if n = fcPlatformHigh then Config.platformHigh index s.now
    else (v.ctr.find n 0 + (if n = fcSleepNs + v.sleep.depth ∧ s.counting then s.since v.sleepAt else 0)) % 2 ^ 64
  else if scope = 2 then (s.stack index).ctr.find n 0
  else if scope = 3 then (s.port index).ctr.find n 0
  else if scope = 4 then s.mod.ctr.find n 0
  else match unpackKey index with
    | none => 0
    | some k =>
      let a := s.array k (unpackEngine index) (unpackArray index)
      if n = 0 then a.firings else if n = 1 then a.refDev else a.clips

/-- R404: the body of a counter reply: the time and the window of the latch, and the counters. -/
def State.counterBody (s : State) (scope index first count : Nat) : List Byte :=
  leBytes 8 s.now ++ leBytes 8 s.plan.window ++ (List.range count).flatMap (fun i => leBytes 8 (s.counterValue scope index (first + i)))

/-- R408, R410: what a digest probe command does; records of a probe it changes that are not in its ring are dropped, and a ring
begins at record 0. -/
def State.setProbe (s : State) (p : Nat) (probe : Option Nat) (q : Option ProbeParams) : State :=
  let hit := fun (r : Nat × Nat × List Byte) => decide (r.1 = p) && (probe.isNone || decide (some r.2.1 = probe))
  let ends := match probe with
    | none => (List.range 16).map (fun n => 16 * p + n)
    | some n => [16 * p + n]
  let s1 : State := { s with collector :=
    { recs := s.collector.recs.filter (fun r => !hit r), waiting := s.collector.waiting.filter (fun r => !hit r)
      index := ends.foldl (fun m i => m.erase i) s.collector.index } }
  s1.updPart p (fun v => { v with probes := match probe, q with
    | none, _ => .empty
    | some n, none => v.probes.erase n
    | some n, some q => v.probes.put n
        { kind := q.kind.toNat, flags := q.flags, layer := q.layer.toNat, core := q.core.toNat, cAddr := q.cAddr.toNat, tag := q.tag &&& 0x00FFFFFF
          ringRecords := q.ringRecords.toNat, ring := q.ring.toNat } })

/-- R183: a command whose tag has become stale by its boundary is counted in its partition's stale-tag counter. -/
def State.staleAt (s : State) (conn : Nat) (tag : Word) : State :=
  match (s.owedOn conn tag).bind (fun c => (s.conn c).sess.outst.find? (fun o => o.is conn tag)) with
  | some o => s.countPart o.partition pcStaleTag 1
  | none => s

/-- R185, R195, R200: a command on a request acts if the entry still holds the request, in a state that allows it. -/
def State.onSame (s : State) (i : Nat) (g : BitVec 7) (conn : Nat) (tag : Word) (allowed : Req → Bool) (act : State → State) :
    State :=
  if !s.sameReq i g then (s.staleAt conn tag).finish conn tag stStaleTag
  else if !allowed (s.req i) then s.finish conn tag stBadState
  else (act s).finish conn tag stOk

/-- R185: a request that retires at a boundary: one that leaves `kv_wait` because its admission failed becomes FREE, any other gets
its final entry; a fault report is counted. -/
def State.retireDeferred (s : State) (i : Nat) (g : BitVec 7) (status : Nat) : State :=
  if !s.sameReq i g ∨ (s.req i).state = .retired then s
  else if status = stRefusedCapacity then s.freeReq i
  else if status = stFault ∨ status = stPoisoned then
    ((s.dropSlots i).countPart (s.req i).partition pcFaultReports 1).endRequest i status
  else (s.dropSlots i).endRequest i status

/-- R324: what a waiting command does at its boundary. -/
def State.actDeferred (s : State) : Deferred → State
  | .cancel i g c tag => s.onSame i g c tag (fun _ => true) (fun t => (t.deliverSampled i).cancelReq i)
  | .finish i g c tag => s.onSame i g c tag (fun r => decide (r.state = .running ∨ r.state = .siding)) (fun t => t.drain i stFinished)
  | .pause i g c tag => s.onSame i g c tag (fun r => r.active || decide (r.state = .siding)) (fun t => t.toSiding i causePause)
  | .resume i g c tag => s.onSame i g c tag (fun _ => true) (fun t => t.clearCause i causePause)
  | .abort ed c tag =>
    if (s.edition ed).abortable then ((s.sampledOf ed).endEdition ed stAborted).finish c tag stOk else s.finish c tag stBadState
  | .digest p probe q c tag => (s.setProbe p probe q).finish c tag stOk
  | .counters scope index first count c tag => s.finish c tag stOk 0 none (s.counterBody scope index first count)
  | .takeover c tag => s.takeOver c tag
  | .modes p bits => s.updPart p (fun v => { v with modes := bits })
  | .policy p host depth coldMin => s.updPart p (fun v => { v with
      maxDepth := depth, coldMin := coldMin
      modes := if host then v.modes ||| BitVec.twoPow 7 5 else v.modes &&& ~~~ BitVec.twoPow 7 5 })
  | .retire i g st => s.retireDeferred i g st
  | .prot _ _ _ _ => s
  | .coreMap _ _ _ _ => s
  | .reset _ _ _ _ => s

/-- Whether a waiting command is a reset. -/
def Deferred.isReset : Deferred → Bool
  | .reset _ _ _ _ => true
  | _ => false

/-- R350, R324: the waiting commands at a boundary: protection changes first, the rest in acceptance order, up to a reset. -/
def State.actCommands (s : State) : State :=
  let s1 := s.protections
  let l := s1.mod.deferred.takeWhile (fun d => !d.isReset)
  l.foldl (fun (t : State) d => t.actDeferred d) { s1 with mod := { s1.mod with deferred := [] } }

/-- R374: the reset that waits for a boundary. -/
def State.resetWaiting (s : State) : Option (Bool × Bool × Nat × Word) :=
  s.mod.deferred.findSome? (fun d => match d with
    | .reset fast skip c tag => some (fast, skip, c, tag)
    | _ => none)

/-! Requests held and placed again (R149, R397). -/

/-- Marks requests held, and records the cause that delays them (none: 0x0A of R193 by default). -/
def State.holdReqs (s : State) (which : Req → Bool) (cause : Nat) : State :=
  { s with reqs := s.reqs.mapVals (fun _ r =>
    if which r && (r.active || decide (r.state = .siding)) then
      { r with held := true, lateCause := if r.lateCause = 0 then cause else r.lateCause }
    else r) }

/-- Held requests go on: their visits are placed again from the next window on. -/
def State.unholdReqs (s : State) (which : Req → Bool) : State :=
  let l := (s.reqs.entries.filter (fun (x : Nat × Req) => x.2.held ∧ which x.2)).map Prod.fst
  let on := l.filter (fun i => (s.req i).active && decide ((s.req i).period ≠ 0))
  on.foldl (fun (t : State) i => t.regridReq i t.nextWindow false)
    ((l.foldl (fun (t : State) i => t.updReq i (fun r => { r with held := false })) s).offGrid on)

/-- R397: tokens that have still to pass a section (a replay, from the section after its own on) are abandoned; their requests rerun
the position. -/
def State.abandon (s : State) (hit : Slot → Bool) : State :=
  let replays := s.plan.replays.filter (fun q => hit { q.slot with sect := q.slot.sect + 1 })
  let gone := s.plan.slots.filter hit ++ replays.map Replay.slot
  let s1 := replays.foldl (fun (t : State) q => t.dropReplay q.slot.id) s
  gone.foldl (fun (t : State) x => t.updReq x.req (fun r =>
    if r.gen = x.gen ∧ x.pos < r.desc.promptLen.toNat ∧ r.committed = 0 then { r with prefillPos := Nat.min r.prefillPos x.pos } else r))
    { s1 with plan := { s1.plan with slots := s1.plan.slots.filter (fun x => !hit x) } }

/-! Units taken out and lost fields (R396 to R398). -/

/-- R396 step 1, R397: a unit is fenced: the tokens that still need its section are abandoned, and the requests of its edition are
held. -/
def State.fenceUnit (s : State) (u : UnitOut) (phase : Nat := 1) : State :=
  match unpackKey u.unit with
  | none => s.dropUnit u.unit
  | some k =>
    let c := s.core k
    let s1 := if u.kind = .engine then s.updEngine k (unpackEngine u.unit) (fun v => { v with fenced := true })
      else s.updCore k (fun v => { v with fenced := true })
    let s2 := s1.updUnit u.unit (fun v => { v with phase := phase, editions := if c.edition = 0 then [] else [c.edition] })
    if c.edition = 0 then s2
    else
      (s2.abandon (fun x => decide (x.edition = c.edition) && decide (x.sect ≤ c.entry.sect))).holdReqs
        (fun r => decide (r.edition = c.edition)) 0

/-- R171, R396: a unit whose fencing waits: fenced, or as one that serves on given to repair at once. -/
def State.beginRepair (s : State) (u : UnitOut) : State :=
  if u.serves then s.updUnit u.unit (fun v => { v with phase := 1 }) else s.fenceUnit u

/-- R171, R396: the replacement of a core that served on is ready: the core is fenced, and the relocation goes to the ledger. -/
def State.endServing (s : State) (u : UnitOut) : State :=
  let t := s.fenceUnit u 2
  (t.plan.outUnits.filter (fun v => v.unit = u.unit)).foldl (fun (x : State) v => x.unitReady v) t

/-- R397: whether an edition's requests are held for a unit that is out of service. -/
def State.unitHolds (s : State) (ed : Nat) : Bool :=
  s.plan.outUnits.any (fun u => decide (u.phase ≠ 0) && u.editions.contains ed)

/-- R396, R398: the units whose fencing waits are fenced; what is being rebuilt for a lost field is held too. -/
def State.fenceUnits (s : State) : State :=
  let s0 := (s.plan.outUnits.filter (fun u => u.phase = 4)).foldl (fun (t : State) u => t.endServing u) s
  let s1 := (s0.plan.outUnits.filter (fun u => u.phase = 0)).foldl (fun (t : State) u => t.beginRepair u) s0
  (s1.plan.outUnits.filter (fun u => u.phase = 2 ∧ (s1.field (unpackField u.unit)).lost)).foldl (fun (t : State) u =>
    match unpackKey u.unit with
    | none => t
    | some k =>
      let c := t.core k
      (t.abandon (fun x => u.editions.contains x.edition && decide (x.edition = c.edition) && decide (x.sect ≤ c.entry.sect))).holdReqs
        (fun r => u.editions.contains r.edition) 0) s1

/-- R383, R398: a request of an edition that leaves service. -/
def State.lostReq (s : State) (i : Nat) : State :=
  let r := s.req i
  ((s.dropSlots i).countPart r.partition pcFaultReports 1).endRequest i stFault

/-- R398: an edition without service whose work stands on no lost field any more, by a host-assisted relocation, serves again. -/
def State.returnService (s : State) : State :=
  { s with editions := s.editions.mapVals (fun i e =>
    if e.noService && !(s.edFields i).any (fun f => (s.field f).lost) then { e with noService := false } else e) }

/-- R398: with no reserve field left, an edition with cores on a lost field carries nothing: its requests retire, and a switch to it
is cancelled. -/
def State.dropLost (s0 : State) : State :=
  let s := s0.returnService
  let gone := s.editions.entries.filter (fun (x : Nat × Edition) => x.2.state ≠ .free ∧ !x.2.noService ∧
    (s.edFields x.1).any (fun f => (s.field f).lost && !s.plan.rebuilds.any (fun r => decide (r.1 = f))))
  gone.foldl (fun (t : State) x =>
    let l := (t.reqs.entries.filter (fun (q : Nat × Req) =>
      q.2.edition = x.1 ∧ q.2.state ≠ .free ∧ q.2.state ≠ .retired)).map Prod.fst
    let t1 := l.foldl (fun (u : State) i => u.lostReq i) (t.cancelSwitch x.1 stFault)
    (t1.updEdition x.1 (fun v => { v with noService := true })).abandon (fun y => decide (y.edition = x.1))) s

/-! Shadow switches (R146, R147). -/

/-- R147: the requests that follow a partition's current edition and take their next step on the new one. -/
def State.followers (s : State) (p : Nat) : List (Nat × Req) :=
  s.reqs.entries.filter (fun (x : Nat × Req) => x.2.partition = p ∧ x.2.follow ∧ x.2.edition = (s.part p).current
    ∧ x.2.state ≠ .free ∧ x.2.state ≠ .retired ∧ x.2.state ≠ .draining)

/-- R146: a follower on the new edition's timetable, within its bounds; none where it finds no room. -/
def State.followOn (s : State) (i planned : Nat) : Option State :=
  let r := s.req i
  let p := s.periodOf r
  if p = 0 then none
  else if r.prefilling then
    let q : PlanReq :=
      { ed := r.edition, a := s.plan.window, need := r.desc.promptLen.toNat - r.prefillPos, period := p, slots := 1 + r.depth
        extra := (s.edition r.edition).allowance r.cls.replay.toNat * (s.edition r.edition).drep
        bound := r.cls.firstUs.toNat * 1000, w := s.plan.wNext, wait := s.since r.acceptedAt, first := s.nextWindow }
    match s.planRequest q with
    | .ok l w0 _ => some (s.updReq i (fun r => { r with period := p, prefill := l, nextVisit := w0, kept := false }))
    | _ => none
  else (s.roomFrom r.edition planned p (1 + r.depth)).map (fun w0 =>
    s.updReq i (fun r => { r with period := p, nextVisit := w0, kept := false }))

/-- R146, R147: the switch of a partition to a READY edition, if every follower finds room there, and a forerunner's pool bears them
(R157). -/
def State.shadowSwitch (s : State) (p : Nat) (w : SwitchReq) : Option State :=
  let l := s.followers p
  let old := (s.part p).current
  let plan := l.filter (fun x => x.2.active && decide (x.2.period ≠ 0))
  let s1 := (s.offGrid (plan.map Prod.fst)).gridOf w.edition s.plan.wNext
  let s2 := l.foldl (fun (t : State) x => t.updReq x.1 (fun r => { r with edition := w.edition })) s1
  let s3 := plan.foldl (fun (t : Option State) x => t.bind (fun u => u.followOn x.1 (s.plannedVisit x.2))) (some s2)
  (s3.filter (fun t => !t.poolShort w.edition (t.edPasses w.edition))).map (fun t =>
    let t1 := (t.updEdition old (fun v => if v.state = .current then { v with state := .retained } else v)).updEdition w.edition
      (fun v => { v with state := .current })
    (t1.updPart p (fun v => { v with current := w.edition, switch := none })).finish w.conn w.cmdTag stOk)

/-! Rolling switches and refresh holds (R148 to R150, R171). -/

/-- R148: whether a request pinned to an edition has not retired. -/
def State.pinnedTo (s : State) (ed : Nat) : List Nat :=
  (s.reqs.entries.filter (fun (x : Nat × Req) => x.2.edition = ed ∧ !x.2.follow ∧ x.2.state ≠ .free ∧ x.2.state ≠ .retired)).map
    Prod.fst

/-- R154, R437: a pinned request that ends: it completes the step it is in; one with a prefill under way completes that first, except
at the gate of a rolling switch, which ends it (R153, log 145). -/
def State.endPinned (s : State) (i : Nat) (gate : Bool) : State :=
  let r := s.req i
  if r.kvWait then s.goneReq i
  else if r.state = .draining then s
  else if r.state = .prefill then
    if r.prefillPos < r.desc.promptLen.toNat then (if gate then s.goneReq i else s)
    else s.updReq i (fun r => { r with state := .draining, ended := some stEditionGone, prefill := [], period := 0 })
  else s.drain i stEditionGone

/-- Table 5-6 phase 1: the gate: no further token of the partition enters section 0. -/
def State.gate (s : State) (ed p cause : Nat) (us : Nat) : State :=
  (s.updEdition ed (fun v => { v with rolling := v.rolling.map (fun r => { r with
    phase := .drain, gateAt := s.stamp, hUs := us }) })).holdReqs (fun r => decide (r.partition = p)) cause

/-- R148, R149: the gate of a rolling switch, at or after its window; under `wait` once no pinned request of the base edition is
left. -/
def State.rollingGate (s : State) (p : Nat) (w : SwitchReq) : State :=
  match (s.edition w.edition).rolling with
  | none => s
  | some r =>
    if r.phase ≠ .waiting ∨ s.nextWindow < w.earliest ∨ (!w.endPinned ∧ !(s.pinnedTo r.base).isEmpty) then s
    else
      let s1 := if w.endPinned then (s.pinnedTo r.base).foldl (fun (t : State) i => t.endPinned i true) s else s
      s1.gate w.edition p 0x03 r.hUs

/-- R150, R171: the hold bound of a refresh hold. -/
def State.refreshBound (s : State) (ed : Nat) : Nat := s.holdBound ed (s.holdRows ed true)

/-- R171: the gate of a refresh hold, its H reported; no switch of the partition is past its gate. -/
def State.refreshGate (s : State) (ed : Nat) : State :=
  let e := s.edition ed
  match e.rolling with
  | none => s
  | some r =>
    if !r.refresh ∨ r.phase ≠ .waiting ∨ s.editions.vals.any (fun v => decide (v.partition = e.partition) && (match v.rolling with
        | some q => decide (q.phase ≠ .waiting)
        | none => false)) then s
    else
      let us := s.refreshBound ed
      (s.gate ed e.partition 0x04 us).weightsReport ed stPending (leBytes 8 us)

/-- Table 5-6 phase 5: an edition resumes: a rolling switch makes it CURRENT and frees its base; a refresh hold just ends. -/
def State.resumeEdition (s : State) (ed : Nat) : State :=
  let e := s.edition ed
  match e.rolling with
  | none => s
  | some r =>
    if r.phase ≠ .resume then s
    else
      let p := e.partition
      let s1 := s.updEdition ed (fun v => { v with rolling := none })
      if r.refresh then s1
      else
        let l := (s1.reqs.entries.filter (fun (x : Nat × Req) => x.2.edition = r.base ∧ x.2.state ≠ .free
          ∧ x.2.state ≠ .retired)).map Prod.fst
        let t1 := l.foldl (fun (t : State) i => t.updReq i (fun q => { q with edition := ed })) s1
        let t2 := (t1.updEdition ed (fun v => { v with state := .current })).freeEdition r.base
        let t3 := (t2.updPart p (fun v => { v with current := ed })).gridOf ed s.plan.wNext
        match (s.part p).switch with
        | some w => (t3.updPart p (fun v => { v with switch := none })).finish w.conn w.cmdTag stOk
        | none => t3

/-- Whether a rolling barrier or a refresh hold is under way (Table 5-8): a global stop waits for its resume boundary. -/
def State.barrierUnderWay (s : State) : Bool :=
  s.editions.vals.any (fun v => match v.rolling with
    | some r => decide (r.phase = .drain ∨ r.phase = .rewrite ∨ r.phase = .close)
    | none => false)

/-- Table 5-6 phase 5: the barriers and refresh holds that a boundary resumes. -/
def State.resumeEditions (s : State) : State := s.editions.keys.foldl (fun (t : State) ed => t.resumeEdition ed) s

/-- R146 to R150, R171: the switches that take effect at a boundary, and those, with the refresh holds, whose gate it is. -/
def State.switches (s : State) : State :=
  let s2 := s.parts.entries.foldl (fun (t : State) (x : Nat × Partition) => match (t.part x.1).switch with
    | none => t
    | some w =>
      if w.rolling then t.rollingGate x.1 w
      else if t.nextWindow < w.earliest ∨ (t.edition w.edition).noService ∨ (t.edition w.edition).state ≠ .ready then t
      else (t.shadowSwitch x.1 w).getD t) s
  s2.editions.keys.foldl (fun (t : State) ed => t.refreshGate ed) s2

/-- R132, R154: what a boundary does with RETIRING editions: under `end` their pinned requests end; one with no request left
becomes FREE and is reported. -/
def State.retireEditions (s : State) : State :=
  let l := (s.editions.entries.filter (fun (x : Nat × Edition) => x.2.state = .retiring)).map Prod.fst
  l.foldl (fun (t : State) ed =>
    let t1 := if (t.edition ed).retireEnd then (t.pinnedTo ed).foldl (fun (u : State) i => u.endPinned i false) t else t
    if t1.reqs.vals.any (fun r => decide (r.state ≠ .free) && decide (r.edition = ed))
        || t1.plan.slots.any (fun x => decide (x.edition = ed)) then t1
    else (t1.weightsReport ed stEditionGone []).freeEdition ed) s

/-! What a release brings into force. -/

/-- R143, R155: the rows of logical engines `ls` of placement core `place` of a build are programmed again from staging, on the engines
that serve them now. -/
def State.requeueBuild (s : State) (ed place : Nat) (ls : List Nat) : State :=
  let v := s.edition ed
  if v.kind ≠ .shadow then s
  else
    let k := s.physOf place
    ls.foldl (fun (t : State) l =>
      let target := placeEngine place l
      let e := (t.core k).emap.getD l 0
      t.queueRows k e v.job ((List.range 8192).filterMap (fun r =>
        if v.state = .verifying ∨ v.namesRow target r then (t.sourcedRow ed target r).1.map (fun b => (r, b)) else none))) s

/-- R378, Table 13-8: a self-test goes on with the engine now in service; the two engines' tests await a window again. -/
def SelfTest.swapped (t : SelfTest) (k out now : Nat) : SelfTest :=
  { t with
    swaps := t.swaps ++ [(k, out, now)]
    fit := t.fit.filter (fun x => decide (2 < x.2) || decide (unpackKey x.1 ≠ some k)
      || decide (unpackEngine x.1 ≠ out ∧ unpackEngine x.1 ≠ now)) }

/-- R170, R378: the refreshes that a new engine map of a core ends: (engine out of service, engine in service). -/
def Core.swapsTo (c : Core) (map : List Nat) : List (Nat × Nat) :=
  c.engines.entries.filterMap (fun e => match e.2.refresh with
    | some r => if r.phase = 7 ∧ !map.contains e.1 then some (e.1, r.spare) else none
    | none => none)

/-- R178, R396 step 7: committed engine maps; the refresh or the replacement that they end. -/
def State.takeEmaps (s : State) : State :=
  s.ledger.emapNext.foldl (fun (t0 : State) (x : Nat × List Nat) =>
    let old := (t0.core x.1).emap
    let built := t0.buildWork x.1
    let swaps := (t0.core x.1).swapsTo x.2
    let u := t0.updCore x.1 (fun c => { c with
      emap := x.2
      engines := c.engines.mapVals (fun e v => if swaps.any (fun w => w.1 = e) then { v with refresh := none } else v) })
    let t : State := { u with mod := { u.mod with tests := u.mod.tests.map (fun y => swaps.foldl (fun z w => z.swapped x.1 w.1 w.2) y) } }
    let t1 := match built with
      | some (ed, place) => t.requeueBuild ed place ((List.range 16).filter (fun l => old.getD l 0 ≠ x.2.getD l 0))
      | none => t
    (t1.plan.outUnits.filter (fun u => u.kind = .engine ∧ u.phase = 3 ∧ unpackKey u.unit = some x.1)).foldl
      (fun (u : State) q => u.dropUnit q.unit) t1) { s with ledger := { s.ledger with emapNext := [] } }

/-- R11, R120, R396 step 7: committed relocations: the core that served the work holds it no longer. -/
def State.takeRelocations (s : State) : State :=
  s.ledger.relocNext.foldl (fun (t : State) (x : Nat × Nat) =>
    let old := t.physOf x.1
    let built := t.buildWork old
    let m := if x.2 = x.1 then t.ledger.relocation.erase x.1 else t.ledger.relocation.put x.1 x.2
    let t1 : State := { t with ledger := { t.ledger with relocation := m } }
    let t2 := if old = x.2 then t1
      else t1.updCore old (fun c => { c with edition := 0, placeId := none, entry := {}, residents := [], mode := .idle })
    let t3 := match built with
      | some (ed, place) => if place = x.1 then t2.requeueBuild ed place (List.range 16) else t2
      | none => t2
    ((t3.plan.outUnits.filter (fun u => u.kind ≠ .engine ∧ u.phase = 3 ∧ u.dest = x.2)).foldl (fun (u : State) q =>
      u.dropUnit q.unit) t3).countResident (old / coresPerField)) { s with ledger := { s.ledger with relocNext := [] } }

/-- R149, R397: whether a partition is held by a rolling barrier or a refresh hold past its gate. -/
def State.partHeld (s : State) (p : Nat) : Bool :=
  s.editions.vals.any (fun v => decide (v.partition = p) && (match v.rolling with
    | some r => decide (r.phase ≠ .waiting)
    | none => false))

/-- R397, R30: whether a request may not enter section 0: it is held, or the timetable gives its edition no work. -/
def State.reqHeld (s : State) (r : Req) : Bool := s.unitHolds r.edition || s.partHeld r.partition || !s.plannable r.edition

/-- R398: a rebuilt field's record is done when its last core's relocation is in force, that of a core of a build with it. -/
def State.rebuildsDone (s : State) : State :=
  { s with plan := { s.plan with rebuilds := s.plan.rebuilds.filter (fun r =>
    s.plan.outUnits.any (fun u => decide (unpackField u.unit = r.1))
      || s.ledger.waiting.any (fun c => decide (c.kind = jkRelocation) && decide (s.physOf c.key / coresPerField = r.1))
      || s.ledger.relocNext.any (fun x => decide (s.physOf x.1 / coresPerField = r.1))) } }

/-- Table 5-6 phase 5, R397: held requests whose barrier or unit is over go on. -/
def State.releaseHeld (s : State) : State := s.unholdReqs (fun r => !s.reqHeld r)

/-- R247 to R249: the gating changes due at a release: a gated bank loses what it holds and reads poisoned until written again. -/
def Scratch.gateDue (p : Scratch) (n : Nat) : Scratch :=
  let due := p.gateReq.filter (fun g => g.1 ≤ n)
  due.foldl (fun (q : Scratch) g =>
    if g.2.2 then
      let gone := fun (line : Nat) => g.2.1.getLsbD (line * spLine / spBank)
      { q with
        gated := q.gated ||| g.2.1, voidBanks := q.voidBanks ||| g.2.1
        written := q.written.filter (fun l => !gone l), scrubbed := q.scrubbed.keep (fun l _ => !gone l) }
    else { q with gated := q.gated &&& ~~~ g.2.1 }) { p with gateReq := p.gateReq.filter (fun g => n < g.1) }

/-- R99, R247: the line remaps and gating changes of the scratchpads that a release brings into force. -/
def State.takeLines (s : State) : State :=
  { s with cores := s.cores.mapVals (fun k c =>
    let sp := if s.ledger.waits jkCore k jwRemap then c.sp
      else { c.sp with remap := c.sp.remap ++ c.sp.waiting, waiting := [] }
    { c with sp := sp.gateDue s.nextWindow }) }

/-- R269, R271: the granule remaps of the stacks take effect, each with its event, and a window of strong decodes begins. -/
def State.takeGranules (s : State) : State :=
  s.stackSet.entries.foldl (fun (t : State) (x : Nat × Stack) =>
      x.2.waiting.foldl (fun (u : State) g => (u.countStack x.1 scRemaps 1).event evStackRemap x.1 none g.granule) t)
    { s with stackSet := s.stackSet.mapVals (fun _ t => { t with remap := t.remap ++ t.waiting, waiting := [], strong := 0 }) }

/-- R65, R178: whether a shadow copy may be loaded: its column map is the one in force, or it is committed to the ledger, every
row's spares are programmed under it, and its trims were measured with them. -/
def Array.mapReady (a : Array) (map : List (BitVec 16)) : Bool :=
  decide (map = a.colMap) || (decide (map = a.mapLedger) && decide (a.mapRows.length = arrayRows) && (a.samplePass || a.trimmed))

/-- R372, R376: the calibration trims of a matching come into force. -/
def Array.matched (a : Array) : Array :=
  match a.calNext with
  | some n => { a with cal := some n, calNext := none }
  | none => a

/-- R166: an array at a release, at its field's mean temperature in whole °C: trims from the shadow copy are loaded with their column
map, and become the base of feed-forward; between the passes of a sample the trims stay. -/
def Array.released (a : Array) (t : Int) : Array :=
  let b : Array := match a.shadow.filter (fun x => a.mapReady x.2) with
    | none => a
    | some (w, map) =>
      let a1 := { a with colMap := map, shadow := none }
      if a.samplePass then { a1 with trim := w }
      else if w = a.sampled then a1 else { a1 with sampled := w, tTrim := t }
  let c : Array := if b.samplePass then b.matched
    else { b.matched with trim := trimRecord (trimGain b.sampled + 39 * (t - b.tTrim)) (trimZero b.sampled) }
  { c with trimLimit := trimOnLimit c.trim }

/-- R166, R178: the trims of every array at a release; new ones are put to the ledger, and one newly on a limit raises
`TRIM_LIMIT`. -/
def State.takeTrims (s : State) : State :=
  s.overArrays (fun t k e a =>
    let f := k / coresPerField
    if !(t.field f).power.converterOn ∨ (t.field f).sleep = .cold then t
    else
      let v := (t.array k e a).released (t.field f).meanTemp
      let t0 := t.updArray k e a (fun _ => v)
      let t1 := if v.sampled = (t.array k e a).sampled then t0 else t0.journalArray k e a jwTrim v.sampled.toNat
      if v.trimLimit ∧ !(s.array k e a).trimLimit then t1.event evTrimLimit (packedArray k e a) else t1)

/-- R162: jobs of serving editions' arrays whose rows are all re-verified end. -/
def State.closeJobs (s : State) : State :=
  s.overArrays (fun t k e a =>
    let v := t.array k e a
    let ed := t.edition (t.core k).edition
    if v.jobRows.isEmpty ∨ !v.settled ∨ !(t.engine k e).rowsLeft.isEmpty ∨ (t.engine k e).agentBusy
        ∨ !(decide (ed.state = .current ∨ ed.state = .retained ∨ ed.state = .retiring)) then t
    else t.closeJob k e a)

/-- R370, R376: a field's monitors at a release: the scales of a recalibration replace those of its setpoint, and a monitor more than
10 % off their median is discarded. -/
def Field.rescaled (v : Field) : Field :=
  let new := fun (i : Nat) => (v.monitors.find i {}).scaleNext
  let med := median2 ((List.range 16).map (fun i => ((new i).map Prod.snd).getD 0))
  { v with monitors := v.monitors.mapVals (fun _ x => match x.scaleNext with
      | none => x
      | some (sp, c) => { x with
          scale := x.scale.put sp c, scaleNext := none, kept := x.kept && decide (20 * c ≤ 11 * med) && decide (9 * med ≤ 20 * c) }) }

/-- R376: the recalibrated monitors of every field. -/
def State.takeScales (s : State) : State := { s with fields := s.fields.mapVals (fun _ v => v.rescaled) }

/-- R178: everything that waits for a release. -/
def State.inForce (s : State) : State :=
  (((((s.takeEmaps.takeRelocations).rebuildsDone.releaseHeld).takeLines).takeGranules).takeTrims).takeScales.closeJobs

/-! The boundary (R22, R324). -/

/-- R186: requests that were RETIRED before this boundary become FREE. -/
def State.freeRetired (s : State) (l : List (Nat × BitVec 7)) : State :=
  l.foldl (fun (t : State) x => if (t.req x.1).state = .retired ∧ (t.req x.1).gen = x.2 then t.freeReq x.1 else t) s

/-- R215: a request in the siding for a late grammar answer is asked for again while no assist for it stands. -/
def State.askAgainGrammar (s : State) : State :=
  (s.reqs.entries.filter (fun (x : Nat × Req) => x.2.state = .siding ∧ x.2.causes.getLsbD causeAssist)).foldl (fun (t : State) x =>
    match (t.req x.1).assistWait with
    | some token => if t.alaok.assists.any (fun a => decide (a.fn = 3) && decide (a.req = x.1)) then t else t.askGrammar x.1 0 token
    | none => t) s

/-- R22, R324: the actions at the boundary after window n, the window's work gathered: tokens delivered, protection changes, the
other commands in acceptance order, limits, units and fields, barriers that resume, the grid, switches (R254) and the siding. -/
def State.boundary (s : State) : State :=
  let retired := (s.reqs.entries.filter (fun (x : Nat × Req) => x.2.state = .retired)).map (fun x => (x.1, x.2.gen))
  let s1 := ((s.gather).settleSuspects.deliverWindow).actCommands
  let s2 := ((s1.freeRetired retired).boundaryLimits).fenceUnits.dropLost.checkPools
  ((((s2.resumeEditions.replanGrid).switches).retireEditions).askAgainGrammar.askAgainRows).sidingTests

end Sys2Proof.Machine
end

