-- ==== Sys2Proof/Machine/Release.lean ====
section
/-! DEFINITION. The release of a window (R21, R23, R117, R118): the slots that enter section 0 (R189, R192, R221), the replays that
rejoin (R385, R387), the window records, and the start of the cores. -/

namespace Sys2Proof.Machine

/-! Slots of the window to come. -/

/-- A new slot of section 0. -/
def State.addSlot (s : State) (i pos token : Nat) (drafted lastPrompt : Bool) : State :=
  let r := s.req i
  let x : Slot := { id := s.plan.nextSlot + 1, req := i, gen := r.gen, pos := pos, edition := r.edition, token := token
                    drafted := drafted, lastPrompt := lastPrompt, entered := s.nextWindow }
  let y := s.atLayer x 0 ((s.edition r.edition).layersOf 0).1
  { s with plan := { s.plan with nextSlot := s.plan.nextSlot + 1, slots := s.plan.slots ++ [y] } }.countPart r.partition pcSlots 1

/-- R184: a token of a request's prompt, in its partition's serving region. -/
def State.promptToken (s : State) (r : Req) (pos : Nat) : Nat :=
  natAt (s.partData r.partition 0 (r.desc.promptOff.toNat + 4 * pos) 4) 0 4 % 2 ^ 18

/-- R184, Table 9-6: a slot of the prompt whose word reads poisoned enters suspect. -/
def State.addPrompt (s : State) (i pos : Nat) (lastPrompt : Bool) : State :=
  let r := s.req i
  let s1 := (s.partTouched r.partition 0 (r.desc.promptOff.toNat + 4 * pos) 4).addSlot i pos (s.promptToken r pos) false lastPrompt
  if s.promptPoison (s.req i) pos then s1.markSlot s1.plan.nextSlot 0x01 else s1

/-- R192, Table 7-3: the prefill slots that a request's plan gives window `n` enter section 0. -/
def State.enterPrefill (s : State) (i n : Nat) : State :=
  let r := s.req i
  let k := Nat.min (r.prefillAt n) (r.desc.promptLen.toNat - r.prefillPos)
  if k = 0 then s
  else
    ((List.range k).foldl (fun (t : State) j =>
      t.addPrompt i (r.prefillPos + j) (r.prefillPos + j + 1 = r.desc.promptLen.toNat)) s).updReq
      i (fun r => { r with
        prefillPos := r.prefillPos + k, prefill := r.prefill.filter (fun x => n < x.1)
        state := if r.state = .admitted then .prefill else r.state })

/-- R387, R194 step 2: a visit whose token is not back yet moves to the first window after it that has room. -/
def State.moveVisit (s : State) (i n : Nat) : State := (s.offGrid [i]).regridReq i (n + 1) false

/-- R189, R206, R221: a request's visit in window `n`: its real slot and its drafted slots, if its ring has room. -/
def State.enterVisit (s : State) (i n : Nat) : State :=
  let r := s.req i
  if !r.visits n then s
  else if r.committed < r.desc.promptLen.toNat ∨ s.inFlight i then s.moveVisit i n
  else if !s.ringRoom i (r.depth + 2) then s.toSiding i causeRing
  else
    let l := if r.drafts.isEmpty then draftsFor r.edition r.committed r.lastToken r.depth else r.drafts
    let drafts := (List.range r.depth).zip l
    let s1 := s.addSlot i r.committed r.lastToken false true
    let s2 := drafts.foldl (fun (t : State) x => t.addSlot i (r.committed + x.1 + 1) x.2 true true) s1
    s2.updReq i (fun r => { r with state := if r.state = .admitted then .running else r.state })

/-- Table 7-3: what a request enters section 0 with in window `n`; a held one nothing. -/
def State.enterReq (s : State) (i n : Nat) : State :=
  let r := s.req i
  if !r.active ∨ r.held ∨ (s.edition r.edition).noService then s
  else if r.slotsAt n = 0 then s
  else if s.reqHeld r then
    (if s.plannable r.edition then s else s.blame i 0x08).updReq i (fun r => { r with held := true })
  else (s.enterPrefill i n).enterVisit i n

/-- R385 phase 6, R387: the replays due in window `n` rejoin the section after their own, in the order of their arrival, as far as its
held-back slots go, and one that waited for want of any also as far as the entries left unused under E; the others wait a window. The second part: those that wait. -/
def State.rejoin (s : State) (n : Nat) : State × List Slot :=
  (s.plan.replays.filter (fun q => q.returned ∧ q.due ≤ n)).foldl (fun (acc : State × List Slot) q =>
    let t := acc.1
    let x := q.slot
    let r := t.req x.req
    let e := t.edition x.edition
    if r.gen ≠ x.gen ∨ r.state = .free ∨ r.state = .retired then (t.lateReplay x.id, acc.2)
    else
      let back := (t.plan.slots.filter (fun y => y.edition = x.edition ∧ y.sect = x.sect + 1 ∧ y.replay)).length
      let plain := (t.plan.slots.filter (fun y => y.edition = x.edition ∧ y.sect = x.sect + 1 ∧ !y.replay)).length
      if decide (back < ceilDiv e.bmax 16) || (q.starved && decide (plain + (back - ceilDiv e.bmax 16) < e.entryLimit)) then
        let y := t.atLayer { x with replay := true, causes := [], inputs := x.lines, lines := [], reports := false } (x.sect + 1) (e.layersOf (x.sect + 1)).1
        let t1 := t.dropReplay x.id
        ({ t1 with plan := { t1.plan with slots := t1.plan.slots ++ [y] } }, acc.2)
      else
        let t1 := t.blame x.req 0x05
        ({ t1 with plan := { t1.plan with replays := t1.plan.replays.map (fun p =>
          if p.slot.id = x.id then { p with due := n + 1, starved := p.starved || decide (e.bmax = 0) } else p) } }, acc.2 ++ [x])) (s, [])

/-- R30, Table 8-2: a slot of a section whose fields the timetable gives no work waits a window; its request's delay has cause
0x08 (log 135). -/
def State.parkSlots (s : State) : State :=
  let hit := fun (x : Slot) => decide (x.wait = 0) && decide (x.sect < (s.edition x.edition).sections) && !s.sectRuns x.edition x.sect
  let s1 := (s.plan.slots.filter hit).foldl (fun (t : State) x => t.blame x.req 0x08) s
  { s1 with plan := { s1.plan with slots := s1.plan.slots.map (fun x => if hit x then { x with wait := 1 } else x) } }

/-- Whether a slot has a section's work in its window. -/
def State.fires (s : State) (x : Slot) : Bool := decide (x.wait = 0) && decide (x.sect < (s.edition x.edition).sections)

/-- R117: the slots numbered within their section's window record. -/
def indexed (l : List Slot) : List Slot :=
  l.foldl (fun (acc : List Slot) x => acc ++
    [{ x with index := (acc.filter (fun y => y.edition = x.edition ∧ y.sect = x.sect ∧ y.wait = x.wait)).length }]) []

/-! Records and starts. -/

/-- Table 4-6: the window record of a section. -/
def State.windowRecord (s : State) (n sect : Nat) (l : List Slot) : List Byte :=
  leBytes 8 n ++ leBytes 2 l.length ++ leBytes 1 sect ++ leBytes 5 0 ++ l.flatMap (fun x =>
    let r := s.req x.req
    leBytes 4 (tagOf x.req x.gen).toNat ++ leBytes 4 x.pos ++ leBytes 2 x.edition ++ leBytes 1 r.desc.cls.toNat
      ++ leBytes 1 (x.drafted.toNat + 2 * x.replay.toNat) ++ leBytes 4 r.desc.steer.toNat)

/-- R117: where the record of window `n` stands in a core. -/
def Core.recordAt (c : Core) (n : Nat) : Nat := c.entry.wrecBase + n % 2 * 0x1100

/-- R118: the registers at a release; those of a core whose last window ended in a fault are 0 from `g4` on (R394). -/
def Core.startRegs (c : Core) (n : Nat) : Vector Word 32 :=
  Vector.ofFn (fun (i : Fin 32) =>
    if i.val = 0 then 0
    else if i.val = 1 then BitVec.ofNat 32 n
    else if i.val = 2 then BitVec.ofNat 32 (c.recordAt n)
    else if i.val = 3 then BitVec.ofNat 32 (c.readingIn n)
    else if c.faultedWin then 0 else c.regs[i])

/-- R115, R118, R124, R394: a core with work starts its slice in window `n`. -/
def Core.startWindow (c : Core) (n : Nat) : Core :=
  { c with
    mode := .running, regs := c.startRegs n, poison := if c.faultedWin then 0 else c.poison &&& ~~~ 0xE
    pc := BitVec.ofNat 16 c.start, window := BitVec.ofNat 64 n, hoffRd := BitVec.ofNat 32 (c.readingIn n)
    wrec := BitVec.ofNat 32 (c.recordAt n), sig := 0xFFFFFFFF, waitMask := none, cpl := [], unpopped := 0, unitSeq := .empty
    contrib := none, faultedWin := false, named := [], marked := false, commandFault := false, passBp := false, stepping := false }

/-- R22, R115, R124: a core at a release, before its work if it has any: idle, its completion queue empty, `sig` at its start. -/
def Core.endWindow (c : Core) : Core :=
  { c with mode := .idle, contrib := none, waitMask := none, cpl := [], unpopped := 0, unitSeq := .empty, sig := 0xFFFFFFFF }

/-- R19: what the sampler sends back to the cores of section 0 with a release: tag, position and token of each slot. -/
def fedBack (l : List Slot) : List (Word × Nat × Nat) := l.map (fun x => (tagOf x.req x.gen, x.pos, x.token))

/-- R117, R118, R19: the core that serves a place of a section takes the record, in section 0 the tokens fed back, and starts. At a closed boundary (R251) the section's slots
are suspect instead. -/
def State.startCore (s : State) (n ed sect place : Nat) (record : List Byte) (fed : List (Word × Nat × Nat)) : State :=
  let k := s.physOf place
  let f := k / coresPerField
  let c := s.core k
  if c.edition ≠ ed ∨ c.fenced ∨ (s.field f).fenced then
    { s with plan := { s.plan with slots := s.plan.slots.map (fun x =>
      if x.edition = ed ∧ x.sect = sect ∧ x.wait = 0 then { x with causes := insertNat 0x07 x.causes } else x) } }
  else
    let s1 := (s.spWrite k (c.recordAt n) (record.map (fun b => (b, false)))).updCore k (fun c => { (c.startWindow n) with fed := fed })
    let s2 := (s1.trace k 0x07 c.start (BitVec.ofNat 32 n)).beginWake f
    { s2 with plan := { s2.plan with awaiting := insertNat f s2.plan.awaiting } }

/-- R219, R351, Table 7-14: whether a request's steering set has a vector for a layer whose length is not the layer's output count, or
lies outside the partition's range. -/
def State.steerMismatch (s : State) (r : Req) (layer : Nat) : Bool :=
  match (s.part r.partition).steers.find? r.desc.steer.toNat with
  | none => decide (r.desc.steer.toNat < (s.part r.partition).entry.steerFirst.toNat)
      || decide ((s.part r.partition).entry.steerFirst.toNat + (s.part r.partition).entry.steerCount.toNat ≤ r.desc.steer.toNat)
  | some g =>
    let t := s.partData r.partition 1 (g.offset + 16) (8 * natAt (s.partData r.partition 1 (g.offset + 4) 2) 0 2)
    (List.range (t.length / 8)).any (fun i => decide (natAt t (8 * i) 2 = layer)
      && decide (natAt t (8 * i + 2) 2 ≠ Config.layerOutputs (s.edition r.edition).digest layer))

/-- R219, R268 to R272: what the read of a request's steering table leaves behind. -/
def State.steerTouched (s : State) (r : Req) : State :=
  if r.desc.steer = 0xFFFFFFFF then s
  else match (s.part r.partition).steers.find? r.desc.steer.toNat with
    | none => s
    | some g => s.partTouched r.partition 1 g.offset (16 + 8 * natAt (s.partData r.partition 1 (g.offset + 4) 2) 0 2)

/-- R219: counts the length mismatches of the slots of a section, one for each slot and layer that the window works on (log 120). -/
def State.countSteer (s : State) (ed sect : Nat) (l : List Slot) : State :=
  let e := s.edition ed
  let span := e.layersOf sect
  l.foldl (fun (t : State) x =>
    let r := t.req x.req
    let layers := if e.kind = .forerunner then [x.layer] else (List.range (span.2 + 1 - span.1)).map (fun i => span.1 + i)
    let n := (layers.filter (t.steerMismatch r)).length
    let u := t.steerTouched r
    if n = 0 ∨ r.desc.steer = 0xFFFFFFFF then u else u.countPart r.partition pcSteerMismatch n) s

/-- R117: every section with slots that fire in window `n`. -/
def State.startSections (s : State) (n : Nat) : State :=
  let pairs := (s.plan.slots.filter s.fires).foldl (fun (l : List (Nat × Nat)) x =>
    if l.contains (x.edition, x.sect) then l else l ++ [(x.edition, x.sect)]) []
  pairs.foldl (fun (t : State) (p : Nat × Nat) =>
    let l := s.plan.slots.filter (fun x => x.edition = p.1 ∧ x.sect = p.2 ∧ x.wait = 0)
    let b := s.windowRecord n p.2 l
    let fed := if p.2 = 0 then fedBack l else []
    ((s.edition p.1).sectionPlaces p.2).foldl (fun (u : State) place => u.startCore n p.1 p.2 place b fed)
      (t.countSteer p.1 p.2 l)) s

/-- R21, R23: the planned boundary of the window that begins: its length after the planned one, or after now when that boundary was
held. -/
def State.boundaryAfter (s : State) (late : Bool) : U64 :=
  BitVec.ofNat 64 ((if late then s.now else s.plan.tNext.toNat) + s.plan.wNext)

/-- R23: the ns for which the boundary was held. -/
def State.heldNs (s : State) : Nat := match s.plan.holdFrom with
  | some t => s.since t
  | none => 0

/-- R21, R35, R117, R384, R385: the release of window n + 1; relocations that come into force with it are planned for. -/
def State.releaseWindow (s : State) (late : Bool) : State :=
  let n := s.nextWindow
  let s0 := if s.plan.holdFrom.isSome then s.countModule mcHoldNs s.heldNs else s
  let u := s0.inForce
  let s1 := if s0.ledger.relocNext.isEmpty then u else u.replanGrid
  let s2 : State := { s1 with
    cores := s1.cores.mapVals (fun _ c => c.endWindow)
    fields := s1.fields.mapVals (fun _ v => if v.power.converterOn then { v with lastWindow := n } else v) }
  let r := s2.rejoin n
  let s3 := (r.1.reqs.keys.foldl (fun (t : State) i => t.enterReq i n) r.1).parkSlots
  let s4 : State := { s3 with plan := { s3.plan with
    window := n, tNext := s1.boundaryAfter (late || s.plan.holdFrom.isSome), w := s1.plan.wNext, holdFrom := none, held := false
    released := true, awaiting := [], edges := [], digests := [], slots := indexed s3.plan.slots } }
  let s5 := (r.2.foldl (fun (t : State) x => t.returnLines x) s4.copyInputs.payReplays).startSections n
  (s5.plan.awaiting.foldl (fun (t : State) f => t.countField f fcBusyWindows 1) s5).countModule mcWindows 1

/-- R413 phases 2 and 3: whether a global stop takes effect at this boundary (Table 5-8: not during a barrier). -/
def State.stopDue (s : State) : Bool := decide (s.stop.kind = .pending) && !s.barrierUnderWay

/-- R413 phase 2: the boundary's actions have run and the release is not sent; replays and stack accesses settle. A hold of the
boundary ends here (R403). -/
def State.stopHere (s0 : State) : State :=
  let s := if s0.plan.holdFrom.isSome then s0.countModule mcHoldNs s0.heldNs else s0
  { s with
    plan := { s.plan with released := false, holdFrom := none }
    stop := { s.stop with kind := .settling, stamp := s.stamp
                          replays := (s.plan.replays.filter (fun q => !q.returned)).length } }

/-- WINDOW_RELEASE (R21 to R23, R324): with every expected done report in and the timebase at T(n+1), the boundary is declared: its
actions run, and the release of n + 1 goes out, unless a reset or a global stop acts there. -/
def execWindowRelease (s : State) : Out :=
  .next (if !(s.inService && s.plan.released && !s.gatherWaits && decide (s.plan.tNext.toNat ≤ s.now)) ∨ s.mod.powerFail
      ∨ s.stop.kind = .nowSpreading then s
    else
      let s1 := s.boundary
      match s.resetWaiting with
      | some (fast, skip, c, tag) => s1.resetModule fast skip c tag
      | none => if s1.stopDue then s1.stopHere else s1.releaseWindow false)

end Sys2Proof.Machine
end

