-- ==== Sys2Proof/Machine/Assist.lean ====
section
/-! DEFINITION. Assist modes and the answers of the control node (R335, R336), each function's answer handled beside what asked for
it. -/

namespace Sys2Proof.Machine

/-- R324: a change from the next boundary on; at once where no boundaries come. -/
def State.nextBoundary (s : State) (d : Deferred) : State := if s.hasBoundaries then s.defer d else s.actDeferred d

/-- AS_MODE_SET (R335, R320): a partition's mode bits, from the next boundary. -/
def execAsModeSet (h : Hdr) (modes : BitVec 8) (s : State) : Out :=
  .next (s.command h rowAsModeSet (h.length = 4)
    (fun s => .run ((s.nextBoundary (.modes h.partition.toNat (modes.setWidth 7))).ok h)) 0
    (if (modes.setWidth 7 : BitVec 7) = 0 then 0 else 0x0200))

/-! Late and invalid answers. -/

/-- R169: a refresh that waited for its answer keeps the start it proposed. -/
def State.refreshPlanned (s : State) (unit : Nat) (start : Option U64) : State :=
  match unpackKey unit with
  | none => s
  | some k => s.updEngine k (unpackEngine unit) (fun v => { v with
      refresh := v.refresh.map (fun r => { r with assist := none, startAt := start.getD r.startAt }) })

/-- R382: the answer to a replay decision; 1 sends the replay to fault report. -/
def State.replayDecided (s : State) (slot : Nat) (report : Bool) : State :=
  { s with plan := { s.plan with replays := s.plan.replays.map (fun r =>
    if r.slot.id = slot then { r with assist := none, report := report } else r) } }

/-- R396: the answer to a placement repair, or none. -/
def State.repairDecided (s : State) (a : Assist) (choice : Option Nat) : State :=
  if a.verdict = 2 then s
  else match s.plan.outUnits.find? (fun u => u.unit = a.req ∧ u.phase = 1) with
  | none => s
  | some u => s.unitTested u (decide (a.verdict = 1)) choice

/-- Table 11-15, last column: the outcome of an assist without a valid answer in time, the assist itself gone; it is counted. -/
def State.assistLate (s : State) (a : Assist) : State :=
  let counted := s.countPart a.partition pcAssistLate 1
  if a.fn = 1 then counted.admitSettled a false
  else if a.fn = 2 then s.sampleLate a
  else if a.fn = 3 then s.gramLate a
  else if a.fn = 4 then counted.refreshPlanned a.req none
  else if a.fn = 5 then counted.replayDecided a.slot false
  else if a.fn = 7 then counted.repairDecided a none
  else counted

/-! Valid answers: none where an answer breaks its function's limits. -/

/-- R169: the start of a refresh, which for an engine already due may not lie ahead. -/
def State.refreshAnswer (s : State) (a : Assist) (start : U64) : Option State :=
  let due := match unpackKey a.req with
    | some k => (s.engine k (unpackEngine a.req)).arrays.vals.any (fun v => v.refDue)
    | none => false
  if due && decide (s.now < start.toNat) then none else some (s.refreshPlanned a.req (some start))

/-- R233: the requests that a power answer names, where each is the partition's own and none is guaranteed. -/
def State.movable (s : State) (p : Nat) (tags : List Word) : Option (List Nat) :=
  let ok := fun (w : Word) =>
    let r := s.req (tagIndex w)
    decide (r.gen = tagGen w) && decide (r.partition = p) && r.active && !r.cls.guaranteed
  if tags.all ok then some (tags.map tagIndex) else none

/-- R233: a power answer: it must release enough entries in every window of the proposal. The drop follows once no answer is
awaited. -/
def State.powerAnswer (s : State) (a : Assist) (tags : List Word) : Option State :=
  match s.movable a.partition tags with
  | none => none
  | some l =>
    let freed := fun ed n => ((l.eraseDups.filter (fun i => (s.req i).edition = ed)).map (fun i => (s.req i).slotsAt n)).sum
    if a.entries.all (fun x => decide (x.2.2 ≤ freed x.1 x.2.1)) then
      let s1 : State := { s with plan := { s.plan with prefer := s.plan.prefer ++ l } }
      if s.alaok.assists.any (fun b => b.fn = 6) then some s1
      else some { s1 with fields := s1.fields.mapVals (fun _ v => { v with power := { v.power with
        drops := v.power.drops.map (fun d => if !d.asked ∨ d.due.toNat < s.now + chooseNs then d else { d with due := BitVec.ofNat 64 (s.now + chooseNs) }) } }) }
    else none

/-- R398: the entries of an answer for a lost field: each the placement core of work of the assist's partition on that field, and a
core that is free, no core twice. -/
def State.fieldEntries (s : State) (a : Assist) (body : List Byte) : Option (List (Nat × Nat)) :=
  let l := (List.range (natAt body 0 4)).map (fun i => (natAt body (4 + 8 * i) 4 % 2 ^ 23, natAt body (8 + 8 * i) 4))
  let m := l.filterMap (fun x => match (s.workCores (unpackField a.req)).find? (fun k =>
      packedCore ((s.core k).placeId.getD k) = x.1 ∧ (s.edition (s.core k).edition).partition = a.partition), unpackKey x.2 with
    | some k, some d => if s.coreFree d then some (k, d) else none
    | _, _ => none)
  if l ≠ [] ∧ m.length = l.length ∧ (m.map Prod.fst).Nodup ∧ (m.map Prod.snd).Nodup then some m else none

/-- R396: a placement repair answer: one relocation entry, the failed core's work to a core that is free; for a lost field one for
each core that moves (R398). -/
def State.repairAnswer (s : State) (a : Assist) (body : List Byte) : Option State :=
  if a.verdict = 2 then (s.fieldEntries a body).map (fun l => l.foldl (fun (t : State) x => t.rebuildCore x.1 x.2) s)
  else match unpackKey a.req, unpackKey (natAt body 8 4) with
  | some k, some d =>
    if natAt body 0 4 = 1 ∧ natAt body 4 4 % 2 ^ 23 = packedCore ((s.core k).placeId.getD k) ∧ s.coreFree d then
      some (s.repairDecided a (some d))
    else none
  | _, _ => none

/-- Table 11-15, Answer body: what a valid answer does, the assist itself gone. -/
def State.assistAnswer (s : State) (a : Assist) (body : List Byte) : Option State :=
  let n := natAt body 0 4
  let b := natAt body 0 1
  if a.fn = 1 then (if b ≤ 1 then some (s.admitSettled a (decide (b = 0))) else none)
  else if a.fn = 2 then (if a.kept.contains n then some (s.settleDraw a.slot n false) else none)
  else if a.fn = 3 then
    let r := s.req a.req
    if n = noState ∨ (s.gramState r.partition r.desc.grammar.toNat n).isSome then some (s.gramAnswer a n) else none
  else if a.fn = 4 then s.refreshAnswer a (BitVec.ofNat 64 (natAt body 0 8))
  else if a.fn = 5 then (if b ≤ 1 then some (s.replayDecided a.slot (decide (b = 1))) else none)
  else if a.fn = 6 then s.powerAnswer a ((List.range n).map (fun i => BitVec.ofNat 32 (natAt body (4 + 4 * i) 4)))
  else s.repairAnswer a body

/-- Table 11-15: whether the length of an answer body agrees with its function's layout. -/
def answerLengthOk (fn : Nat) (body : List Byte) : Bool :=
  let n := body.length
  if fn = 1 ∨ fn = 5 then decide (n = 1)
  else if fn = 2 ∨ fn = 3 then decide (n = 4)
  else if fn = 4 then decide (n = 8)
  else if fn = 6 then decide (4 ≤ n) && decide (n = 4 + 4 * natAt body 0 4)
  else if fn = 7 then decide (4 ≤ n) && decide (n = 4 + 8 * natAt body 0 4)
  else true

/-- AS_ANSWER (R336): the control node answers an assist: the rules in order. The shards that sub 1 of function 4 asks for come by
`WT_SHARD`, so an answer to it breaks its limits and, having no bound, changes nothing. -/
def execAsAnswer (h : Hdr) (id : Word) (fn : BitVec 8) (body : List Byte) (s : State) : Out :=
  .next (s.command h rowAsAnswer (decide (h.length = 8 + body.length) && answerLengthOk fn.toNat body) (fun s =>
    match s.alaok.assists.find? (fun a => a.id = id ∧ a.partition = h.partition.toNat) with
    | none => .refuse (if s.alaok.expired.contains (id, h.partition.toNat) then stTimeout else stNoSuch) 0 []
    | some a =>
      if a.deadline ≠ 0 ∧ a.deadline.toNat < s.now then .refuse stTimeout 0 []
      else if a.fn ≠ fn.toNat ∨ a.sub ≠ 0 then .refuse stBadParam 0 []
      else match (s.dropAssist id).assistAnswer a body with
        | some t => .run (t.ok h)
        | none => .run (((s.dropAssist id).assistLate a).ok h stBadParam)))

/-- ASSIST_DEADLINE (R336): an assist's deadline passes without a valid answer: the late outcome of its function; during a stop it
waits for the release (R418). -/
def execAssistDeadline (id : Word) (s : State) : Out :=
  .next (match s.alaok.assists.find? (fun a => a.id = id) with
    | none => s
    | some a =>
      if s.powered && !s.stopHolds && decide (a.deadline ≠ 0) && decide (a.deadline.toNat ≤ s.now) then
        (s.expireAssist a).assistLate a
      else s)

/-- R418: the late outcomes of the assists whose deadline passed during a stop. -/
def State.lateAssists (s : State) : State :=
  (s.alaok.assists.filter (fun a => a.deadline ≠ 0 ∧ a.deadline.toNat ≤ s.now)).foldl (fun (t : State) a =>
    (t.expireAssist a).assistLate a) s

end Sys2Proof.Machine
end

