-- ==== Sys2Proof/Machine/CoreAlu.lean ====
section
/-! DEFINITION. The arithmetic instructions of the control core (Table 4-3). -/

namespace Sys2Proof.Machine

/-- ADD (R107): rd = ra + rb. -/
def execAdd (c : CoreRef) (rd ra rb : BitVec 5) (s : State) : Out := .next (s.runCore c (.alu 0 rd ra rb))

/-- SUB (R107): rd = ra - rb. -/
def execSub (c : CoreRef) (rd ra rb : BitVec 5) (s : State) : Out := .next (s.runCore c (.alu 1 rd ra rb))

/-- AND (R107): rd = ra and rb. -/
def execAndOp (c : CoreRef) (rd ra rb : BitVec 5) (s : State) : Out := .next (s.runCore c (.alu 2 rd ra rb))

/-- OR (R107): rd = ra or rb. -/
def execOrOp (c : CoreRef) (rd ra rb : BitVec 5) (s : State) : Out := .next (s.runCore c (.alu 3 rd ra rb))

/-- XOR (R107): rd = ra xor rb. -/
def execXor (c : CoreRef) (rd ra rb : BitVec 5) (s : State) : Out := .next (s.runCore c (.alu 4 rd ra rb))

/-- SLL (R107): rd = ra shifted left by rb[4:0]. -/
def execSll (c : CoreRef) (rd ra rb : BitVec 5) (s : State) : Out := .next (s.runCore c (.alu 5 rd ra rb))

/-- SRL (R107): rd = ra shifted right by rb[4:0]. -/
def execSrl (c : CoreRef) (rd ra rb : BitVec 5) (s : State) : Out := .next (s.runCore c (.alu 6 rd ra rb))

/-- SRA (R107): rd = ra shifted right arithmetically by rb[4:0]. -/
def execSra (c : CoreRef) (rd ra rb : BitVec 5) (s : State) : Out := .next (s.runCore c (.alu 7 rd ra rb))

/-- SLT (R107): rd = 1 if ra < rb signed. -/
def execSlt (c : CoreRef) (rd ra rb : BitVec 5) (s : State) : Out := .next (s.runCore c (.alu 8 rd ra rb))

/-- SLTU (R107): rd = 1 if ra < rb unsigned. -/
def execSltu (c : CoreRef) (rd ra rb : BitVec 5) (s : State) : Out := .next (s.runCore c (.alu 9 rd ra rb))

/-- MUL (R107): rd = low 32 bits of ra times rb. -/
def execMul (c : CoreRef) (rd ra rb : BitVec 5) (s : State) : Out := .next (s.runCore c (.alu 10 rd ra rb))

/-- MULH (R107): high 32 bits, signed. -/
def execMulh (c : CoreRef) (rd ra rb : BitVec 5) (s : State) : Out := .next (s.runCore c (.alu 11 rd ra rb))

/-- MULHU (R107): high 32 bits, unsigned. -/
def execMulhu (c : CoreRef) (rd ra rb : BitVec 5) (s : State) : Out := .next (s.runCore c (.alu 12 rd ra rb))

/-- MIN (R107): signed minimum. -/
def execMin (c : CoreRef) (rd ra rb : BitVec 5) (s : State) : Out := .next (s.runCore c (.alu 13 rd ra rb))

/-- MAX (R107): signed maximum. -/
def execMax (c : CoreRef) (rd ra rb : BitVec 5) (s : State) : Out := .next (s.runCore c (.alu 14 rd ra rb))

/-- ADDI (R107): rd = ra + imm. -/
def execAddi (c : CoreRef) (rd ra : BitVec 5) (imm : BitVec 16) (s : State) : Out := .next (s.runCore c (.addi rd ra imm))

/-- ANDI (R107): rd = ra and imm, zero-extended. -/
def execAndi (c : CoreRef) (rd ra : BitVec 5) (imm : BitVec 16) (s : State) : Out := .next (s.runCore c (.andi rd ra imm))

/-- ORI (R107): rd = ra or imm, zero-extended. -/
def execOri (c : CoreRef) (rd ra : BitVec 5) (imm : BitVec 16) (s : State) : Out := .next (s.runCore c (.ori rd ra imm))

/-- XORI (R107): rd = ra xor imm, zero-extended. -/
def execXori (c : CoreRef) (rd ra : BitVec 5) (imm : BitVec 16) (s : State) : Out := .next (s.runCore c (.xori rd ra imm))

/-- SHI (R107): rd = ra shifted by imm[4:0]. -/
def execShi (c : CoreRef) (rd ra : BitVec 5) (imm : BitVec 16) (s : State) : Out := .next (s.runCore c (.shi rd ra imm))

/-- SLTI (R107): rd = 1 if ra < imm signed. -/
def execSlti (c : CoreRef) (rd ra : BitVec 5) (imm : BitVec 16) (s : State) : Out := .next (s.runCore c (.slti rd ra imm))

/-- LUI (R107): rd = imm << 16. -/
def execLui (c : CoreRef) (rd : BitVec 5) (imm : BitVec 16) (s : State) : Out := .next (s.runCore c (.lui rd imm))

end Sys2Proof.Machine
end

