-- ==== Sys2Proof/Machine/CoreCtl.lean ====
section
/-! DEFINITION. Branches, jumps, control registers, unit issues and the ends of a window of the control core (Table 4-3, R119,
R128). -/

namespace Sys2Proof.Machine

/-- BEQ (R107): branch by off16 words if the condition holds. -/
def execBeq (c : CoreRef) (ra rb : BitVec 5) (off : BitVec 16) (s : State) : Out := .next (s.runCore c (.branch 0 ra rb off))

/-- BNE (R107): branch by off16 words if the condition holds. -/
def execBne (c : CoreRef) (ra rb : BitVec 5) (off : BitVec 16) (s : State) : Out := .next (s.runCore c (.branch 1 ra rb off))

/-- BLT (R107): branch by off16 words if the condition holds. -/
def execBlt (c : CoreRef) (ra rb : BitVec 5) (off : BitVec 16) (s : State) : Out := .next (s.runCore c (.branch 2 ra rb off))

/-- BGE (R107): branch by off16 words if the condition holds. -/
def execBge (c : CoreRef) (ra rb : BitVec 5) (off : BitVec 16) (s : State) : Out := .next (s.runCore c (.branch 3 ra rb off))

/-- BLTU (R107): branch by off16 words if the condition holds. -/
def execBltu (c : CoreRef) (ra rb : BitVec 5) (off : BitVec 16) (s : State) : Out := .next (s.runCore c (.branch 4 ra rb off))

/-- BGEU (R107): branch by off16 words if the condition holds. -/
def execBgeu (c : CoreRef) (ra rb : BitVec 5) (off : BitVec 16) (s : State) : Out := .next (s.runCore c (.branch 5 ra rb off))

/-- JAL (R107): g31 = pc + 4; branch by off26. -/
def execJal (c : CoreRef) (off : BitVec 26) (s : State) : Out := .next (s.runCore c (.jal off))

/-- JALR (R107): rd = pc + 4; pc = (ra + imm) with bits [1:0] cleared. -/
def execJalr (c : CoreRef) (rd ra : BitVec 5) (imm : BitVec 16) (s : State) : Out := .next (s.runCore c (.jalr rd ra imm))

/-- CRD (R107): rd = control register imm. -/
def execCrd (c : CoreRef) (rd : BitVec 5) (imm : BitVec 16) (s : State) : Out := .next (s.runCore c (.crd rd imm))

/-- CWR (R107): control register imm = ra. -/
def execCwr (c : CoreRef) (ra : BitVec 5) (imm : BitVec 16) (s : State) : Out := .next (s.runCore c (.cwr ra imm))

/-- ENG (R107): issue command store entry cs. -/
def execEng (c : CoreRef) (ra rb unit : BitVec 5) (cs : BitVec 9) (s : State) : Out := .next (s.runCore c (.issue 0 ra rb unit cs))

/-- SPR (R107): issue command store entry cs. -/
def execSpr (c : CoreRef) (ra rb unit : BitVec 5) (cs : BitVec 9) (s : State) : Out := .next (s.runCore c (.issue 1 ra rb unit cs))

/-- DMA (R107): issue command store entry cs. -/
def execDma (c : CoreRef) (ra rb unit : BitVec 5) (cs : BitVec 9) (s : State) : Out := .next (s.runCore c (.issue 2 ra rb unit cs))

/-- POST (R107): issue command store entry cs. -/
def execPost (c : CoreRef) (ra rb unit : BitVec 5) (cs : BitVec 9) (s : State) : Out := .next (s.runCore c (.issue 3 ra rb unit cs))

/-- CPOP (R107): pop the oldest completion. -/
def execCpop (c : CoreRef) (rd ra : BitVec 5) (s : State) : Out := .next (s.runCore c (.cpop rd ra))

/-- WAIT (R107): wait for an event in mask imm[1:0]. -/
def execWait (c : CoreRef) (rd : BitVec 5) (imm : BitVec 16) (s : State) : Out := .next (s.runCore c (.wait rd imm))

/-- FENCE (R107): wait until every earlier store is acknowledged. -/
def execFence (c : CoreRef) (s : State) : Out := .next (s.runCore c (.fence))

/-- WEND (R107): end the core's work for the window. -/
def execWend (c : CoreRef) (s : State) : Out := .next (s.runCore c (.wend))

/-- BRK (R107): software breakpoint. -/
def execBrk (c : CoreRef) (s : State) : Out := .next (s.runCore c (.brk))

/-- TIMER_EVENT (R105): a core that waits for the timer event goes on once it is pending. -/
def execTimerEvent (c : CoreRef) (s : State) : Out := .next (if c.ok then s.wakeCore c.key else s)

/-- R119, R128: whether every command of core `k` has completed and every store is acknowledged. -/
def Core.quiet (c : Core) : Bool :=
  c.stores.isEmpty && c.spireQ.isEmpty && c.spireDone.isNone && c.dmaQ.isEmpty && c.dmaDone.isNone
    && c.engines.vals.all (fun e => (e.queue ++ (e.done.map Prod.snd).toList).all (fun m => m.seq.isNone))

/-- R128: the debug report `HALTED` names the core that has halted and drained (log 24). -/
def State.reportHalted (s : State) (k : Nat) : State :=
  let p := s.ownerOf ((s.core k).placeId.getD k)
  s.report opDebugReport (if p < partitionCount then some p else none) 0xFFFFFFFF stHalted 0 0
    (leBytes 4 (packedCore k))

/-- CORE_HALT_DRAINED (R128): once every command of a halting core has completed, the module reports the halt. -/
def execCoreHaltDrained (c : CoreRef) (s : State) : Out :=
  .next (if c.ok ∧ (s.core c.key).mode = .halting ∧ (s.core c.key).quiet then
    (s.updCore c.key (fun v => { v with mode := .halted })).reportHalted c.key else s)

/-- CORE_DONE_CONTRIBUTION (R116, R119): a core that has ended its work, or has faulted, sends its contribution once its
commands have completed and its stores are acknowledged; with a fault it carries the running signature (log 113). -/
def execCoreDoneContribution (c : CoreRef) (s : State) : Out :=
  let v := s.core c.key
  .next (if c.ok ∧ !v.stopped ∧ (v.mode = .ended ∨ v.mode = .faulted) ∧ v.contrib.isNone ∧ v.quiet ∧ !s.plan.edges.any (fun e => e.src = c.key) then
    s.updCore c.key (fun v => { v with
      contrib := some (v.sig, decide (v.mode = .faulted)),
      mode := if v.mode = .ended then .contributed else .faulted }) else s)

end Sys2Proof.Machine
end

