-- ==== Sys2Proof/Machine/CoreMem.lean ====
section
/-! DEFINITION. The loads, stores and command store instructions of the control core (Table 4-3), and the acknowledgement of its
stores (R96). -/

namespace Sys2Proof.Machine

/-- LB (R107): load from the scratchpad. -/
def execLb (c : CoreRef) (rd ra : BitVec 5) (imm : BitVec 16) (s : State) : Out := .next (s.runCore c (.load 0 rd ra imm))

/-- LBU (R107): load from the scratchpad. -/
def execLbu (c : CoreRef) (rd ra : BitVec 5) (imm : BitVec 16) (s : State) : Out := .next (s.runCore c (.load 1 rd ra imm))

/-- LH (R107): load from the scratchpad. -/
def execLh (c : CoreRef) (rd ra : BitVec 5) (imm : BitVec 16) (s : State) : Out := .next (s.runCore c (.load 2 rd ra imm))

/-- LHU (R107): load from the scratchpad. -/
def execLhu (c : CoreRef) (rd ra : BitVec 5) (imm : BitVec 16) (s : State) : Out := .next (s.runCore c (.load 3 rd ra imm))

/-- LW (R107): load from the scratchpad. -/
def execLw (c : CoreRef) (rd ra : BitVec 5) (imm : BitVec 16) (s : State) : Out := .next (s.runCore c (.load 4 rd ra imm))

/-- SB (R107): store to the scratchpad; rd is the source. -/
def execSb (c : CoreRef) (rd ra : BitVec 5) (imm : BitVec 16) (s : State) : Out := .next (s.runCore c (.store 0 rd ra imm))

/-- SH (R107): store to the scratchpad; rd is the source. -/
def execSh (c : CoreRef) (rd ra : BitVec 5) (imm : BitVec 16) (s : State) : Out := .next (s.runCore c (.store 1 rd ra imm))

/-- SW (R107): store to the scratchpad; rd is the source. -/
def execSw (c : CoreRef) (rd ra : BitVec 5) (imm : BitVec 16) (s : State) : Out := .next (s.runCore c (.store 2 rd ra imm))

/-- CST (R107): command store word [ra + imm] = rd. -/
def execCst (c : CoreRef) (rd ra : BitVec 5) (imm : BitVec 16) (s : State) : Out := .next (s.runCore c (.cst rd ra imm))

/-- CLD (R107): rd = command store word [ra + imm]. -/
def execCld (c : CoreRef) (rd ra : BitVec 5) (imm : BitVec 16) (s : State) : Out := .next (s.runCore c (.cld rd ra imm))

/-- SCRATCHPAD_WRITE_ACK (R96): the oldest unacknowledged store of core `c` is acknowledged. -/
def execScratchpadWriteAck (c : CoreRef) (s : State) : Out :=
  .next (if c.ok then s.updCore c.key (fun v => { v with stores := v.stores.drop 1 }) else s)

end Sys2Proof.Machine
end

