-- ==== Sys2Proof/Machine/Stops.lean ====
section
/-! DEFINITION. The digest collector (R410), and the global and immediate stops with the release after them (R413 to R418). -/

namespace Sys2Proof.Machine

/-! The digest collector. -/

/-- R410: the records of a probe that the collector holds, oldest first. -/
def Collector.of (v : Collector) (p n : Nat) : List (List Byte) :=
  (v.recs.filter (fun r => r.1 = p ∧ r.2.1 = n)).map (fun r => r.2.2)

/-- R410: a codeblock of 32 records goes to the probe's ring; those of a probe that is gone, or whose region is, go nowhere. -/
def State.writeDigests (s : State) (p n : Nat) (l : List (List Byte)) : State :=
  let s1 : State := { s with collector := { s.collector with recs := s.collector.recs.filter (fun r => ¬(r.1 = p ∧ r.2.1 = n)) } }
  match (s.part p).probes.find? n with
  | none => s1
  | some q =>
    let i := s.collector.index.find (16 * p + n) 0
    let s2 : State := { s1 with collector := { s1.collector with index := s1.collector.index.put (16 * p + n) (i + 32) } }
    match (s.part p).regions.find? (stackSel q.ring) with
    | none => s2
    | some r => if r.void then s2 else s2.patchRegion r (stackOff q.ring + 64 * (i % q.ringRecords)) l.flatten p

/-- R410: a record arrives: dropped and counted if 1,024 are held; with 32 of its probe a codeblock is written. -/
def State.collect (s : State) (x : Nat × Nat × List Byte) : State :=
  if 1024 ≤ s.collector.recs.length then s.countPart x.1 pcDigestDrops 1
  else
    let s1 : State := { s with collector := { s.collector with recs := s.collector.recs ++ [x] } }
    let l := s1.collector.of x.1 x.2.1
    if 32 ≤ l.length then s1.writeDigests x.1 x.2.1 l else s1

/-- Takes the oldest record off those that travel. -/
def State.collectNext (s : State) : State :=
  match s.collector.waiting with
  | [] => s
  | x :: rest => ({ s with collector := { s.collector with waiting := rest } } : State).collect x

/-- DIGEST_RECORD (R410): a digest record reaches the collector. -/
def execDigestRecord (s : State) : Out := .next (if s.powered && !s.gateStopped then s.collectNext else s)

/-- R410: a padding record. -/
def padRecord : List Byte := List.replicate 14 0 ++ [0xFF] ++ List.replicate 49 0

/-- R410: at a global stop what travels arrives, and each probe's last codeblock is padded and written. -/
def State.flushDigests (s : State) : State :=
  let s1 := s.collector.waiting.foldl (fun (t : State) _ => t.collectNext) s
  let probes := (s1.collector.recs.map (fun r => (r.1, r.2.1))).eraseDups
  probes.foldl (fun (t : State) x =>
    let l := t.collector.of x.1 x.2
    t.writeDigests x.1 x.2 (l ++ List.replicate (32 - l.length) padRecord)) s1

/-! Reports of a stop. -/

/-- Table 15-8: the cut record for the session of connector `c`. -/
def State.cutRecord (s : State) (c window : Nat) (kind : Nat) : List Byte :=
  let parts := s.sessParts c
  let count := fun (z : ReqState) => (s.reqs.vals.filter (fun r => r.state = z ∧ parts.contains r.partition)).length
  leBytes 8 window ++ leBytes 8 s.stop.stamp.toNat ++ leBytes 1 kind ++ leBytes 3 0
    ++ [ReqState.admitted, .prefill, .running, .siding, .draining, .retired].flatMap (fun z => leBytes 4 (count z))
    ++ leBytes 4 s.stop.replays ++ leBytes 4 (s.conn c).sess.outst.length ++ leBytes 12 0

/-- R413 phase 5: the debug report `STOPPED` to every authenticated session. -/
def State.reportStopped (s : State) : State :=
  [0, 1].foldl (fun (t : State) c =>
    if (t.conn c).sess.isOpen ∧ (t.conn c).sess.level.isSome then
      t.reportOn c opDebugReport none 0xFFFFFFFF stStopped 0 0 (t.cutRecord c t.plan.window 0)
    else t) s

/-- R413, R416: the module is Stopped; the stop is counted. -/
def State.enterStopped (s : State) (kind : StopKind) : State :=
  (({ s with mod := { s.mod with state := .stopped }, stop := { s.stop with kind := kind, cmds := [] } } :
    State).countModule mcStops 1).dimAll

/-- The final replies that a stop owes, each with its session's body. -/
def State.stopReplies (s : State) (body : State → Nat → List Byte) : State :=
  s.stop.cmds.foldl (fun (t : State) x => t.finish x.1 x.2 stOk 0 none (body t ((t.owedOn x.1 x.2).getD x.1))) s

/-! Global stop. -/

/-- DB_STOP (R413, R418): a stop at the next boundary; while Stopped it has no further effect. -/
def execDbStop (h : Hdr) (s : State) : Out :=
  .next (s.command h rowDbStop (h.length = 0) (fun s =>
    if s.mod.state = .stopped then .run (s.ok h)
    else .run { s.interim h stAccepted with stop := { s.stop with
      kind := if s.stop.kind = .none then .pending else s.stop.kind, cmds := s.stop.cmds ++ [(h.conn, h.cmdTag)] } }))

/-- STOP_SETTLE_DONE (R413 phases 3 to 5): the replays already started have finished: trace buffers freeze, the digest collector
flushes, and the cut is reported. -/
def execStopSettleDone (s : State) : Out :=
  .next (if s.powered && decide (s.stop.kind = .settling) && s.plan.replays.all (fun q => q.returned) then
    let s1 := ({ s with fields := s.fields.mapVals (fun _ v => { v with trace := { v.trace with frozen := true } }) } :
      State).flushDigests
    (s1.reportStopped.stopReplies (fun _ _ => [])).enterStopped .globalStop
  else s)

/-! Immediate stop. -/

/-- DB_STOP_NOW (R416, R418): the stop is broadcast to every field at once; a global stop that has not completed is part of it. -/
def execDbStopNow (h : Hdr) (s : State) : Out :=
  .next (s.command h rowDbStopNow (h.length = 0) (fun s =>
    if s.mod.state = .stopped then .run (s.ok h)
    else
      let s1 := s.interim h stAccepted
      if s.stop.kind = .nowSpreading then .run { s1 with stop := { s1.stop with cmds := s1.stop.cmds ++ [(h.conn, h.cmdTag)] } }
      else .run { s1 with
        fields := s1.fields.mapVals (fun _ v => { v with stopArrived := false, snap := none })
        stop := { s1.stop with
          kind := .nowSpreading, nowBase := s1.stop.kind, cmds := s1.stop.cmds ++ [(h.conn, h.cmdTag)]
          stamp := if s1.stop.kind = .settling then s1.stop.stamp else s1.stamp } }))

/-- STOP_NOW_ARRIVAL (R416): the stop reaches a field: its control cores stop before their next instruction, its units hold their
queues and its station forwards nothing. -/
def execStopNowArrival (f : Nat) (s : State) : Out :=
  .next (if s.powered && decide (s.stop.kind = .nowSpreading) && fieldExists f && !(s.field f).stopArrived then
    (s.overCores f coresPerField (fun t k => t.updCore k (fun c => { c with stopped := true }))).updField f (fun v => { v with
      stopArrived := true })
  else s)

/-- R416: whether every unit of a core is quiet: no completed command still has its completion to hand over. -/
def Core.unitsQuiet (c : Core) : Bool :=
  c.spireDone.isNone && c.dmaDone.isNone && c.engines.vals.all (fun e => e.done.isNone)

/-- Table 15-9: commands held in the queues of a core's units. -/
def Core.queued (c : Core) : Nat := (c.engines.vals.map (fun e => e.queue.length)).sum + c.spireQ.length + c.dmaQ.length

/-- Table 15-9, `state`: 0 working, 1 done report sent, 2 failed, isolated or outside service, 3 asleep. -/
def State.snapState (s : State) (f : Nat) : Nat :=
  let v := s.field f
  if v.role ≠ .service ∨ v.lost ∨ v.fenced ∨ v.power.iso ≠ .none ∨ !s.powered then 2
  else if v.sleep ≠ .lit then 3
  else if s.plan.awaiting.contains f then 0 else 1

/-- R416, Table 15-9: the snapshot of a field; how many flits its platforms hold, and in how many packets other traffic than hand-offs
and reductions crossed its links, are free values. -/
def State.snapshot (s : State) (f : Nat) : Snapshot :=
  let v := s.field f
  let cores := ((List.range coresPerField).map (coreKey f)).map s.core
  let n := fun (p : Core → Bool) => (cores.filter p).length
  { state := s.snapState f, atWend := n (fun c => decide (c.mode = .ended ∨ c.mode = .contributed))
    halted := n (fun c => decide (c.mode = .halted ∨ c.mode = .halting)), window := BitVec.ofNat 64 v.lastWindow, stamp := s.stamp
    links := (List.range 8).map (fun i => v.links.find i 0 + BitVec.ofNat 32 (Config.otherPackets (s.free + 1 + i))), platform := Config.platformFlits s.free % 2 ^ 16
    queued := (cores.map Core.queued).sum }

/-- Table 15-9: the bytes of a snapshot. -/
def Snapshot.bytes (x : Snapshot) (f : Nat) : List Byte :=
  leBytes 1 f ++ leBytes 1 x.state ++ leBytes 1 x.atWend ++ leBytes 1 x.halted ++ leBytes 4 0 ++ leBytes 8 x.window.toNat
    ++ leBytes 8 x.stamp.toNat ++ x.links.flatMap (fun w => leBytes 4 w.toNat) ++ leBytes 2 x.platform ++ leBytes 2 x.queued
    ++ leBytes 4 0

/-- R416: the body of the final reply of an immediate stop. -/
def State.stopNowBody (s : State) (c : Nat) : List Byte :=
  s.cutRecord c (if s.stop.nowBase = .settling then s.plan.window else s.plan.window - 1) 1
    ++ allFields.flatMap (fun f => ((s.field f).snap.getD {}).bytes f)

/-- FIELD_SNAPSHOT_LATCH (R416): every unit of a stopped field is quiet: it latches its snapshot; with the last field the module is
Stopped and the replies go out. -/
def execFieldSnapshotLatch (f : Nat) (s : State) : Out :=
  let v := s.field f
  .next (if s.powered && decide (s.stop.kind = .nowSpreading) && fieldExists f && v.stopArrived && v.snap.isNone
      && ((List.range coresPerField).map (coreKey f)).all (fun k => (s.core k).unitsQuiet) then
    let s1 : State := { s.updField f (fun v => { v with snap := some (s.snapshot f) }) with free := s.free + 9 }
    if allFields.all (fun g => (s1.field g).snap.isSome) then
      (s1.stopReplies State.stopNowBody).enterStopped .nowStop
    else s1
  else s)

/-! The release after a stop. -/

/-- R413 phase 3, R415: the tokens drawn by replays that finished during the stop, and the visits that the control node has settled,
are delivered with the release. -/
def State.deliverHeld (s : State) : State :=
  let drawn := s.plan.slots.filter (fun x => (s.edition x.edition).sections ≤ x.sect)
  let s1 := ({ s with plan := { s.plan with slots := drawn } } : State).deliverWindow
  let rest := s.plan.slots.filter (fun x => !decide ((s.edition x.edition).sections ≤ x.sect)
    && decide ((s1.req x.req).gen = x.gen) && decide ((s1.req x.req).state ≠ .free ∧ (s1.req x.req).state ≠ .retired))
  { s1 with plan := { s1.plan with slots := rest ++ s1.plan.slots } }

/-- R415: the deadlines that passed during a stop act. -/
def State.lateDeadlines (s : State) (retire : Nat → State → State) : State :=
  (s.reqs.keys.filter s.deadlineDue).foldl (fun (t : State) i => t.deadlinePassed i (retire i)) s

/-- R383, R415: the requests whose end waited through a stop. -/
def State.actRetires (s : State) : State :=
  let ends : Deferred → Bool := fun d => match d with
    | .retire _ _ _ => true
    | _ => false
  (s.mod.deferred.filter ends).foldl (fun (t : State) d => t.actDeferred d)
    { s with mod := { s.mod with deferred := s.mod.deferred.filter (fun d => !ends d) } }

/-- R415: after a global stop: the module replans, what waited acts, and the release of n + 1 goes out. -/
def State.goGlobal (s : State) : State :=
  let n := s.nextWindow
  let s1 : State := { s with
    mod := { s.mod with state := .inService }, stop := {}
    plan := { s.plan with replays := s.plan.replays.map (fun q => if q.returned then { q with due := n } else q) } }
  let s2 := (s1.blameAll (fun _ _ => true) 0x09).lateAssists
  let s3 := s2.deliverHeld.actRetires.lateDeadlines (fun i t => t.retireDeferred i (t.req i).gen stDeadline)
  (s3.replan.replanGrid).releaseWindow true

/-- A timebase value moved back by `n` ns. -/
def laterBy (n : Nat) (t : U64) : U64 := t + BitVec.ofNat 64 n

/-- R417: after an immediate stop: every field goes on where it stopped, with the planned boundary moved back by the time stopped, and
the module replans (R415). -/
def State.goNow (s : State) : State :=
  let n := s.since s.stop.stamp
  let s1 : State := { s with
    mod := { s.mod with state := .inService }
    stop := { kind := if s.stop.nowBase = .pending then .none else s.stop.nowBase }
    plan := { s.plan with tNext := laterBy n s.plan.tNext, holdFrom := s.plan.holdFrom.map (laterBy n) }
    fields := s.fields.mapVals (fun _ v => { v with stopArrived := false, snap := none, hungFrom := s.stamp })
    cores := s.cores.mapVals (fun _ c => { c with stopped := false }) }
  let s2 := (s1.blameAll (fun _ _ => true) 0x09).lateAssists
  ((s2.lateDeadlines (fun i t => t.defer (.retire i (t.req i).gen stDeadline))).wakeAll s.plan.awaiting).replan

/-- DB_GO (R415, R417): ends a stop. -/
def execDbGo (h : Hdr) (s : State) : Out :=
  .next (s.command h rowDbGo (h.length = 0) (fun s =>
    if s.mod.state ≠ .stopped then .refuse stBadState 0 []
    else if s.stop.kind = .nowStop ∧ s.stop.nowBase = .settling then
      let t := s.goNow
      .run (t.goGlobal.ok h)
    else if s.stop.kind = .nowStop then .run (s.goNow.ok h)
    else .run (s.goGlobal.ok h)))

end Sys2Proof.Machine
end

