-- ==== Sys2Proof/Machine/Debug.lean ====
section
/-! DEFINITION. The debug commands on cores, trace buffers and digest probes (R126 to R129, R408, R411, R412). -/

namespace Sys2Proof.Machine

/-- R322 step 4: a command that is refused with `DENIED` where `denied` says so, which no level-0 session is. -/
def CmdRow.unless (r : CmdRow) (denied : Bool) : CmdRow := if denied then { r with right := .level0 } else r

/-- R176, R340: whether a session may not touch a core for the partition of the header: no command touches a core of the ledger, and
below level 0 the partition must own it. -/
def State.coreDenied (s : State) (h : Hdr) (k : Nat) : Bool :=
  s.ledgerCore k || !s.isLevel0 h.conn && decide (s.ownerOf ((s.core k).placeId.getD k) ≠ h.partition.toNat)

/-- R354, R412: whether a session may not configure or clear the trace buffer of a field: below level 0 its partitions must own every
placed core of the field, one that the core map gives away too. -/
def State.fieldDenied (s : State) (c f : Nat) : Bool :=
  !s.isLevel0 c && (s.mod.coreMap.entries.any (fun x =>
      decide (s.physOf x.1 / coresPerField = f) && decide (x.2 < partitionCount) && !s.sessOwns c x.2)
    || !((List.range coresPerField).map (coreKey f)).all (fun k => match (s.core k).placeId with
      | some p => s.sessOwns c (s.ownerOf p)
      | none => true))

/-- R126, R127: a breakpoint register as it is written: reserved bits 0, `halt` only where debug is granted. -/
def bpWritten (grants : Bool) (v : Word) : Word := v &&& (if grants then 0xC000FFFC else 0x8000FFFC)

/-- R126, R127: the same of `wp_ctl`. -/
def wpWritten (grants : Bool) (v : Word) : BitVec 4 := v.extractLsb' 0 4 &&& (if grants then 0xF else 0xD)

/-- DB_WATCH_SET (R126, R127, R246): write breakpoint and watch registers of a core. -/
def execDbWatchSet (h : Hdr) (c : CoreRef) (w : WatchRegs) (s : State) : Out :=
  .next (s.command h (rowDbWatchSet.unless (c.ok && s.coreDenied h c.key)) true (fun s =>
    if !c.ok then .refuse stNoSuch 0 []
    else if s.ledgerCore c.key then .refuse stDenied 0 []
    else
      let g := s.grantsDebug c.key
      .run ((s.updCore c.key (fun v => { v with
        bp := w.bp.map (bpWritten g), wpLo := w.wpLo, wpHi := w.wpHi, wpCtl := wpWritten g w.wpCtl })).beginWake c.field |>.ok h)))

/-- R128: what a debug read shows of a core: general registers with their poison flags, the program counter, the control registers
that exist, and the completion queue. -/
def State.coreView (s : State) (k : Nat) : List Nat :=
  let c := s.core k
  c.regs.toList.map BitVec.toNat ++ [c.poison.toNat, c.pc.toNat]
    ++ (List.range 0x1C).filterMap (fun n => (s.readCr k n).map BitVec.toNat) ++ c.cpl.flatMap (fun x => [x.1.toNat, x.2.toNat])

/-- DB_CORE_READ (R128, R246, R414): read a halted core, or while Stopped any core. -/
def execDbCoreRead (h : Hdr) (c : CoreRef) (s : State) : Out :=
  .next (s.command h (rowDbCoreRead.unless (c.ok && s.coreDenied h c.key)) true (fun s =>
    if !c.ok then .refuse stNoSuch 0 []
    else if s.ledgerCore c.key then .refuse stDenied 0 []
    else if s.mod.state ≠ .stopped ∧ (s.core c.key).mode ≠ .halted then .refuse stBadState 0 []
    else .run ((s.beginWake c.field).ok h stOk 0 (Config.layout rowDbCoreRead.op (s.coreView c.key)))))

/-- DB_CORE_GO (R129, R246): a halted core goes on, or executes one instruction. -/
def execDbCoreGo (h : Hdr) (c : CoreRef) (step : Bool) (s : State) : Out :=
  .next (s.command h (rowDbCoreGo.unless (c.ok && s.coreDenied h c.key)) true (fun s =>
    if !c.ok then .refuse stNoSuch 0 []
    else if s.ledgerCore c.key then .refuse stDenied 0 []
    else if (s.core c.key).mode ≠ .halted then .refuse stBadState 0 []
    else .run (((s.resumeCore c.key step).beginWake c.field).ok h)))

/-! Trace buffers (R411, R412). -/

/-- Table 4-8a: a trace record of a field, as a session sees it: zeros for a core that is not its own. -/
def State.traceBytes (s : State) (c f : Nat) (r : TraceRec) : List Byte :=
  let k := coreKey f r.core
  if s.isLevel0 c || s.sessOwns c (s.ownerOf ((s.core k).placeId.getD k)) then
    leBytes 8 r.stamp.toNat ++ leBytes 1 r.core ++ leBytes 1 r.kind ++ leBytes 2 r.pc ++ leBytes 4 r.data.toNat
  else List.replicate 16 0

/-- R412: the records from `first` on that are held, with their numbers, at most `count`. -/
def TraceBuf.recordsFrom (b : TraceBuf) (first count : Nat) : List (Nat × TraceRec) :=
  ((((List.range b.recs.length).zip b.recs).map (fun x => (b.oldest + x.1, x.2))).filter (fun x => first ≤ x.1)).take count

/-- R411: in `fill` mode the records up to the last one read are released. -/
def TraceBuf.consume (b : TraceBuf) (l : List (Nat × TraceRec)) : TraceBuf :=
  match l.getLast? with
  | some x => if b.fill then { b with recs := b.recs.drop (x.1 + 1 - b.oldest), oldest := x.1 + 1 } else b
  | none => b

/-- R125, R411: records that wait in the cores of a field go into its buffer as far as it can take them. -/
def State.drainField (s : State) (f : Nat) : State :=
  ((List.range coresPerField).map (coreKey f)).foldl (fun (t : State) k =>
    if (t.core k).traceQ.isEmpty then t
    else
      let d := drainTrace (t.core k).traceQ (t.field f).trace
      (t.updCore k (fun v => { v with traceQ := d.1 })).updField f (fun v => { v with trace := d.2 })) s

/-- DB_TRACE_READ (R246, R412): read trace records of a field. -/
def execDbTraceRead (h : Hdr) (f : Nat) (first count : Nat) (consume : Bool) (s : State) : Out :=
  .next (s.command h rowDbTrace (h.length = 16) (fun s =>
    if !fieldExists f then .refuse stNoSuch 0 []
    else if count = 0 ∨ 2048 < count then .refuse stBadParam 0 []
    else
      let b := (s.field f).trace
      let l := b.recordsFrom first count
      let body := leBytes 8 b.written ++ leBytes 8 b.oldest ++ leBytes 1 b.frozen.toNat ++ leBytes 7 0
        ++ l.flatMap (fun x => s.traceBytes h.conn f x.2)
      let s1 := if consume then (s.updField f (fun v => { v with trace := v.trace.consume l })).drainField f else s
      .run ((s1.beginWake f).ok h stOk 0 body)))

/-- DB_TRACE_CONFIGURE (R246, R411, R412): the mode and freeze flags of a field's trace buffer. -/
def execDbTraceConfigure (h : Hdr) (f : Nat) (fill freezeFault freezeHalt : Bool) (s : State) : Out :=
  .next (s.command h (rowDbTrace.unless (fieldExists f && s.fieldDenied h.conn f)) (h.length = 16) (fun s =>
    if s.mod.state = .outOfService then .refuse stNotInService 0 []
    else if !fieldExists f then .refuse stNoSuch 0 []
    else .run ((s.updField f (fun v => { v with trace := { v.trace with
      fill := fill, freezeFault := freezeFault, freezeHalt := freezeHalt } })).drainField f |>.beginWake f |>.ok h)))

/-- DB_TRACE_CLEAR (R246, R411, R412): clears and unfreezes a field's trace buffer; numbers begin at 0 again. -/
def execDbTraceClear (h : Hdr) (f : Nat) (s : State) : Out :=
  .next (s.command h (rowDbTrace.unless (fieldExists f && s.fieldDenied h.conn f)) (h.length = 16) (fun s =>
    if s.mod.state = .outOfService then .refuse stNotInService 0 []
    else if !fieldExists f then .refuse stNoSuch 0 []
    else .run ((s.updField f (fun v => { v with trace := { v.trace with
      frozen := false, recs := [], written := 0, oldest := 0 } })).drainField f |>.beginWake f |>.ok h)))

/-! Digest probes (R408). -/

/-- R408: whether a probe's ring is refused: not a multiple of 32 records, or not inside a region of selectors 5 to 15. -/
def State.ringBad (s : State) (p : Nat) (q : ProbeParams) : Bool :=
  let n := q.ringRecords.toNat
  let sel := stackSel q.ring.toNat
  decide (n = 0) || decide (n % 32 ≠ 0) || decide (sel < 5) || (match (s.part p).regions.find? sel with
    | some r => r.void || decide (r.size < stackOff q.ring.toNat + 64 * n)
    | none => true)

/-- DB_DIGEST_SET (R408): install a probe at the next boundary. -/
def execDbDigestSet (h : Hdr) (q : ProbeParams) (s : State) : Out :=
  .next (s.command h rowDbDigest (h.length = 32) (fun s =>
    if 15 < q.probe.toNat ∨ 1 < q.kind.toNat ∨ s.ringBad h.partition.toNat q then .refuse stBadParam 0 []
    else if q.kind = 1 ∧ (unpackKey q.core.toNat).isNone then .refuse stNoSuch 0 []
    else s.atBoundary h (.digest h.partition.toNat (some q.probe.toNat) (some q) h.conn h.cmdTag)))

/-- DB_DIGEST_CLEAR (R408): clear a probe at the next boundary. -/
def execDbDigestClear (h : Hdr) (probe : BitVec 8) (s : State) : Out :=
  .next (s.command h rowDbDigest (h.length = 32) (fun s =>
    if 15 < probe.toNat then .refuse stBadParam 0 []
    else s.atBoundary h (.digest h.partition.toNat (some probe.toNat) none h.conn h.cmdTag)))

/-- DB_DIGEST_CLEAR_ALL (R408): clear every probe of the partition at the next boundary. -/
def execDbDigestClearAll (h : Hdr) (s : State) : Out :=
  .next (s.command h rowDbDigest (h.length = 32) (fun s =>
    s.atBoundary h (.digest h.partition.toNat none none h.conn h.cmdTag)))

end Sys2Proof.Machine
end

