-- ==== Sys2Proof/Machine/Manage.lean ====
section
/-! DEFINITION. The management commands: module information, power and policy records, self-tests and reset (R223, R233, R361, R374
to R378). -/

namespace Sys2Proof.Machine

/-- Table 13-4: the bring-up code of a field number; absent positions read 0xFF. -/
def State.fieldCode (s : State) (f : Nat) : Nat := if fieldExists f then (s.field f).code else 0xFF

/-- R361: what the bring-up record names, 0 while it names no failure. -/
def State.failureCode (s : State) : Nat := match s.mod.failure with
  | none => 0
  | some f => Config.unlistedCode 5 (match f with
    | .timebase => 0 | .firmware => 1 | .ledger => 2 | .gateField => 3 | .stackSet => 4 | .fieldCount => 5 | .factory => 6)

/-- MG_INFO (R361, R399): the field codes, then the module's state, bring-up record, which names the gate field where the ledger recorded
its isolation, roundhouse and editions. -/
def execMgInfo (h : Hdr) (s : State) : Out :=
  .next (s.command h rowMgInfo (h.length = 0) (fun s =>
    let eds := s.editions.entries.filter (fun (e : Nat × Edition) => e.2.state ≠ .free)
    .run (s.ok h stOk 0 ((List.range 100).flatMap (fun f => leBytes 1 (s.fieldCode f))
      ++ Config.layout rowMgInfo.op ([s.mod.state.code, s.mod.phase, s.failureCode, s.mod.gateIsolated.toNat, s.roundhouse.length] ++ s.roundhouse
        ++ eds.flatMap (fun e => [e.1, e.2.partition, e.2.state.code]))))))

/-- MG_POWER_SET (R223): write the module power record; the budget changes at once. -/
def execMgPowerSet (h : Hdr) (power array : Word) (rho : BitVec 16) (s : State) : Out :=
  .next (s.command h rowMgPowerSet (h.length = 16) (fun s =>
    if power.toNat < 17000 ∨ 27000 < power.toNat ∨ array.toNat < 2000 ∨ 12000 < array.toNat ∨ rho.toNat < 5 ∨ 40 < rho.toNat then
      .refuse stBadParam 0 []
    else .run (({ s with
        budget := { s.budget with powerLimit := power.toNat, arrayLimit := array.toNat, rhoPlan := rho.toNat } } : State).ok h)))

/-- MG_POWER_GET (R223): the power record, then grants and steps. -/
def execMgPowerGet (h : Hdr) (s : State) : Out :=
  .next (s.command h rowMgPowerGet (h.length = 0) (fun s =>
    let b := s.budget
    .run (s.ok h stOk 0 (leBytes 4 b.powerLimit ++ leBytes 4 b.arrayLimit ++ leBytes 2 b.rhoPlan ++ leBytes 6 0
      ++ Config.layout rowMgPowerGet.op (s.serviceFields.flatMap (fun f => [f, (s.power f).grant, (s.power f).step]))))))

/-- MG_POLICY_SET (R233): write the partition's power policy record, in force from the next boundary. -/
def execMgPolicySet (h : Hdr) (mode depth : BitVec 8) (coldMin : Word) (s : State) : Out :=
  let host := decide (mode = 1)
  .next (s.command h rowMgPolicySet (h.length = 16) (fun s =>
    let p := h.partition.toNat
    if 1 < mode.toNat ∨ 3 < depth.toNat ∨ coldMin = 0 ∨ 3600000 < coldMin.toNat then .refuse stBadParam 0 []
    else .run ((s.nextBoundary (.policy p host depth.toNat coldMin.toNat)).ok h)) (if host then 0x0400 else 0) (if host then 0x0200 else 0))

/-! Self-tests (R375 to R378). -/

/-- Table 13-7: whether the target of a scope exists (R8). -/
def SelfTestParams.targetOk (scope target : Nat) : Bool :=
  if scope = 0 then true
  else if scope = 1 then fieldExists (unpackField target)
  else (unpackKey target).isSome && (decide (scope = 2) || decide (unpackEngine target < enginesPerCore))

/-- Table 13-7: the units of each kind that a test mask covers in a scope: fields, cores, engines and arrays. -/
def testUnits (scope target tests : Nat) : List Nat :=
  let fields := if scope = 0 then allFields else [unpackField target]
  let cores := fields.flatMap (fun f => if scope ≤ 1 then (List.range coresPerField).map (coreKey f) else [coreKey f (unpackCore target)])
  let engines := cores.flatMap (fun k =>
    (if scope ≤ 2 then List.range enginesPerCore else [unpackEngine target]).map (fun e => (k, e)))
  let arrays := engines.flatMap (fun x =>
    (if scope ≤ 3 then List.range arraysPerEngine else [unpackArray target]).map (fun a => packedArray x.1 x.2 a))
  (if tests / 64 % 8 ≠ 0 ∧ scope ≤ 1 then fields.map (fun f => f * 2 ^ 15) else [])
    ++ (if tests / 8 % 8 ≠ 0 ∧ scope ≤ 2 then cores.map packedCore else [])
    ++ (if bitAt tests 2 ∧ scope ≤ 3 then engines.map (fun x => packedEngine x.1 x.2) else [])
    ++ (if tests % 4 ≠ 0 then arrays else [])

/-- MG_SELFTEST (R375): schedule self-tests; at most 4 are in progress, and none out of service. -/
def execMgSelftest (h : Hdr) (p : SelfTestParams) (s : State) : Out :=
  .next (s.command h rowMgSelftest (h.length = 16) (fun s =>
    if !s.inService then .refuse stBadState 0 []
    else if 4 < p.scope.toNat then .refuse stBadParam 0 []
    else if !SelfTestParams.targetOk p.scope.toNat p.target.toNat then .refuse stNoSuch 0 []
    else if 4 ≤ s.mod.tests.length then .refuse stBusy 0 []
    else
      let t : SelfTest := { conn := h.conn, cmdTag := h.cmdTag, scope := p.scope.toNat, tests := p.tests, idleOnly := p.idle
                            stopAt := p.stopAt, units := testUnits p.scope.toNat p.target.toNat p.tests.toNat }
      .run { s.interim h stAccepted with mod := { s.mod with tests := s.mod.tests ++ [t] } }))

/-- R376, Table 6-4: what a failed test does: an array is retired; an engine or a core that holds work is taken out of service, any
other marked failed. The record's kind, for which Table 14-6 has no row, is a free value. -/
def State.testFailed (s : State) (addr test : Nat) : State :=
  let kind := Config.unlistedCode 4 test
  match unpackKey addr with
  | none => s
  | some k =>
    let e := unpackEngine addr
    let used := (decide ((s.core k).edition ≠ 0) && (s.core k).placeId.isSome) || (s.buildWork k).isSome
    if test ≤ 1 then
      let s1 := s.faultCore k addr kind 3 .array (leBytes 1 test)
      if s1.arrayWaits k e (unpackArray addr) jwState then s1 else s1.journalArray k e (unpackArray addr) jwState 1
    else if test = 2 then
      let s1 := s.faultCore k addr kind 3 .engine (leBytes 1 test)
      if used ∧ (s.core k).emap.contains e then s1.takeOut addr .engine else s1.updEngine k e (fun v => { v with failed := true })
    else if test ≤ 5 then
      let s1 := s.faultCore k addr kind 3 (if test = 3 then .spire else if test = 4 then .controlCore else .core) (leBytes 1 test)
      if used then s1.takeOut addr .core
      else (s1.updCore k (fun v => { v with good := false })).journal { kind := jkCore, key := k, what := jwCoreState, val := 1 }
    else s.faultField (unpackField addr) kind 0 .field (leBytes 1 test)

/-- R376: new matching trims of an array, in force from the next release. -/
def State.matchArray (s : State) (addr : Nat) : State :=
  match unpackKey addr with
  | none => s
  | some k =>
    { s.updArray k (unpackEngine addr) (unpackArray addr) (fun v => { v with calNext := some s.free }) with
      free := s.free + 2 * arrayColumns + 16 }

/-- R164, R376: a pass of an array's trim sample. -/
def State.testSample (s : State) (addr : Nat) : State :=
  match unpackKey addr with
  | none => s
  | some k => s.samplePassDone k (unpackEngine addr) (unpackArray addr)

/-- R164: the array of an address. -/
def State.arrayAt (s : State) (addr : Nat) : Array := s.array ((unpackKey addr).getD 0) (unpackEngine addr) (unpackArray addr)

/-- R376: the passed monitor test of a field leaves new scales at its present setpoint, in force from the next release; the totals they come from are free. -/
def State.testPassedField (s : State) (f : Nat) (tests : BitVec 16) : State :=
  if tests.getLsbD 6 then
    { s.updField f (fun v => { v with monitors := (List.range 16).foldl (fun (m : Map Monitor) i =>
        let x := m.find i {}
        m.put i { x with scaleNext := some (v.power.setpoint, Config.monitorScale (s.free + i) % 2 ^ 16) }) v.monitors }) with
      free := s.free + 16 }
  else s

/-- R375: whether a unit holds placed work: an engine or array of a mapped engine of a placed core, a placed core, a field with one. -/
def State.holdsWork (s : State) (u test : Nat) : Bool :=
  let used := fun (k : Nat) => (decide ((s.core k).edition ≠ 0) && (s.core k).placeId.isSome) || (s.buildWork k).isSome
  if test ≤ 2 then used ((unpackKey u).getD 0) && (s.core ((unpackKey u).getD 0)).emap.contains (unpackEngine u)
  else if test ≤ 5 then used ((unpackKey u).getD 0)
  else (List.range coresPerField).any (fun c => used (coreKey (unpackField u) c))

/-- Table 13-7: whether a unit is out of service for a test. -/
def State.unitOut (s : State) (u test : Nat) : Bool :=
  let c := s.core ((unpackKey u).getD 0)
  let v := c.engine (unpackEngine u)
  !s.fieldOk (unpackField u) || (decide (test ≤ 5) && !c.good) || (decide (test ≤ 2) && v.failed)
    || (decide (test ≤ 1) && decide ((v.array (unpackArray u)).state = 1 ∨ (v.array (unpackArray u)).state = 2))

/-- R375, R377, Table 13-8: the result of a unit on which a test does not run: out of service, or skipped (work in `idle` mode; the
control core of a core in debug halt). -/
def State.noTest (s : State) (t : SelfTest) (u test : Nat) : Option Nat :=
  if s.unitOut u test then some 4
  else if t.idleOnly && s.holdsWork u test then some 2
  else if test = 4 ∧ (s.core ((unpackKey u).getD 0)).mode = .halted then some 2
  else none

/-- Table 13-8: whether the test of an engine or array waits: a refresh of the engine is on, or rows of it are to be re-verified. -/
def State.testWaits (s : State) (u test : Nat) : Bool :=
  let v := s.engine ((unpackKey u).getD 0) (unpackEngine u)
  decide (test ≤ 2) && (v.refresh.isSome || (if test = 2 then v.arrays.vals.any (fun a => !a.settled)
    else !(v.array (unpackArray u)).settled))

/-- The results of a self-test: those given, and those of the units on which a test does not run. -/
def State.testResults (s : State) (t : SelfTest) (l : List (Nat × Nat × Nat)) : List (Nat × Nat × Nat) :=
  l ++ (t.pairs.filter (fun x => !l.any (fun y => y.1 = x.1 ∧ y.2.1 = x.2))).filterMap (fun x =>
    (s.noTest t x.1 x.2).map (fun r => (x.1, x.2, r)))

/-- Whether the results of a self-test are results of it: failures, and tests given up once `until` is over, of units it covers; and no
test that still waits has a result before. -/
def State.resultsFit (s : State) (t : SelfTest) (l : List (Nat × Nat × Nat)) : Bool :=
  l.all (fun x => t.pairs.contains (x.1, x.2.1) && (s.noTest t x.1 x.2.1).isNone
      && (decide (x.2.2 = 1) || (decide (x.2.2 = 3) && decide (t.stopAt.toNat ≤ s.now))))
    && t.pairs.all (fun x => !s.testWaits x.1 x.2 || (s.noTest t x.1 x.2).isSome || l.contains (x.1, x.2, 3))

/-- R376: the units on which a test of the mask has run, and those that passed it; `l` are the results of the others. -/
def SelfTest.ran (t : SelfTest) (l : List (Nat × Nat × Nat)) (test : Nat) : List Nat :=
  ((t.pairs.filter (fun x => x.2 = test)).map Prod.fst).filter (fun u => !l.any (fun x => x.1 = u ∧ x.2.1 = test ∧ x.2.2 ≠ 1))
def SelfTest.passed (t : SelfTest) (l : List (Nat × Nat × Nat)) (test : Nat) : List Nat :=
  (t.ran l test).filter (fun u => !l.any (fun x => x.1 = u ∧ x.2.1 = test))

/-- R39, R376: the array firings of a self-test's first or second pass, (address, firings): 256 for a pass of a trim sample, 256 for
segment matching (R372 step 3), and those of an engine test. -/
def SelfTest.firings (t : SelfTest) (l : List (Nat × Nat × Nat)) : List (Nat × Nat) :=
  (t.ran l 0).map (fun u => (u, 256))
    ++ (if t.second then [] else (t.ran l 1).map (fun u => (u, 256)) ++ (t.ran l 2).map (fun u => (u, Config.engineTestFirings u)))

/-- R39, R376: what a self-test still owes in a field for the firings of its pass. -/
def SelfTest.owes (t : SelfTest) (l : List (Nat × Nat × Nat)) (f : Nat) : Nat :=
  (((t.firings l).filter (fun x => unpackField x.1 = f)).map Prod.snd).sum
    - ((t.paid.filter (fun x => x.1 = f)).map Prod.snd).sum

/-- R39, R376: draws what a self-test's pass owes from each field, as far as this window gives it; the second part is the test as it
then stands, the third whether all is paid. -/
def State.payTest (s : State) (t : SelfTest) (l : List (Nat × Nat × Nat)) : State × SelfTest × Bool :=
  allFields.foldl (fun (acc : State × SelfTest × Bool) f =>
    let n := t.owes l f
    if n = 0 then acc
    else
      let q := acc.1.takeQuarter f n
      (if q.2 < n then q.1.countField f fcStallWaits 1 else q.1, { acc.2.1 with paid := acc.2.1.paid ++ [(f, q.2)] },
        acc.2.2 && decide (q.2 = n))) (s, t, true)

/-- R376, R377: a self-test whose firings are paid ends: matching trims and scales of what passed, defects, and the final reply. -/
def State.finishTest (s : State) (t : SelfTest) (l : List (Nat × Nat × Nat)) : State :=
  let failed := l.filter (fun x => x.2.2 = 1)
  let s1 := failed.foldl (fun (u : State) x => u.testFailed x.1 x.2.1) s
  let s2 := (t.passed l 1).foldl (fun (u : State) x => u.matchArray x) s1
  let s3 := (t.passed l 6).foldl (fun (u : State) x => u.testPassedField (unpackField x) t.tests) s2
  s3.finish t.conn t.cmdTag (if failed.isEmpty then stOk else stFault) 0 none (t.body l)

/-- R117, R376: whether a core has work in the window: a slot that fires in its section. -/
def State.coreWorks (s : State) (k : Nat) : Bool := match (s.core k).placeId with
  | none => false
  | some p => s.plan.slots.any (fun x => decide (x.edition = (s.core k).edition) && s.fires x
      && ((s.edition x.edition).sectionPlaces x.sect).contains p)

/-- R376: whether this window has room for a test of a unit: array matching and the control-core test where the core has no work, an
engine or spire test where the unit's queue has a free slot. -/
def State.testFits (s : State) (u test : Nat) : Bool :=
  let k := (unpackKey u).getD 0
  if test = 1 ∨ test = 4 then !s.coreWorks k
  else if test = 2 then decide ((s.engine k (unpackEngine u)).queue.length < 4)
  else if test = 3 then decide ((s.core k).spireQ.length < 4)
  else true

/-- R376: the pairs of a self-test that run; `l` are the results of the others. -/
def SelfTest.running (t : SelfTest) (l : List (Nat × Nat × Nat)) : List (Nat × Nat) :=
  t.pairs.filter (fun x => !l.any (fun y => y.1 = x.1 ∧ y.2.1 = x.2 ∧ y.2.2 ≠ 1))

/-- R376: a self-test with the pairs that this window has room for. -/
def State.testFitted (s : State) (t : SelfTest) (l : List (Nat × Nat × Nat)) : SelfTest :=
  { t with fit := t.fit ++ (t.running l).filter (fun x => !t.fit.contains x && s.testFits x.1 x.2) }

/-- SELFTEST_COMPLETE (R39, R164, R376, R377): every unit of the n-th self-test in progress has a result, or its time is over. It waits
until each of its tests has had a window with room for it; its firings are paid from the held-back credits; a trim sample's first pass is loaded at a release before its second. Then failures are
handled as defects, and the final reply goes out (log 146). -/
def execSelftestComplete (n : Nat) (results : List (Word × BitVec 8 × BitVec 8)) (s : State) : Out :=
  let given := results.map (fun x => (x.1.toNat, x.2.1.toNat, x.2.2.toNat))
  .next (match s.mod.tests[n]? with
    | none => s
    | some t =>
      let l := s.testResults t given
      let put := fun (u : State) (t : SelfTest) => { u with mod := { u.mod with tests := u.mod.tests.set n t } }
      if !(s.inService && !s.stopHolds && s.resultsFit t given) then s
      else if t.second ∧ (t.ran l 0).any (fun u => (s.arrayAt u).samplePass && (s.arrayAt u).shadow.isSome) then s
      else
        let t1 := s.testFitted t l
        let p := s.payTest t1 l
        if !(t.running l).all (fun x => t1.fit.contains x) then put s t1
        else if !p.2.2 then put p.1 p.2.1
        else if t.second || (t.passed l 0).isEmpty then
          let s1 := if t.second then (t.passed l 0).foldl (fun (u : State) x => if (u.arrayAt x).samplePass then u.testSample x else u) p.1
            else p.1
          ({ s1 with mod := { s1.mod with tests := s1.mod.tests.eraseIdx n } } : State).finishTest t l
        else
          put ((t.passed l 0).foldl (fun (u : State) x => u.testSample x) p.1) { t1 with second := true, paid := [] })

/-- MG_RESET (R374, R418): reset at the next boundary; where none comes, or while Stopped, at once. -/
def execMgReset (h : Hdr) (fast skipFill : Bool) (s : State) : Out :=
  .next (s.command h rowMgReset (h.length = 8) (fun s =>
    let s1 := s.interim h stAccepted
    if s.inService && decide (s.stop.kind ≠ .settling) then .run (s1.defer (.reset fast skipFill h.conn h.cmdTag))
    else .run (s1.resetModule fast skipFill h.conn h.cmdTag)))

end Sys2Proof.Machine
end

