-- ==== Sys2Proof/Machine/Health.lean ====
section
/-! DEFINITION. The health commands: the report filter, counters, the repair map, ledger contents, fault records and belfry
registers (R173, R176, R236, R334, R354, R401, R404). -/

namespace Sys2Proof.Machine

/-- HL_CONFIG (R334): the event codes that the session does not want reported. -/
def execHlConfig (h : Hdr) (filter : List (BitVec 8)) (s : State) : Out :=
  .next (s.command h rowHlConfig true (fun s =>
    .run ((s.updSess h.conn (fun v => { v with filter := filter.map BitVec.toNat })).ok h)))

/-- Table 15-1: whether the index of a counter scope exists. -/
def scopeExists (scope index : Nat) : Bool :=
  if scope = 0 then decide (index < partitionCount)
  else if scope = 1 then fieldExists index
  else if scope = 2 then decide (index < stackCount)
  else if scope = 3 then decide (index < portCount)
  else if scope = 4 then true
  else (unpackKey index).isSome && decide (unpackEngine index < enginesPerCore)

/-- HL_COUNTERS (R404, R354): counters latched at the next boundary, or at acceptance where none is declared. -/
def execHlCounters (h : Hdr) (scope : BitVec 8) (index : Word) (first count : Nat) (s : State) : Out :=
  let n := scope.toNat
  let denied := !s.isLevel0 h.conn && (decide (n ≠ 0) || !s.sessOwns h.conn index.toNat)
  .next (s.command h (rowHlCounters.unless denied) (h.length = 16) (fun s =>
    if n ≤ 5 ∧ !scopeExists n index.toNat then .refuse stNoSuch 0 []
    else if 5 < n ∨ count = 0 ∨ 64 < count ∨ counterCount n < first + count then .refuse stBadParam 0 []
    else if s.inService then s.atBoundary h (.counters n index.toNat first count h.conn h.cmdTag)
    else .run (s.ok h stOk 0 (s.counterBody n index.toNat first count))))

/-- R173: the repair map of a core: its state, engine map, and each array's state and column map. -/
def State.repairRecord (s : State) (k : Nat) : List Nat :=
  let c := s.core k
  [packedCore k, c.failed.toNat] ++ c.emap ++ c.engines.entries.flatMap (fun e => e.2.arrays.entries.flatMap (fun a =>
    [e.1, a.1, a.2.state] ++ a.2.colMap.map BitVec.toNat))

/-- HL_REPAIR_MAP (R173, R354): the repair map of the cores that the session sees. -/
def execHlRepairMap (h : Hdr) (s : State) : Out :=
  .next (s.command h rowHlRepairMap true (fun s =>
    let cores := s.cores.keys.filter (fun k => s.isLevel0 h.conn || s.sessOwns h.conn (s.ownerOf ((s.core k).placeId.getD k)))
    .run (s.ok h stOk 0 (Config.layout rowHlRepairMap.op (cores.flatMap s.repairRecord)))))

/-- R176, R163: the ledger's contents that are not secret: the numbers of its header, every record but the factory region, and the
journal since the newest slot. -/
def State.ledgerView (s : State) : List Nat :=
  let l := s.ledger
  [l.snapSeq, l.seqA, l.seqB, l.wallCommit.toNat, l.snapAt.toNat, l.powerCycles, l.poweredS, l.allDue.toNat]
    ++ (s.slotBody.filter (fun r => decide (0x11000 ≤ r.1))).flatMap (fun r => r.1 :: r.2.map BitVec.toNat)
    ++ l.entries.flatMap (fun r => [r.seq, r.kind] ++ (r.payload ++ r.mac).map BitVec.toNat)

/-- HL_LEDGER_READ (R176, R354): the non-secret contents of the ledger. -/
def execHlLedgerRead (h : Hdr) (s : State) : Out :=
  .next (s.command h rowHlLedgerRead true (fun s => .run (s.ok h stOk 0 (Config.layout rowHlLedgerRead.op s.ledgerView))))

/-- R354, Table 12-5a: whether a session sees a fault record: at level 1 one that names a tag of its partitions, or a core they
own. -/
def State.seesFault (s : State) (c : Nat) (r : FaultRec) : Bool :=
  let tagOwn := decide (r.tag ≠ 0xFFFFFFFF) && (s.sessParts c).any (fun p =>
    let e := (s.part p).entry
    decide (e.reqFirst.toNat ≤ tagIndex r.tag) && decide (tagIndex r.tag < e.reqFirst.toNat + e.reqCount.toNat))
  let onCore := decide (r.unitKind = .core ∨ r.unitKind = .engine ∨ r.unitKind = .array ∨ r.unitKind = .controlCore
    ∨ r.unitKind = .spire ∨ r.unitKind = .dma)
  s.isLevel0 c || tagOwn || (onCore && (match unpackKey r.unit with
    | some k => s.sessOwns c (s.ownerOf ((s.core k).placeId.getD k))
    | none => false))

/-- HL_FAULTS (R401, R354): the records from sequence `first` on that the session sees, at most `count` and no more than a
reply holds (R321, log 198). -/
def execHlFaults (h : Hdr) (first count : Nat) (s : State) : Out :=
  .next (s.command h rowHlFaults true (fun s =>
    let l := (s.mod.faults.filter (fun r => decide (first ≤ r.seq) && s.seesFault h.conn r)).take (Nat.min count (maxBody / 128))
    .run (s.ok h stOk 0 (l.flatMap s.recordBytes))))

/-- R236: the value of `blf_sw`: `busy` while a software conversion is queued or running. -/
def Belfry.swWord (b : Belfry) : Word := b.sw ||| (if b.swQueue.isEmpty then 0 else 0x2000)

/-- Table 8-7: the registers of a belfry: `blf_sw`, `blf_sw_res`, `blf_res0` to 15, and the stamp. -/
def Belfry.registers (b : Belfry) : List Nat :=
  [b.swWord.toNat, b.swRes.word.toNat] ++ (List.range 16).map (fun i => (b.res.find i {}).word.toNat)
    ++ [b.stamp.toNat % 2 ^ 32, b.stamp.toNat / 2 ^ 32]

/-- HL_BELFRY (R236, R246): read a field's belfry registers; below level 0 of a field whose placed cores the session's partitions
own. The request wakes the field. -/
def execHlBelfry (h : Hdr) (f : Nat) (s : State) : Out :=
  .next (s.command h (rowHlBelfry.unless (fieldExists f && s.fieldDenied h.conn f)) true (fun s =>
    if !fieldExists f then .refuse stNoSuch 0 []
    else .run ((s.beginWake f).ok h stOk 0 (Config.layout rowHlBelfry.op (s.field f).belfry.registers))))

end Sys2Proof.Machine
end

