-- ==== Sys2Proof/Machine/Dispatch.lean ====
section
/-! DEFINITION. The dispatch: one arm per constructor of Instr. -/

namespace Sys2Proof.Machine

/-- A command's effect on everything but the queue. -/
def exec (i : Instr) (s : State) : Host.Outcome State Fault Refusal :=
  match i with
  | .doneReport f => Sys2Proof.Machine.execDoneReport f s
  | .windowRelease => Sys2Proof.Machine.execWindowRelease s
  | .boundaryHold => Sys2Proof.Machine.execBoundaryHold s
  | .boundaryHoldLimit => Sys2Proof.Machine.execBoundaryHoldLimit s
  | .hungCore c => Sys2Proof.Machine.execHungCore c s
  | .paceMeasurement f counts => Sys2Proof.Machine.execPaceMeasurement f counts s
  | .replan => Sys2Proof.Machine.execReplan s
  | .fieldWake f => Sys2Proof.Machine.execFieldWake f s
  | .darkScrubWake f => Sys2Proof.Machine.execDarkScrubWake f s
  | .creditRefill => Sys2Proof.Machine.execCreditRefill s
  | .grantRebalance => Sys2Proof.Machine.execGrantRebalance s
  | .throttleRecovery f => Sys2Proof.Machine.execThrottleRecovery f s
  | .currentTrigger f => Sys2Proof.Machine.execCurrentTrigger f s
  | .converterFoldBack f => Sys2Proof.Machine.execConverterFoldBack f s
  | .foldBackTimeout f => Sys2Proof.Machine.execFoldBackTimeout f s
  | .shortDetect f amps milli => Sys2Proof.Machine.execShortDetect f amps milli s
  | .isolationConfirm f persists => Sys2Proof.Machine.execIsolationConfirm f persists s
  | .fieldIsolated f => Sys2Proof.Machine.execFieldIsolated f s
  | .stackFailover k => Sys2Proof.Machine.execStackFailover k s
  | .feedPowerOver watts => Sys2Proof.Machine.execFeedPowerOver watts s
  | .feedLow milli => Sys2Proof.Machine.execFeedLow milli s
  | .budgetRestore watts milli => Sys2Proof.Machine.execBudgetRestore watts milli s
  | .belfryRound f sums => Sys2Proof.Machine.execBelfryRound f sums s
  | .hotSensorStep f => Sys2Proof.Machine.execHotSensorStep f s
  | .blfSwStart h f v => Sys2Proof.Machine.execBlfSwStart h f v s
  | .belfryConversionRequest f => Sys2Proof.Machine.execBelfryConversionRequest f s
  | .softwareConversionDone f sum => Sys2Proof.Machine.execSoftwareConversionDone f sum s
  | .urgentConversion f channel avg shift sum => Sys2Proof.Machine.execUrgentConversion f channel avg shift sum s
  | .ageAccumulate => Sys2Proof.Machine.execAgeAccumulate s
  | .refreshOverdue c e a => Sys2Proof.Machine.execRefreshOverdue c e a s
  | .trimSample c e a => Sys2Proof.Machine.execTrimSample c e a s
  | .engineRefresh c e => Sys2Proof.Machine.execEngineRefresh c e s
  | .refreshSettleDone c e bad => Sys2Proof.Machine.execRefreshSettleDone c e bad s
  | .rowReverify c e a row off stuck => Sys2Proof.Machine.execRowReverify c e a row off stuck s
  | .editionReady ed => Sys2Proof.Machine.execEditionReady ed s
  | .forerunnerReload ed layer => Sys2Proof.Machine.execForerunnerReload ed layer s
  | .ledgerCounterCommit => Sys2Proof.Machine.execLedgerCounterCommit s
  | .ledgerSnapshot => Sys2Proof.Machine.execLedgerSnapshot s
  | .scrubPass c line => Sys2Proof.Machine.execScrubPass c line s
  | .lineRemapCopyDone c line => Sys2Proof.Machine.execLineRemapCopyDone c line s
  | .patrol k cb => Sys2Proof.Machine.execPatrol k cb s
  | .granuleRemap k g => Sys2Proof.Machine.execGranuleRemap k g s
  | .regionFillDone p sel => Sys2Proof.Machine.execRegionFillDone p sel s
  | .add c rd ra rb => Sys2Proof.Machine.execAdd c rd ra rb s
  | .sub c rd ra rb => Sys2Proof.Machine.execSub c rd ra rb s
  | .andOp c rd ra rb => Sys2Proof.Machine.execAndOp c rd ra rb s
  | .orOp c rd ra rb => Sys2Proof.Machine.execOrOp c rd ra rb s
  | .xor c rd ra rb => Sys2Proof.Machine.execXor c rd ra rb s
  | .sll c rd ra rb => Sys2Proof.Machine.execSll c rd ra rb s
  | .srl c rd ra rb => Sys2Proof.Machine.execSrl c rd ra rb s
  | .sra c rd ra rb => Sys2Proof.Machine.execSra c rd ra rb s
  | .slt c rd ra rb => Sys2Proof.Machine.execSlt c rd ra rb s
  | .sltu c rd ra rb => Sys2Proof.Machine.execSltu c rd ra rb s
  | .mul c rd ra rb => Sys2Proof.Machine.execMul c rd ra rb s
  | .mulh c rd ra rb => Sys2Proof.Machine.execMulh c rd ra rb s
  | .mulhu c rd ra rb => Sys2Proof.Machine.execMulhu c rd ra rb s
  | .min c rd ra rb => Sys2Proof.Machine.execMin c rd ra rb s
  | .max c rd ra rb => Sys2Proof.Machine.execMax c rd ra rb s
  | .addi c rd ra imm => Sys2Proof.Machine.execAddi c rd ra imm s
  | .andi c rd ra imm => Sys2Proof.Machine.execAndi c rd ra imm s
  | .ori c rd ra imm => Sys2Proof.Machine.execOri c rd ra imm s
  | .xori c rd ra imm => Sys2Proof.Machine.execXori c rd ra imm s
  | .shi c rd ra imm => Sys2Proof.Machine.execShi c rd ra imm s
  | .lui c rd imm => Sys2Proof.Machine.execLui c rd imm s
  | .slti c rd ra imm => Sys2Proof.Machine.execSlti c rd ra imm s
  | .lb c rd ra imm => Sys2Proof.Machine.execLb c rd ra imm s
  | .lbu c rd ra imm => Sys2Proof.Machine.execLbu c rd ra imm s
  | .lh c rd ra imm => Sys2Proof.Machine.execLh c rd ra imm s
  | .lhu c rd ra imm => Sys2Proof.Machine.execLhu c rd ra imm s
  | .lw c rd ra imm => Sys2Proof.Machine.execLw c rd ra imm s
  | .sb c rd ra imm => Sys2Proof.Machine.execSb c rd ra imm s
  | .sh c rd ra imm => Sys2Proof.Machine.execSh c rd ra imm s
  | .sw c rd ra imm => Sys2Proof.Machine.execSw c rd ra imm s
  | .beq c ra rb off => Sys2Proof.Machine.execBeq c ra rb off s
  | .bne c ra rb off => Sys2Proof.Machine.execBne c ra rb off s
  | .blt c ra rb off => Sys2Proof.Machine.execBlt c ra rb off s
  | .bge c ra rb off => Sys2Proof.Machine.execBge c ra rb off s
  | .bltu c ra rb off => Sys2Proof.Machine.execBltu c ra rb off s
  | .bgeu c ra rb off => Sys2Proof.Machine.execBgeu c ra rb off s
  | .jal c off => Sys2Proof.Machine.execJal c off s
  | .jalr c rd ra imm => Sys2Proof.Machine.execJalr c rd ra imm s
  | .crd c rd imm => Sys2Proof.Machine.execCrd c rd imm s
  | .cwr c ra imm => Sys2Proof.Machine.execCwr c ra imm s
  | .cst c rd ra imm => Sys2Proof.Machine.execCst c rd ra imm s
  | .cld c rd ra imm => Sys2Proof.Machine.execCld c rd ra imm s
  | .eng c ra rb unit cs => Sys2Proof.Machine.execEng c ra rb unit cs s
  | .spr c ra rb unit cs => Sys2Proof.Machine.execSpr c ra rb unit cs s
  | .dma c ra rb unit cs => Sys2Proof.Machine.execDma c ra rb unit cs s
  | .post c ra rb unit cs => Sys2Proof.Machine.execPost c ra rb unit cs s
  | .cpop c rd ra => Sys2Proof.Machine.execCpop c rd ra s
  | .wait c rd imm => Sys2Proof.Machine.execWait c rd imm s
  | .fence c => Sys2Proof.Machine.execFence c s
  | .wend c => Sys2Proof.Machine.execWend c s
  | .brk c => Sys2Proof.Machine.execBrk c s
  | .timerEvent c => Sys2Proof.Machine.execTimerEvent c s
  | .coreHaltDrained c => Sys2Proof.Machine.execCoreHaltDrained c s
  | .coreDoneContribution c => Sys2Proof.Machine.execCoreDoneContribution c s
  | .scratchpadWriteAck c => Sys2Proof.Machine.execScratchpadWriteAck c s
  | .fire c e => Sys2Proof.Machine.execFire c e s
  | .progRow c e stuck => Sys2Proof.Machine.execProgRow c e stuck s
  | .readRow c e => Sys2Proof.Machine.execReadRow c e s
  | .refSample c e => Sys2Proof.Machine.execRefSample c e s
  | .loadTrim c e => Sys2Proof.Machine.execLoadTrim c e s
  | .engineCompletion c e => Sys2Proof.Machine.execEngineCompletion c e s
  | .gemm c => Sys2Proof.Machine.execGemm c s
  | .vec c => Sys2Proof.Machine.execVec c s
  | .norm c => Sys2Proof.Machine.execNorm c s
  | .softmax c => Sys2Proof.Machine.execSoftmax c s
  | .topk c => Sys2Proof.Machine.execTopk c s
  | .narrow c => Sys2Proof.Machine.execNarrow c s
  | .spireCompletion c => Sys2Proof.Machine.execSpireCompletion c s
  | .fill c => Sys2Proof.Machine.execFill c s
  | .copy c => Sys2Proof.Machine.execCopy c s
  | .loadOp c => Sys2Proof.Machine.execLoadOp c s
  | .storeOp c => Sys2Proof.Machine.execStoreOp c s
  | .dmaCompletion c => Sys2Proof.Machine.execDmaCompletion c s
  | .marks c => Sys2Proof.Machine.execMarks c s
  | .gate c => Sys2Proof.Machine.execGate c s
  | .ungate c => Sys2Proof.Machine.execUngate c s
  | .sampleMessage c => Sys2Proof.Machine.execSampleMessage c s
  | .deadline req => Sys2Proof.Machine.execDeadline req s
  | .replayReturn slot poisoned => Sys2Proof.Machine.execReplayReturn slot poisoned s
  | .pairDigest n => Sys2Proof.Machine.execPairDigest n s
  | .unitTestDone unit passes => Sys2Proof.Machine.execUnitTestDone unit passes s
  | .unitReplacementDone unit => Sys2Proof.Machine.execUnitReplacementDone unit s
  | .fieldRebuildDone f => Sys2Proof.Machine.execFieldRebuildDone f s
  | .reductionPacket n => Sys2Proof.Machine.execReductionPacket n s
  | .rollingDrainDone p => Sys2Proof.Machine.execRollingDrainDone p s
  | .rollingRewriteDone p => Sys2Proof.Machine.execRollingRewriteDone p s
  | .rollingCloseDone p => Sys2Proof.Machine.execRollingCloseDone p s
  | .ssOpen h o => Sys2Proof.Machine.execSsOpen h o s
  | .ssClose h => Sys2Proof.Machine.execSsClose h s
  | .ssTakeover h => Sys2Proof.Machine.execSsTakeover h s
  | .ssEcho h => Sys2Proof.Machine.execSsEcho h s
  | .ssAuthBegin h level rsa slh => Sys2Proof.Machine.execSsAuthBegin h level rsa slh s
  | .ssAuthProve h rsaSig slhSig => Sys2Proof.Machine.execSsAuthProve h rsaSig slhSig s
  | .ssAuthClaim h rsaSig slhSig => Sys2Proof.Machine.execSsAuthClaim h rsaSig slhSig s
  | .nonceExpiry conn => Sys2Proof.Machine.execNonceExpiry conn s
  | .authLockoutExpiry conn => Sys2Proof.Machine.execAuthLockoutExpiry conn s
  | .mgInfo h => Sys2Proof.Machine.execMgInfo h s
  | .mgPowerSet h power array rho => Sys2Proof.Machine.execMgPowerSet h power array rho s
  | .mgPowerGet h => Sys2Proof.Machine.execMgPowerGet h s
  | .mgPolicySet h mode depth coldMin => Sys2Proof.Machine.execMgPolicySet h mode depth coldMin s
  | .mgSelftest h p => Sys2Proof.Machine.execMgSelftest h p s
  | .selftestComplete n results => Sys2Proof.Machine.execSelftestComplete n results s
  | .mgReset h fast skipFill => Sys2Proof.Machine.execMgReset h fast skipFill s
  | .prSetEntries h first entries => Sys2Proof.Machine.execPrSetEntries h first entries s
  | .prSetCoreMap h first bytes => Sys2Proof.Machine.execPrSetCoreMap h first bytes s
  | .prSetOwnerKey h rsa slh => Sys2Proof.Machine.execPrSetOwnerKey h rsa slh s
  | .prSetFirmware h last commitSvn first bytes => Sys2Proof.Machine.execPrSetFirmware h last commitSvn first bytes s
  | .coreClear c => Sys2Proof.Machine.execCoreClear c s
  | .prGet h op first count => Sys2Proof.Machine.execPrGet h op first count s
  | .prAttest h nonce mask => Sys2Proof.Machine.execPrAttest h nonce mask s
  | .wtOpen h staging manLen bytes => Sys2Proof.Machine.execWtOpen h staging manLen bytes s
  | .wtShard h edition index offset shardLen bytes => Sys2Proof.Machine.execWtShard h edition index offset shardLen bytes s
  | .wtClose h edition => Sys2Proof.Machine.execWtClose h edition s
  | .wtSwitchShadow h edition earliest => Sys2Proof.Machine.execWtSwitchShadow h edition earliest s
  | .wtSwitchRolling h edition how earliest => Sys2Proof.Machine.execWtSwitchRolling h edition how earliest s
  | .wtRetire h edition policy => Sys2Proof.Machine.execWtRetire h edition policy s
  | .wtAbort h edition => Sys2Proof.Machine.execWtAbort h edition s
  | .wtStatus h edition => Sys2Proof.Machine.execWtStatus h edition s
  | .svAdmit h d => Sys2Proof.Machine.execSvAdmit h d s
  | .svKvOpen h d => Sys2Proof.Machine.execSvKvOpen h d s
  | .svCancel h => Sys2Proof.Machine.execSvCancel h s
  | .svFinish h => Sys2Proof.Machine.execSvFinish h s
  | .svPause h => Sys2Proof.Machine.execSvPause h s
  | .svResume h => Sys2Proof.Machine.execSvResume h s
  | .svStatus h => Sys2Proof.Machine.execSvStatus h s
  | .svRingAck h total => Sys2Proof.Machine.execSvRingAck h total s
  | .svClassSet h cls r => Sys2Proof.Machine.execSvClassSet h cls r s
  | .svRole h role => Sys2Proof.Machine.execSvRole h role s
  | .svGrammarLoad h offset => Sys2Proof.Machine.execSvGrammarLoad h offset s
  | .svSteerLoad h index offset => Sys2Proof.Machine.execSvSteerLoad h index offset s
  | .svKvResend h pages => Sys2Proof.Machine.execSvKvResend h pages s
  | .mmCreate h sel fill stackSet size => Sys2Proof.Machine.execMmCreate h sel fill stackSet size s
  | .mmDelete h sel => Sys2Proof.Machine.execMmDelete h sel s
  | .mmInfo h => Sys2Proof.Machine.execMmInfo h s
  | .mmWrite h edition addr bytes => Sys2Proof.Machine.execMmWrite h edition addr bytes s
  | .mmRead h edition addr length => Sys2Proof.Machine.execMmRead h edition addr length s
  | .mmMarkInit h sel => Sys2Proof.Machine.execMmMarkInit h sel s
  | .dbStop h => Sys2Proof.Machine.execDbStop h s
  | .stopSettleDone => Sys2Proof.Machine.execStopSettleDone s
  | .dbStopNow h => Sys2Proof.Machine.execDbStopNow h s
  | .stopNowArrival f => Sys2Proof.Machine.execStopNowArrival f s
  | .fieldSnapshotLatch f => Sys2Proof.Machine.execFieldSnapshotLatch f s
  | .dbGo h => Sys2Proof.Machine.execDbGo h s
  | .dbWatchSet h c w => Sys2Proof.Machine.execDbWatchSet h c w s
  | .dbCoreRead h c => Sys2Proof.Machine.execDbCoreRead h c s
  | .dbCoreGo h c step => Sys2Proof.Machine.execDbCoreGo h c step s
  | .dbTraceRead h f first count consume => Sys2Proof.Machine.execDbTraceRead h f first count consume s
  | .dbTraceConfigure h f fill freezeFault freezeHalt => Sys2Proof.Machine.execDbTraceConfigure h f fill freezeFault freezeHalt s
  | .dbTraceClear h f => Sys2Proof.Machine.execDbTraceClear h f s
  | .dbDigestSet h p => Sys2Proof.Machine.execDbDigestSet h p s
  | .dbDigestClear h probe => Sys2Proof.Machine.execDbDigestClear h probe s
  | .dbDigestClearAll h => Sys2Proof.Machine.execDbDigestClearAll h s
  | .digestRecord => Sys2Proof.Machine.execDigestRecord s
  | .hlConfig h filter => Sys2Proof.Machine.execHlConfig h filter s
  | .hlCounters h scope index first count => Sys2Proof.Machine.execHlCounters h scope index first count s
  | .hlRepairMap h => Sys2Proof.Machine.execHlRepairMap h s
  | .hlLedgerRead h => Sys2Proof.Machine.execHlLedgerRead h s
  | .hlFaults h first count => Sys2Proof.Machine.execHlFaults h first count s
  | .hlBelfry h f => Sys2Proof.Machine.execHlBelfry h f s
  | .fbPortSet h port r => Sys2Proof.Machine.execFbPortSet h port r s
  | .fbRouteSet h r => Sys2Proof.Machine.execFbRouteSet h r s
  | .fbJobCreate h id epoch floor members => Sys2Proof.Machine.execFbJobCreate h id epoch floor members s
  | .fbJobQuery h id => Sys2Proof.Machine.execFbJobQuery h id s
  | .fbJobEnd h id => Sys2Proof.Machine.execFbJobEnd h id s
  | .fbBarrier h job number timeout => Sys2Proof.Machine.execFbBarrier h job number timeout s
  | .fbReduce h p => Sys2Proof.Machine.execFbReduce h p s
  | .fbMcast h p => Sys2Proof.Machine.execFbMcast h p s
  | .fbStatus h => Sys2Proof.Machine.execFbStatus h s
  | .fbTime h module => Sys2Proof.Machine.execFbTime h module s
  | .asModeSet h modes => Sys2Proof.Machine.execAsModeSet h modes s
  | .asAnswer h id fn body => Sys2Proof.Machine.execAsAnswer h id fn body s
  | .assistDeadline id => Sys2Proof.Machine.execAssistDeadline id s
  | .dataFrame conn fr => Sys2Proof.Machine.execDataFrame conn fr s
  | .linkControlFrame conn fr => Sys2Proof.Machine.execLinkControlFrame conn fr s
  | .nakFrame conn stream n => Sys2Proof.Machine.execNakFrame conn stream n s
  | .hello conn lo hi credits => Sys2Proof.Machine.execHello conn lo hi credits s
  | .helloRetry conn => Sys2Proof.Machine.execHelloRetry conn s
  | .idleFrameTimer conn => Sys2Proof.Machine.execIdleFrameTimer conn s
  | .connectorDown conn => Sys2Proof.Machine.execConnectorDown conn s
  | .connectorTrained conn => Sys2Proof.Machine.execConnectorTrained conn s
  | .sessionResumeExpiry conn => Sys2Proof.Machine.execSessionResumeExpiry conn s
  | .dataWrite port p => Sys2Proof.Machine.execDataWrite port p s
  | .dataAcknowledgement port p => Sys2Proof.Machine.execDataAcknowledgement port p s
  | .kvManifest port p => Sys2Proof.Machine.execKvManifest port p s
  | .kvPage port p => Sys2Proof.Machine.execKvPage port p s
  | .kvNakTimer req => Sys2Proof.Machine.execKvNakTimer req s
  | .kvDone port p => Sys2Proof.Machine.execKvDone port p s
  | .kvNak port p => Sys2Proof.Machine.execKvNak port p s
  | .barrierArrive port p => Sys2Proof.Machine.execBarrierArrive port p s
  | .barrierRelease port p => Sys2Proof.Machine.execBarrierRelease port p s
  | .barrierTimeout job => Sys2Proof.Machine.execBarrierTimeout job s
  | .reductionPartial port p => Sys2Proof.Machine.execReductionPartial port p s
  | .reductionResult port p => Sys2Proof.Machine.execReductionResult port p s
  | .multicastData port p => Sys2Proof.Machine.execMulticastData port p s
  | .multicastStatus port p => Sys2Proof.Machine.execMulticastStatus port p s
  | .mcastTimeout job => Sys2Proof.Machine.execMcastTimeout job s
  | .timeProbe port p t2 t3 => Sys2Proof.Machine.execTimeProbe port p t2 t3 s
  | .timeReply port p t4 => Sys2Proof.Machine.execTimeReply port p t4 s
  | .timeMeasurement port exchanges => Sys2Proof.Machine.execTimeMeasurement port exchanges s
  | .laneFailure port lane => Sys2Proof.Machine.execLaneFailure port lane s
  | .portRetrainDone port => Sys2Proof.Machine.execPortRetrainDone port s
  | .portUp port peer offer good => Sys2Proof.Machine.execPortUp port peer offer good s
  | .feedValid => Sys2Proof.Machine.execFeedValid s
  | .hotSwapCharged => Sys2Proof.Machine.execHotSwapCharged s
  | .timebaseLock aOk bOk agree => Sys2Proof.Machine.execTimebaseLock aOk bOk agree s
  | .bootChain goodLedgerFields => Sys2Proof.Machine.execBootChain goodLedgerFields s
  | .fieldBringup f p => Sys2Proof.Machine.execFieldBringup f p s
  | .stackTraining k ok => Sys2Proof.Machine.execStackTraining k ok s
  | .stackFillDone k bad => Sys2Proof.Machine.execStackFillDone k bad s
  | .serviceSet => Sys2Proof.Machine.execServiceSet s
  | .coreRelease => Sys2Proof.Machine.execCoreRelease s
  | .powerFail milli => Sys2Proof.Machine.execPowerFail milli s
  | .powerFailOff => Sys2Proof.Machine.execPowerFailOff s
  | .handoffWrite n => Sys2Proof.Machine.execHandoffWrite n s
  | .ledgerCommit => Sys2Proof.Machine.execLedgerCommit s
  | .ledgerSnapshotDone => Sys2Proof.Machine.execLedgerSnapshotDone s
  | .ledgerCopyRebuilt copyB => Sys2Proof.Machine.execLedgerCopyRebuilt copyB s
  | .fieldAwake f => Sys2Proof.Machine.execFieldAwake f s
  | .sleepEntryDone f => Sys2Proof.Machine.execSleepEntryDone f s
  | .connectorLaneFailure conn lane => Sys2Proof.Machine.execConnectorLaneFailure conn lane s
  | .nodeClockOffset conn exchanges => Sys2Proof.Machine.execNodeClockOffset conn exchanges s
  | .extentCleared k extent => Sys2Proof.Machine.execExtentCleared k extent s

end Sys2Proof.Machine
end

