-- ==== Sys2Proof/Machine/Tick.lean ====
section
/-! DEFINITION. What happens at a tick of the timebase: R15, R362. -/

namespace Sys2Proof.Machine

/-- R15, R362: one nanosecond of the timebase, once it runs (log 6, DESIGN CHOICE: the tick is what the block does when no
command waits). -/
def State.tick (s : State) : State :=
  if s.clock.running then { s with clock := { s.clock with tb := s.clock.tb + 1 } } else s

end Sys2Proof.Machine
end

