-- ==== Sys2Proof/Safety.lean ====
section
/-! DEFINITION. The terms that claims use: what a safe state is, when a command is accepted, and what a reply is. -/

namespace Sys2Proof

/-- R321: the header of a command packet's command; what is no packet has none. -/
def Instr.header : Instr → Option Hdr
  | .blfSwStart h _ _ => some h
  | .ssOpen h _ => some h
  | .ssClose h => some h
  | .ssTakeover h => some h
  | .ssEcho h => some h
  | .ssAuthBegin h _ _ _ => some h
  | .ssAuthProve h _ _ => some h
  | .ssAuthClaim h _ _ => some h
  | .mgInfo h => some h
  | .mgPowerSet h _ _ _ => some h
  | .mgPowerGet h => some h
  | .mgPolicySet h _ _ _ => some h
  | .mgSelftest h _ => some h
  | .mgReset h _ _ => some h
  | .prSetEntries h _ _ => some h
  | .prSetCoreMap h _ _ => some h
  | .prSetOwnerKey h _ _ => some h
  | .prSetFirmware h _ _ _ _ => some h
  | .prGet h _ _ _ => some h
  | .prAttest h _ _ => some h
  | .wtOpen h _ _ _ => some h
  | .wtShard h _ _ _ _ _ => some h
  | .wtClose h _ => some h
  | .wtSwitchShadow h _ _ => some h
  | .wtSwitchRolling h _ _ _ => some h
  | .wtRetire h _ _ => some h
  | .wtAbort h _ => some h
  | .wtStatus h _ => some h
  | .svAdmit h _ => some h
  | .svKvOpen h _ => some h
  | .svCancel h => some h
  | .svFinish h => some h
  | .svPause h => some h
  | .svResume h => some h
  | .svStatus h => some h
  | .svRingAck h _ => some h
  | .svClassSet h _ _ => some h
  | .svRole h _ => some h
  | .svGrammarLoad h _ => some h
  | .svSteerLoad h _ _ => some h
  | .svKvResend h _ => some h
  | .mmCreate h _ _ _ _ => some h
  | .mmDelete h _ => some h
  | .mmInfo h => some h
  | .mmWrite h _ _ _ => some h
  | .mmRead h _ _ _ => some h
  | .mmMarkInit h _ => some h
  | .dbStop h => some h
  | .dbStopNow h => some h
  | .dbGo h => some h
  | .dbWatchSet h _ _ => some h
  | .dbCoreRead h _ => some h
  | .dbCoreGo h _ _ => some h
  | .dbTraceRead h _ _ _ _ => some h
  | .dbTraceConfigure h _ _ _ _ => some h
  | .dbTraceClear h _ => some h
  | .dbDigestSet h _ => some h
  | .dbDigestClear h _ => some h
  | .dbDigestClearAll h => some h
  | .hlConfig h _ => some h
  | .hlCounters h _ _ _ _ => some h
  | .hlRepairMap h => some h
  | .hlLedgerRead h => some h
  | .hlFaults h _ _ => some h
  | .hlBelfry h _ => some h
  | .fbPortSet h _ _ => some h
  | .fbRouteSet h _ => some h
  | .fbJobCreate h _ _ _ _ => some h
  | .fbJobQuery h _ => some h
  | .fbJobEnd h _ => some h
  | .fbBarrier h _ _ _ => some h
  | .fbReduce h _ => some h
  | .fbMcast h _ => some h
  | .fbStatus h => some h
  | .fbTime h _ => some h
  | .asModeSet h _ => some h
  | .asAnswer h _ _ _ => some h
  | .doneReport _ | .windowRelease | .boundaryHold | .boundaryHoldLimit | .hungCore _ | .paceMeasurement _ _
  | .replan | .fieldWake _ | .darkScrubWake _ | .creditRefill | .grantRebalance | .throttleRecovery _
  | .currentTrigger _ | .converterFoldBack _ | .foldBackTimeout _ | .shortDetect _ _ _ | .isolationConfirm _ _
  | .fieldIsolated _ | .stackFailover _ | .feedPowerOver _ | .feedLow _ | .budgetRestore _ _ | .belfryRound _ _
  | .hotSensorStep _ | .belfryConversionRequest _ | .softwareConversionDone _ _ | .urgentConversion _ _ _ _ _
  | .ageAccumulate | .refreshOverdue _ _ _ | .trimSample _ _ _ | .engineRefresh _ _ | .refreshSettleDone _ _ _
  | .rowReverify _ _ _ _ _ _ | .editionReady _ | .forerunnerReload _ _ | .ledgerCounterCommit | .ledgerSnapshot
  | .scrubPass _ _ | .lineRemapCopyDone _ _ | .patrol _ _ | .granuleRemap _ _ | .regionFillDone _ _ | .add _ _ _ _
  | .sub _ _ _ _ | .andOp _ _ _ _ | .orOp _ _ _ _ | .xor _ _ _ _ | .sll _ _ _ _ | .srl _ _ _ _ | .sra _ _ _ _
  | .slt _ _ _ _ | .sltu _ _ _ _ | .mul _ _ _ _ | .mulh _ _ _ _ | .mulhu _ _ _ _ | .min _ _ _ _ | .max _ _ _ _
  | .addi _ _ _ _ | .andi _ _ _ _ | .ori _ _ _ _ | .xori _ _ _ _ | .shi _ _ _ _ | .lui _ _ _ | .slti _ _ _ _
  | .lb _ _ _ _ | .lbu _ _ _ _ | .lh _ _ _ _ | .lhu _ _ _ _ | .lw _ _ _ _ | .sb _ _ _ _ | .sh _ _ _ _ | .sw _ _ _ _
  | .beq _ _ _ _ | .bne _ _ _ _ | .blt _ _ _ _ | .bge _ _ _ _ | .bltu _ _ _ _ | .bgeu _ _ _ _ | .jal _ _
  | .jalr _ _ _ _ | .crd _ _ _ | .cwr _ _ _ | .cst _ _ _ _ | .cld _ _ _ _ | .eng _ _ _ _ _ | .spr _ _ _ _ _
  | .dma _ _ _ _ _ | .post _ _ _ _ _ | .cpop _ _ _ | .wait _ _ _ | .fence _ | .wend _ | .brk _ | .timerEvent _
  | .coreHaltDrained _ | .coreDoneContribution _ | .scratchpadWriteAck _ | .fire _ _ | .progRow _ _ _ | .readRow _ _
  | .refSample _ _ | .loadTrim _ _ | .engineCompletion _ _ | .gemm _ | .vec _ | .norm _ | .softmax _ | .topk _
  | .narrow _ | .spireCompletion _ | .fill _ | .copy _ | .loadOp _ | .storeOp _ | .dmaCompletion _ | .marks _
  | .gate _ | .ungate _ | .sampleMessage _ | .deadline _ | .replayReturn _ _ | .pairDigest _ | .unitTestDone _ _
  | .unitReplacementDone _ | .fieldRebuildDone _ | .reductionPacket _ | .rollingDrainDone _ | .rollingRewriteDone _
  | .rollingCloseDone _ | .nonceExpiry _ | .authLockoutExpiry _ | .selftestComplete _ _ | .coreClear _
  | .stopSettleDone | .stopNowArrival _ | .fieldSnapshotLatch _ | .digestRecord | .assistDeadline _ | .dataFrame _ _
  | .linkControlFrame _ _ | .nakFrame _ _ _ | .hello _ _ _ _ | .helloRetry _ | .idleFrameTimer _ | .connectorDown _
  | .connectorTrained _ | .sessionResumeExpiry _ | .dataWrite _ _ | .dataAcknowledgement _ _ | .kvManifest _ _
  | .kvPage _ _ | .kvNakTimer _ | .kvDone _ _ | .kvNak _ _ | .barrierArrive _ _ | .barrierRelease _ _
  | .barrierTimeout _ | .reductionPartial _ _ | .reductionResult _ _ | .multicastData _ _ | .multicastStatus _ _
  | .mcastTimeout _ | .timeProbe _ _ _ _ | .timeReply _ _ _ | .timeMeasurement _ _ | .laneFailure _ _
  | .portRetrainDone _ | .portUp _ _ _ _ | .feedValid | .hotSwapCharged | .timebaseLock _ _ _ | .bootChain _
  | .fieldBringup _ _ | .stackTraining _ _ | .stackFillDone _ _ | .serviceSet | .coreRelease | .powerFail _
  | .powerFailOff | .handoffWrite _ | .ledgerCommit | .ledgerSnapshotDone | .ledgerCopyRebuilt _ | .fieldAwake _
  | .sleepEntryDone _ | .connectorLaneFailure _ _ | .nodeClockOffset _ _ | .extentCleared _ _ => none

end Sys2Proof

namespace Sys2Proof.Machine

/-- R20, R35: the window length lies in its range, and so does the length planned for the next boundary. -/
def State.windowLegal (s : State) : Prop :=
  500 ≤ s.plan.w ∧ s.plan.w ≤ 65536 ∧ 500 ≤ s.plan.wNext ∧ s.plan.wNext ≤ 65536

/-- Every command that waits has operands that fit their fields and name units that exist. -/
def State.queueFits (s : State) : Prop := ∀ c ∈ s.pending, c.wellFormed = true

/-- R99: a scratchpad's store is canonical, and its remap entries, in force or on their way, are of different lines and
different spare lines. -/
def Scratch.legal (p : Scratch) : Prop :=
  p.mem.wf = true ∧ ((p.remap ++ p.copying ++ p.waiting).map Remap.spare).Nodup
  ∧ ((p.remap ++ p.copying ++ p.waiting).map Remap.line).Nodup

/-- A core's scratchpad and its arrays' levels are canonical. -/
def Core.legal (c : Core) : Prop := c.sp.legal ∧ ∀ e ∈ c.engines.vals, ∀ a ∈ e.arrays.vals, a.levels.wf = true

/-- R273: a stack's store is canonical, and its remap entries are of different granules and different spare granules. -/
def Stack.legal (t : Stack) : Prop :=
  t.mem.wf = true ∧ ((t.remap ++ t.copying ++ t.waiting).map GranMap.spare).Nodup
  ∧ ((t.remap ++ t.copying ++ t.waiting).map GranMap.granule).Nodup

/-- Every memory of the module is in canonical form. -/
def State.memoryLegal (s : State) : Prop := (∀ c ∈ s.cores.vals, c.legal) ∧ ∀ t ∈ s.stackSet.vals, t.legal

/-- What every step keeps. -/
def State.legal (s : State) : Prop := s.queueFits ∧ s.windowLegal ∧ s.memoryLegal

/-- A step that ends in a next state. -/
def State.stepsTo (s t : State) : Prop := step s = .next t

/-- R322: a command's packet arrives and passes the checks 1 to 6. -/
def State.accepts (s : State) (h : Hdr) (r : CmdRow) (lenOk : Bool) (fields : Nat := 0) (link : Nat := 0) : Prop :=
  s.powered = true ∧ (s.conn h.conn).carries = true ∧ (s.takePacket h).checks h r lenOk fields link = none

/-- R322, R323: the state in which an accepted command's own effect begins: its packet taken, the command outstanding. -/
def State.taken (s : State) (h : Hdr) (r : CmdRow) : State := (s.takePacket h).owe h r

/-- R316, R338: a packet waits on a stream of a connector, or has gone and is not yet acknowledged. -/
def State.sent (s : State) (c k : Nat) (p : OutPkt) : Prop :=
  p ∈ ((s.conn c).tx.find k {}).queue ∨ ∃ n, (n, p) ∈ ((s.conn c).tx.find k {}).unacked

/-- R321, R323: the reply to a command accepted in `s`. -/
def State.reply (s : State) (h : Hdr) (r : CmdRow) (status : Nat) (final : Bool := true) (detail : Nat := 0)
    (body : List Byte := []) : OutPkt :=
  { op := r.op, final := final, partition := h.partition.toNat, cmdTag := h.cmdTag, reqTag := h.reqTag, stamp := s.stamp
    status := status, detail := detail, body := body }

/-- The command's final reply with a status has been sent on the replies' stream. -/
def State.replied (t s : State) (h : Hdr) (r : CmdRow) (status : Nat) (detail : Nat := 0) (body : List Byte := []) : Prop :=
  t.sent h.conn 2 (s.reply h r status true detail body)

/-- A command answers a next state, of which `p` holds. -/
def State.gives (s : State) (i : Instr) (p : State → Prop) : Prop := ∃ t, exec i s = .next t ∧ p t

/-- R279, R280, R285, R286, R311: a fabric packet of type `ty` that a port receives and does not discard. -/
def State.hears (s : State) (port ty : Nat) (p : FabPkt) : Prop :=
  s.powered = true ∧ port < 32 ∧ (s.port port).up = true ∧ p.type = ty ∧ (readPkt p).dst = s.moduleId
  ∧ ((s.port port).record.cls = 4 → (readPkt p).src = s.moduleId) ∧ p.version ≠ 0 ∧ p.version ≤ (s.port port).version
  ∧ typeSince ty ≤ p.version ∧ p.payload.length ≤ versionPayload p.version ∧ p.payload.length ≤ lanePayload ty
  ∧ s.pktPartition p < 64

/-! What an instruction of a control core leaves alone. -/

/-- Two states agree on everything but core `k`, and the trace buffers and counters of the fields. -/
structure State.coreFrame (s t : State) (k : Nat) : Prop where
  cores : ∀ j, j ≠ k → t.core j = s.core j
  fields : ∀ f, t.field f = { s.field f with trace := (t.field f).trace, ctr := (t.field f).ctr }
  rest : t = { s with cores := t.cores, fields := t.fields }

/-- R107: core `c` can execute instruction `o` now: it runs, its field is awake, the word at its program counter encodes `o`,
no breakpoint halts it there, and its trace does not make it wait. -/
def State.readyFor (s : State) (c : CoreRef) (o : CoreOp) : Prop :=
  s.coreReady c = true ∧ decodeCore ((s.core c.key).instrAt (s.core c.key).pc.toNat) = some o
  ∧ (s.haltsAt c.key = false ∨ (s.core c.key).passBp = true)
  ∧ ∀ n, s.traceStalls c.key n = false

/-- What stands of core `k` after an instruction that leaves it as `v` with program counter `pc`: a single step ends in the
halt (R129), the trace queue moves on, and all else is `v`. -/
def Core.afterRetire (w v : Core) (pc : Nat) : Prop :=
  ∃ q, w = { v with pc := BitVec.ofNat 16 pc, passBp := false, stepping := false, traceQ := q,
                    mode := if v.stepping = true ∧ v.mode = .running then .halting else v.mode }

/-- A command answers a next state, in which core `c` is `v` with program counter `pc` and nothing else has changed but trace
and counters. -/
def State.retires (s : State) (c : CoreRef) (i : Instr) (v : Core) (pc : Nat) : Prop :=
  ∃ t, exec i s = .next t ∧ (t.core c.key).afterRetire v pc ∧ s.coreFrame t c.key

/-- An access of `n` bytes at `a` whose address is good, in a scratchpad bank that holds no gated byte there and with no byte rewritten
under correction since it was last read. -/
def Core.openAccess (v : Core) (a n : Nat) : Prop :=
  a % n = 0 ∧ a + n ≤ 8388608 ∧ (∀ i, i < n → v.sp.isGated (a + i) = false) ∧ v.sp.rewrote = []

/-- R126: the watch is armed for loads (bit 2) or stores (bit 3), and an access of `n` bytes at `a` touches its range. -/
def Core.watched (v : Core) (bit a n : Nat) : Prop :=
  v.wpCtl.getLsbD 0 = true ∧ v.wpCtl.getLsbD bit = true ∧ ∃ j, j < n ∧ v.wpLo.toNat ≤ a + j ∧ a + j ≤ v.wpHi.toNat

/-- R116: a command answers a next state in which core `c` has faulted with `cause` before the instruction took effect. -/
def State.coreFaults (s : State) (c : CoreRef) (i : Instr) (cause : Nat) : Prop :=
  ∃ t, exec i s = .next t ∧ (t.core c.key).mode = .faulted ∧ (t.core c.key).faultCause = BitVec.ofNat 32 cause
    ∧ (t.core c.key).faultPc = (s.core c.key).pc.setWidth 32 ∧ (t.core c.key).pc = (s.core c.key).pc
    ∧ (t.core c.key).regs = (s.core c.key).regs ∧ (t.core c.key).poison = (s.core c.key).poison
    ∧ (t.core c.key).sp = (s.core c.key).sp

end Sys2Proof.Machine
end

