-- ==== Sys2Proof/Certificates/Slice0/Obligations.lean ====
section
/-! DEFINITION. The statements about the block, for the provers. -/

open Sys2Proof Sys2Proof.Machine

/-! The queue of commands. -/

/-- The front command of the queue runs on the state with the queue's rest. -/
def Obligations.StepRunsFrontCommand : Prop :=
  ∀ (s : State) (c : Instr) (rest : List Instr), s.pending = c :: rest → step s = exec c { s with pending := rest }

/-! The control core: Table 4-3. -/

/-- R102, R104, R107: the three-register instructions write rd and its poison flag, and nothing else. -/
def Obligations.CoreThreeRegisterArithmetic : Prop :=
  ∀ (s : State) (c : CoreRef) (rd ra rb : BitVec 5),
    let v := s.core c.key
    let a := v.reg ra
    let b := v.reg rb
    let sh := (b.extractLsb' 0 5).toNat
    let gives := fun (i : Instr) (f : BitVec 4) (w : Word) =>
      s.readyFor c (.alu f rd ra rb) → s.retires c i (v.setReg rd w (v.bad ra || v.bad rb)) (v.pc.toNat + 4)
    gives (.add c rd ra rb) 0 (a + b)
    ∧ gives (.sub c rd ra rb) 1 (a - b)
    ∧ gives (.andOp c rd ra rb) 2 (a &&& b)
    ∧ gives (.orOp c rd ra rb) 3 (a ||| b)
    ∧ gives (.xor c rd ra rb) 4 (a ^^^ b)
    ∧ gives (.sll c rd ra rb) 5 (a <<< sh)
    ∧ gives (.srl c rd ra rb) 6 (a >>> sh)
    ∧ gives (.sra c rd ra rb) 7 (a.sshiftRight sh)
    ∧ gives (.slt c rd ra rb) 8 (if a.toInt < b.toInt then 1 else 0)
    ∧ gives (.sltu c rd ra rb) 9 (if a.toNat < b.toNat then 1 else 0)
    ∧ gives (.mul c rd ra rb) 10 (BitVec.ofNat 32 (a.toNat * b.toNat))
    ∧ gives (.mulh c rd ra rb) 11 (BitVec.ofInt 32 ((a.toInt * b.toInt) >>> 32))
    ∧ gives (.mulhu c rd ra rb) 12 (BitVec.ofNat 32 ((a.toNat * b.toNat) >>> 32))
    ∧ gives (.min c rd ra rb) 13 (if a.toInt ≤ b.toInt then a else b)
    ∧ gives (.max c rd ra rb) 14 (if a.toInt ≤ b.toInt then b else a)

/-- R102, R104, R107: the register-immediate instructions. `shi` with imm[6:5] = 3 raises `BAD_INSTR` before it takes effect. -/
def Obligations.CoreImmediateArithmetic : Prop :=
  ∀ (s : State) (c : CoreRef) (rd ra : BitVec 5) (imm : BitVec 16),
    let v := s.core c.key
    let a := v.reg ra
    let n := (imm.extractLsb' 0 5).toNat
    let gives := fun (i : Instr) (w : Word) => s.retires c i (v.setReg rd w (v.bad ra)) (v.pc.toNat + 4)
    (s.readyFor c (.addi rd ra imm) → gives (.addi c rd ra imm) (a + imm.signExtend 32))
    ∧ (s.readyFor c (.andi rd ra imm) → gives (.andi c rd ra imm) (a &&& imm.zeroExtend 32))
    ∧ (s.readyFor c (.ori rd ra imm) → gives (.ori c rd ra imm) (a ||| imm.zeroExtend 32))
    ∧ (s.readyFor c (.xori rd ra imm) → gives (.xori c rd ra imm) (a ^^^ imm.zeroExtend 32))
    ∧ (s.readyFor c (.slti rd ra imm) → gives (.slti c rd ra imm) (if a.toInt < imm.toInt then 1 else 0))
    ∧ (s.readyFor c (.lui rd imm) →
        s.retires c (.lui c rd imm) (v.setReg rd (imm ++ (0 : BitVec 16)) false) (v.pc.toNat + 4))
    ∧ (s.readyFor c (.shi rd ra imm) →
        (imm.extractLsb' 5 2 = 0 → gives (.shi c rd ra imm) (a <<< n))
        ∧ (imm.extractLsb' 5 2 = 1 → gives (.shi c rd ra imm) (a >>> n))
        ∧ (imm.extractLsb' 5 2 = 2 → gives (.shi c rd ra imm) (a.sshiftRight n))
        ∧ (imm.extractLsb' 5 2 = 3 → s.coreFaults c (.shi c rd ra imm) 1))


/-! The control core: Table 4-3, memory. -/

/-- R107, R108, R126 to R128: the loads write rd with the value of the bytes, sign- or zero-extended, and its poison flag with theirs; a
misaligned address, one beyond the scratchpad and a poisoned address register raise their causes. A load that touches an armed watch
that halts halts the core before it takes effect, one that overlaps a store not yet acknowledged waits, and nothing changes. Memory
is unchanged. -/
def Obligations.CoreLoads : Prop :=
  ∀ (s : State) (c : CoreRef) (rd ra : BitVec 5) (imm : BitVec 16),
    let v := s.core c.key
    let a := (v.reg ra + imm.signExtend 32).toNat
    let byte := fun j => (v.sp.readByte c.key (a + j)).byte.toNat
    let bad := fun j => (v.sp.readByte c.key (a + j)).poison
    let gives := fun (i : Instr) (sz : BitVec 3) (n : Nat) (w : Word) (p : Bool) =>
      s.readyFor c (.load sz rd ra imm) →
        (v.bad ra = true → s.coreFaults c i 4)
        ∧ (v.bad ra = false → a % n ≠ 0 → s.coreFaults c i 2)
        ∧ (v.bad ra = false → a % n = 0 → 8388608 < a + n → s.coreFaults c i 3)
        ∧ (v.bad ra = false → a % n = 0 → a + n ≤ 8388608 → v.watched 2 a n → s.watchHalts c.key = true → v.passBp = false →
            s.gives i (fun t => t.core c.key = { v with mode := .halting, stepping := false } ∧ s.coreFrame t c.key))
        ∧ (v.bad ra = false → a % n = 0 → a + n ≤ 8388608 → (v.watched 2 a n → s.watchHalts c.key = false ∨ v.passBp = true) →
            (∃ st ∈ v.stores, a < st.1 + st.2 ∧ st.1 < a + n) → (∀ st ∈ v.stores, 0 < st.2) → exec i s = .next s)
        ∧ (v.bad ra = false → v.openAccess a n → (v.watched 2 a n → s.watchHalts c.key = false ∨ v.passBp = true) →
            v.stores.any (fun st => rangesMeet a n st.1 st.2) = false → s.retires c i (v.setReg rd w p) (v.pc.toNat + 4))
    gives (.lb c rd ra imm) 0 1 ((BitVec.ofNat 8 (byte 0)).signExtend 32) (bad 0)
    ∧ gives (.lbu c rd ra imm) 1 1 (BitVec.ofNat 32 (byte 0)) (bad 0)
    ∧ gives (.lh c rd ra imm) 2 2 ((BitVec.ofNat 16 (byte 0 + 256 * byte 1)).signExtend 32) (bad 0 || bad 1)
    ∧ gives (.lhu c rd ra imm) 3 2 (BitVec.ofNat 32 (byte 0 + 256 * byte 1)) (bad 0 || bad 1)
    ∧ gives (.lw c rd ra imm) 4 4 (BitVec.ofNat 32 (byte 0 + 256 * byte 1 + 65536 * byte 2 + 16777216 * byte 3))
        (bad 0 || bad 1 || bad 2 || bad 3)

/-- R104, R107, R126 to R128: the stores write the low bytes of rd, little-endian and with its poison flag, and nothing else; the store
stays unacknowledged, its bytes in the scratchpad at once. Their address checks, the write guard of R116, and the halt before a store
that touches an armed watch. The model's own in it: log 164. -/
def Obligations.CoreStores : Prop :=
  ∀ (s : State) (c : CoreRef) (rd ra : BitVec 5) (imm : BitVec 16),
    let v := s.core c.key
    let a := (v.reg ra + imm.signExtend 32).toNat
    let b := fun j => ((v.reg rd).extractLsb' (8 * j) 8, v.bad rd)
    let gives := fun (i : Instr) (sz : BitVec 2) (bytes : List (Byte × Bool)) =>
      let n := bytes.length
      s.readyFor c (.store sz rd ra imm) →
        (v.bad ra = true → s.coreFaults c i 4)
        ∧ (v.bad ra = false → a % n ≠ 0 → s.coreFaults c i 2)
        ∧ (v.bad ra = false → a % n = 0 → 8388608 < a + n → s.coreFaults c i 3)
        ∧ (v.bad ra = false → a % n = 0 → a + n ≤ 8388608 → v.guarded a n = true → s.coreFaults c i 8)
        ∧ (v.bad ra = false → a % n = 0 → a + n ≤ 8388608 → v.guarded a n = false → v.watched 3 a n → s.watchHalts c.key = true →
            v.passBp = false → s.gives i (fun t =>
              t.core c.key = { v with mode := .halting, stepping := false } ∧ s.coreFrame t c.key))
        ∧ (v.bad ra = false → v.openAccess a n → v.guarded a n = false →
            (v.watched 3 a n → s.watchHalts c.key = false ∨ v.passBp = true) → s.retires c i { v with sp := Scratch.putAll c.key a bytes v.sp, stores := v.stores ++ [(a, n)] } (v.pc.toNat + 4))
    gives (.sb c rd ra imm) 0 [b 0]
    ∧ gives (.sh c rd ra imm) 1 [b 0, b 1]
    ∧ gives (.sw c rd ra imm) 2 [b 0, b 1, b 2, b 3]

/-- R95, R99, R101, R248: writing bytes to a scratchpad: each byte of the range reads back as written, with its poison, and
every other byte reads as before. -/
def Obligations.ScratchpadWriteReadsBack : Prop :=
  ∀ (p : Scratch) (key a : Nat) (bytes : List (Byte × Bool)), p.legal → a + bytes.length ≤ 8388608 →
    (∀ i, i < bytes.length → p.isGated (a + i) = false) →
      (∀ i (h : i < bytes.length), ((Scratch.putAll key a bytes p).readByte key (a + i)).byte = (bytes[i]).1
        ∧ ((Scratch.putAll key a bytes p).readByte key (a + i)).poison = (bytes[i]).2)
      ∧ ∀ x, x < 8388608 → (x < a ∨ a + bytes.length ≤ x) →
          ((Scratch.putAll key a bytes p).readByte key x).byte = (p.readByte key x).byte
          ∧ ((Scratch.putAll key a bytes p).readByte key x).poison = (p.readByte key x).poison

/-! The control core: Table 4-3, control. -/

/-- R106, R107, R124: the branches and jumps. A taken branch adds its target to the signature; a target beyond the program store
raises `RANGE`. A branch writes no register; `jal` writes g31 and `jalr` writes rd with the return address. The model's own in
it: log 111. -/
def Obligations.CoreBranchesAndJumps : Prop :=
  ∀ (s : State) (c : CoreRef) (rd ra rb : BitVec 5) (imm : BitVec 16),
    let v := s.core c.key
    let a := v.reg ra
    let b := v.reg rb
    let next := v.pc.toNat + 4
    let signed := fun (w : Core) (t : Nat) => { w with sig := crcRun w.sig (leBytes 4 t) }
    let goes := fun (i : Instr) (w : Core) (t : Int) =>
      (0 ≤ t → t < 65536 → s.retires c i (signed w t.toNat) t.toNat) ∧ (65536 ≤ t ∨ t < 0 → s.coreFaults c i 3)
    let branch := fun (i : Instr) (f : BitVec 3) (off : BitVec 16) (cond : Prop) =>
      s.readyFor c (.branch f ra rb off) →
        (v.bad ra = true ∨ v.bad rb = true → s.coreFaults c i 4)
        ∧ (v.bad ra = false → v.bad rb = false →
            (¬ cond → s.retires c i v next) ∧ (cond → goes i v (next + 4 * off.toInt)))
    branch (.beq c ra rb imm) 0 imm (a = b)
    ∧ branch (.bne c ra rb imm) 1 imm (a ≠ b)
    ∧ branch (.blt c ra rb imm) 2 imm (a.toInt < b.toInt)
    ∧ branch (.bge c ra rb imm) 3 imm (b.toInt ≤ a.toInt)
    ∧ branch (.bltu c ra rb imm) 4 imm (a.toNat < b.toNat)
    ∧ branch (.bgeu c ra rb imm) 5 imm (b.toNat ≤ a.toNat)
    ∧ (∀ off : BitVec 26, s.readyFor c (.jal off) →
        goes (.jal c off) (v.setReg 31 (BitVec.ofNat 32 next) false) (next + 4 * off.toInt))
    ∧ (s.readyFor c (.jalr rd ra imm) →
        (v.bad ra = true → s.coreFaults c (.jalr c rd ra imm) 4)
        ∧ (v.bad ra = false → goes (.jalr c rd ra imm) (v.setReg rd (BitVec.ofNat 32 next) false)
            (((a + imm.signExtend 32) &&& ~~~ 3).toNat : Int)))

/-- R105, Table 4-1: `crd` reads a control register into rd, `tb_lo` latching the high word; `cwr` writes the two registers it
may write; any other number raises `BAD_CR`. -/
def Obligations.CoreControlRegisters : Prop :=
  ∀ (s : State) (c : CoreRef) (rd ra : BitVec 5) (n : BitVec 16),
    let v := s.core c.key
    let next := v.pc.toNat + 4
    let reads := fun (w : Core) (x : Word) => s.retires c (.crd c rd n) (w.setReg rd x false) next
    (s.readyFor c (.crd rd n) →
      (n = 0x00 → reads v (BitVec.ofNat 32 (c.key / 68 * 2 ^ 15 + c.key % 68 * 2 ^ 8)))
      ∧ (∀ p, n = 0x01 → v.placeId = some p → reads v (BitVec.ofNat 32 (p / 68 * 2 ^ 15 + p % 68 * 2 ^ 8)))
      ∧ (n = 0x02 → reads v (v.window.extractLsb' 0 32))
      ∧ (n = 0x03 → reads v (v.window.extractLsb' 32 32))
      ∧ (n = 0x04 → reads v v.wrec)
      ∧ (n = 0x05 → reads v v.hoffRd)
      ∧ (n = 0x06 → reads { v with tbHi := s.clock.tb.extractLsb' 32 32 } (s.clock.tb.extractLsb' 0 32))
      ∧ (n = 0x07 → reads v v.tbHi)
      ∧ (n = 0x08 → reads v v.tbCmp)
      ∧ (n = 0x09 → reads v (BitVec.ofNat 32 ((if v.cpl.isEmpty then 0 else 1)
          + if 0 ≤ (s.clock.tb.extractLsb' 0 32 - v.tbCmp).toInt then 2 else 0)))
      ∧ (n = 0x0A → reads v v.sig)
      ∧ (n = 0x0B → reads v (v.traceCtl.zeroExtend 32))
      ∧ (n = 0x0C → reads v v.faultCause)
      ∧ (n = 0x0D → reads v v.faultPc)
      ∧ (∀ i : Fin 4, n.toNat = 0x10 + i.val → reads v v.bp[i])
      ∧ (n = 0x14 → reads v v.wpLo)
      ∧ (n = 0x15 → reads v v.wpHi)
      ∧ (n = 0x16 → reads v (v.wpCtl.zeroExtend 32))
      ∧ (∀ i, i < 4 → n.toNat = 0x18 + i → reads v (BitVec.ofNat 32 (v.emap.getD (4 * i) 0 % 256 + 256 * (v.emap.getD (4 * i + 1) 0 % 256)
          + 65536 * (v.emap.getD (4 * i + 2) 0 % 256) + 16777216 * (v.emap.getD (4 * i + 3) 0 % 256))))
      ∧ (n = 0x17 ∨ 0x1C ≤ n.toNat ∨ n = 0x0E ∨ n = 0x0F → s.coreFaults c (.crd c rd n) 7))
    ∧ (s.readyFor c (.cwr ra n) →
      (n ≠ 0x08 → n ≠ 0x0B → s.coreFaults c (.cwr c ra n) 7)
      ∧ (n = 0x08 ∨ n = 0x0B → v.bad ra = true → s.coreFaults c (.cwr c ra n) 4)
      ∧ (n = 0x08 → v.bad ra = false → s.retires c (.cwr c ra n) { v with tbCmp := v.reg ra } next)
      ∧ (n = 0x0B → v.bad ra = false → s.retires c (.cwr c ra n) { v with traceCtl := (v.reg ra).extractLsb' 0 3 } next))

/-- R103, R107: `cst` writes a word of the command store and `cld` reads one; misaligned and out-of-range addresses raise their
causes, and poison does not enter the command store. -/
def Obligations.CoreCommandStore : Prop :=
  ∀ (s : State) (c : CoreRef) (rd ra : BitVec 5) (imm : BitVec 16),
    let v := s.core c.key
    let a := (v.reg ra + imm.signExtend 32).toNat
    let next := v.pc.toNat + 4
    (s.readyFor c (.cst rd ra imm) →
      (v.bad ra = true ∨ v.bad rd = true → s.coreFaults c (.cst c rd ra imm) 4)
      ∧ (v.bad ra = false → v.bad rd = false → a % 4 ≠ 0 → s.coreFaults c (.cst c rd ra imm) 2)
      ∧ (v.bad ra = false → v.bad rd = false → a % 4 = 0 → 16384 ≤ a → s.coreFaults c (.cst c rd ra imm) 3)
      ∧ (v.bad ra = false → v.bad rd = false → a % 4 = 0 → a < 16384 →
          s.retires c (.cst c rd ra imm) { v with cmds := v.cmds.put (a / 4) (v.reg rd) } next))
    ∧ (s.readyFor c (.cld rd ra imm) →
      (v.bad ra = true → s.coreFaults c (.cld c rd ra imm) 4)
      ∧ (v.bad ra = false → a % 4 ≠ 0 → s.coreFaults c (.cld c rd ra imm) 2)
      ∧ (v.bad ra = false → a % 4 = 0 → 16384 ≤ a → s.coreFaults c (.cld c rd ra imm) 3)
      ∧ (v.bad ra = false → a % 4 = 0 → a < 16384 →
          s.retires c (.cld c rd ra imm) (v.setReg rd (v.csWord (a / 4)) false) next))

/-- R107, R119, R124, R127: `fence` waits for the acknowledgement of every store; `wend` ends the core's window and completes
the signature; `wait` writes all of the pending events once one in its mask is pending, and until then the core waits; `brk` halts a core whose partition grants debug
and is passed over in any other. The model's own in it: log 113, 128. -/
def Obligations.CoreWaitsAndEnds : Prop :=
  ∀ (s : State) (c : CoreRef) (rd : BitVec 5) (imm : BitVec 16),
    let v := s.core c.key
    let next := v.pc.toNat + 4
    let m := imm.extractLsb' 0 2
    let ev := s.events v
    (s.readyFor c .fence →
      (v.stores = [] → s.retires c (.fence c) v next) ∧ (v.stores ≠ [] → exec (.fence c) s = .next s))
    ∧ (s.readyFor c .wend → s.retires c (.wend c) { v with mode := .ended, sig := ~~~ v.sig } next)
    ∧ (s.readyFor c (.wait rd imm) →
      (m = 0 → s.coreFaults c (.wait c rd imm) 1)
      ∧ (m ≠ 0 → m &&& ev ≠ 0 →
          s.retires c (.wait c rd imm) (({ v with waitMask := none } : Core).setReg rd (ev.zeroExtend 32) false) next)
      ∧ (m ≠ 0 → m &&& ev = 0 → s.gives (.wait c rd imm) (fun t =>
          t.core c.key = { v with waitMask := some (m, rd) } ∧ s.coreFrame t c.key)))
    ∧ (s.readyFor c .brk →
      (s.grantsDebug c.key = false → s.retires c (.brk c) v next)
      ∧ (s.grantsDebug c.key = true → v.passBp = true → s.retires c (.brk c) v next)
      ∧ (s.grantsDebug c.key = true → v.passBp = false → s.gives (.brk c) (fun t =>
          t.core c.key = { v with mode := .halting, stepping := false } ∧ s.coreFrame t c.key)))

/-- R109: before `eng`, `spr` and `dma` send their command, the core waits until every earlier store of its own has been
acknowledged. They then send a command store entry, with its overrides (R112), to the end of a unit's queue, take the next
sequence number of that unit (R115), and add the instruction to the signature (R124); a full queue makes the core wait. The
model's own in it: log 22. -/
def Obligations.CoreUnitIssues : Prop :=
  ∀ (s : State) (c : CoreRef) (ra rb unit : BitVec 5) (cs : BitVec 9),
    let v := s.core c.key
    let w := v.instrAt v.pc.toNat
    let sends := fun (i : Instr) (k : BitVec 2) (b : Nat) (full : Bool) (put : Cmd → Core) =>
      s.readyFor c (.issue k ra rb unit cs) →
        (v.bad ra = true ∨ v.bad rb = true → s.coreFaults c i 4)
        ∧ (v.bad ra = false → v.bad rb = false → (k ≠ 0 ∨ unit.toNat < 16) → 128 ≤ v.unpopped → s.coreFaults c i 6)
        ∧ (v.bad ra = false → v.bad rb = false → (k ≠ 0 ∨ unit.toNat < 16) → v.unpopped < 128 →
            (v.stores ≠ [] → exec i s = .next s)
            ∧ (v.stores = [] → full = true → exec i s = .next s)
            ∧ (v.stores = [] → full = false → s.retires c i
                { put { bytes := v.issued k ra rb cs, seq := some (v.unitSeq.find b 0), unit := b, word := w } with
                  unpopped := v.unpopped + 1, unitSeq := v.unitSeq.put b ((v.unitSeq.find b 0 + 1) % 65536)
                  sig := crcRun v.sig (leBytes 4 w.toNat) } (v.pc.toNat + 4)))
    sends (.eng c ra rb unit cs) 0 unit.toNat (decide (4 ≤ (v.engine (v.emap.getD unit.toNat 0)).queue.length))
        (fun m => v.updEngine (v.emap.getD unit.toNat 0) (fun e => { e with queue := e.queue ++ [m] }))
    ∧ sends (.spr c ra rb unit cs) 1 0x20 (decide (4 ≤ v.spireQ.length)) (fun m => { v with spireQ := v.spireQ ++ [m] })
    ∧ sends (.dma c ra rb unit cs) 2 0x30 (decide (8 ≤ v.dmaQ.length)) (fun m => { v with dmaQ := v.dmaQ ++ [m] })
    ∧ (s.readyFor c (.issue 0 ra rb unit cs) → v.bad ra = false → v.bad rb = false → 15 < unit.toNat →
        s.coreFaults c (.eng c ra rb unit cs) 5)

/-- R113: `post` hands its 32-byte message to agent 0, 1 or 2, after the messages handed before, and the core goes on; an agent
number above 2 raises `BAD_UNIT`. Agent 0 takes the kinds of message it knows, and a message of another kind is discarded
(R250). With a poisoned register `post` raises `POISON`, and with a store unacknowledged the core waits. -/
def Obligations.CorePosts : Prop :=
  ∀ (s : State) (c : CoreRef) (ra rb unit : BitVec 5) (cs : BitVec 9),
    let v := s.core c.key
    let m := v.issued 3 ra rb cs
    let known := natAt m 0 1 = 0x10 ∨ natAt m 0 1 = 0x11 ∨ natAt m 0 1 = 0x12
    let goesOn := fun (t : State) => (t.core c.key).pc.toNat = (v.pc.toNat + 4) % 65536 ∧ (t.core c.key).regs = v.regs
      ∧ (t.core c.key).sp = v.sp ∧ ∀ j, j ≠ c.key → t.core j = s.core j
    s.readyFor c (.issue 3 ra rb unit cs) →
      (v.bad ra = true ∨ v.bad rb = true → s.coreFaults c (.post c ra rb unit cs) 4)
      ∧ (v.bad ra = false → v.bad rb = false →
        (2 < unit.toNat → s.coreFaults c (.post c ra rb unit cs) 5)
        ∧ (unit.toNat ≤ 2 → v.stores ≠ [] → exec (.post c ra rb unit cs) s = .next s)
        ∧ (v.stores = [] → m.length = 32
          ∧ (unit = 0 → s.gives (.post c ra rb unit cs) (fun t => goesOn t
              ∧ t.mod.signal = s.mod.signal ++ (if known then [(c.key, m)] else []) ∧ t.mod.sampler = s.mod.sampler))
          ∧ (unit = 1 → s.gives (.post c ra rb unit cs) (fun t => goesOn t
              ∧ t.mod.sampler = s.mod.sampler ++ [(c.key, m)] ∧ t.mod.signal = s.mod.signal))
          ∧ (unit = 2 → s.gives (.post c ra rb unit cs) (fun t => goesOn t
              ∧ (t.field (c.key / 68)).blfInbox = (s.field (c.key / 68)).blfInbox ++ [(c.key, m)] ∧ t.mod = s.mod))))

/-- R111, R115: `cpop` takes the oldest completion: its word into rd and its source into ra, which stands where both name one
register; with none the core waits. A completion of the spire, of the DMA/fill unit or of an engine, for a command of the core,
leaves its unit and enters that queue with its source word, whether or not the core waits for it; nothing else of the block
changes where the core does not wait and the command is no `PROG_ROW`. A completed `PROG_ROW` has its cycle of wear put to the
ledger. The model's own in it: log 140, 147. -/
def Obligations.CoreCompletions : Prop :=
  ∀ (s : State) (c : CoreRef) (rd ra : BitVec 5) (word src : Word) (rest : List (Word × Word)) (w : Word) (m : Cmd),
    let v := s.core c.key
    let source := BitVec.ofNat 32 (m.unit + m.seq.getD 0 * 65536)
    let status := w.toNat / 2 ^ 24
    (s.readyFor c (.cpop rd ra) →
      (v.cpl = (word, src) :: rest → s.retires c (.cpop c rd ra)
        ((({ v with cpl := rest, unpopped := v.unpopped - 1 } : Core).setReg rd word false).setReg ra src false) (v.pc.toNat + 4))
      ∧ (v.cpl = [] → exec (.cpop c rd ra) s = .next s))
    ∧ (c.ok = true →
      (v.spireDone = some (w, m) →
        s.gives (.spireCompletion c) (fun t =>
          (t.core c.key).spireDone = none ∧ (t.core c.key).cpl = v.cpl ++ [(w, source)] ∧ s.coreFrame t c.key)
        ∧ (v.waitMask = none → s.gives (.spireCompletion c) (fun t =>
          t.core c.key = { v with spireDone := none, cpl := v.cpl ++ [(w, source)] } ∧ s.coreFrame t c.key)))
      ∧ (v.dmaDone = some (w, m) →
        s.gives (.dmaCompletion c) (fun t =>
          (t.core c.key).dmaDone = none ∧ (t.core c.key).cpl = v.cpl ++ [(w, source)] ∧ s.coreFrame t c.key)
        ∧ (v.waitMask = none → s.gives (.dmaCompletion c) (fun t =>
          t.core c.key = { v with dmaDone := none, cpl := v.cpl ++ [(w, source)] } ∧ s.coreFrame t c.key)))
      ∧ ∀ e, e < 18 → (v.engine e).done = some (w, m) → m.seq.isSome = true →
        (natAt m.bytes 0 1 ≠ 2 → s.gives (.engineCompletion c e) (fun t => (t.engine c.key e).done = none
          ∧ (t.core c.key).cpl = v.cpl ++ [(w, source)] ∧ s.coreFrame t c.key))
        ∧ (natAt m.bytes 0 1 ≠ 2 → v.waitMask = none → s.gives (.engineCompletion c e) (fun t =>
          t.core c.key = { v.updEngine e (fun x => { x with done := none }) with cpl := v.cpl ++ [(w, source)] }
          ∧ s.coreFrame t c.key))
        ∧ (natAt m.bytes 0 1 = 2 → s.gives (.engineCompletion c e) (fun t => (t.engine c.key e).done = none
          ∧ (t.core c.key).cpl = v.cpl ++ [(w, source)]
          ∧ (status ≠ 1 → status ≠ 3 → ∃ x ∈ t.ledger.waiting, x.kind = jkArray ∧ x.what = jwCycle
              ∧ x.key = arrayKey c.key e (natAt m.bytes 1 1)))))

/-- R96, R105, R119, R128: the events of a core: the timer ends a wait, a store is acknowledged, a halt is reported once the
core is quiet, and a core that has ended, or has faulted, contributes its signature once it is quiet and none of its packets is
in flight. -/
def Obligations.CoreEvents : Prop :=
  ∀ (s : State) (c : CoreRef) (m : BitVec 2) (rd : BitVec 5), c.ok = true →
    let v := s.core c.key
    let ev := s.events v
    (v.waitMask = some (m, rd) → v.mode = .running → v.stopped = false → m &&& ev ≠ 0 → (∀ n, s.traceStalls c.key n = false) →
      s.retires c (.timerEvent c) (({ v with waitMask := none } : Core).setReg rd (ev.zeroExtend 32) false) (v.pc.toNat + 4))
    ∧ s.gives (.scratchpadWriteAck c) (fun t => t.core c.key = { v with stores := v.stores.drop 1 } ∧ s.coreFrame t c.key)
    ∧ (v.mode = .halting → v.quiet = true → s.gives (.coreHaltDrained c) (fun t =>
        t.core c.key = { v with mode := .halted } ∧ ∀ j, j ≠ c.key → t.core j = s.core j))
    ∧ (v.mode = .ended → v.stopped = false → v.contrib = none → v.quiet = true →
        s.plan.edges.any (fun e => e.src = c.key) = false → s.gives (.coreDoneContribution c) (fun t =>
        t.core c.key = { v with contrib := some (v.sig, false), mode := .contributed } ∧ s.coreFrame t c.key))
    ∧ (v.mode = .faulted → v.stopped = false → v.contrib = none → v.quiet = true →
        s.plan.edges.any (fun e => e.src = c.key) = false → s.gives (.coreDoneContribution c) (fun t =>
        t.core c.key = { v with contrib := some (v.sig, true) } ∧ s.coreFrame t c.key))

/-! The engines, the spire and the DMA/fill unit. -/

/-- R37, R72, R73, R77, R79 to R82, R84: the input edge: rounding, error feedback with its residual, two passes. A `FIRE` at the
head of an engine's queue, its command good and its descriptors clean. While the bucket holds fewer credits than its segments
still need, what it holds is taken and the engine waits, with nothing else of the command done; else the rest is taken and the
command completes as done. Each vector's output goes to its address in the core's own scratchpad, or into packets for the
destination core or its reduction, and its marks to the last byte of its descriptor; no other byte of the scratchpad is written.
A vector of zeros fires no segment: its outputs are bias and steering modulo 2^32, requantised for INT8, and its poison that of
its operands. The model's own in it: log 8, 110. -/
def Obligations.EngineFires : Prop :=
  ∀ (s : State) (c : CoreRef) (e : Nat) (m : Cmd),
    let k := c.key
    let g := k / 68
    let f0 := FireCmd.ofBytes m.bytes
    let f := { f0 with mode := { f0.mode with refCheck := f0.mode.refCheck || s.refForced k e } }
    let descs := s.descBytes k f
    let ds := descs.map (fun l => VecDesc.ofBytes (l.map Prod.fst))
    let outs := ((List.range ds.length).zip ds).map (fun p => (p.1, p.2, fireVector s k e f p.2 (s.free + 16 * p.1)))
    let segs := (outs.map (fun o => o.2.2.segs)).sum
    let held := (s.power g).bucket
    let paid := (s.engine k e).paid
    let bytes := fun (o : VecOut) => (f.bytesOf o).map (fun b => (b, o.poison))
    let put := fun (sp : Scratch) (o : Nat × VecDesc × VecOut) =>
      Scratch.putAll k (f.desc + 16 * o.1 + 15) [(BitVec.ofNat 8 o.2.2.marks, false)]
        (if f.dstKind = 0 then Scratch.putAll k o.2.1.output (bytes o.2.2) sp else sp)
    let lim := fun (mag : Nat) => ((2 ^ mag - 1 : Nat) : Int)
    (∀ (sh mag : Nat) (us : List Int), (inputEdge 0 sh mag us).1 =
        [us.map (fun u => max (-lim mag) (min (lim mag) ((2 * u + 2 ^ sh) / 2 ^ (sh + 1))))])
    ∧ (∀ (sh mag : Nat) (us : List Int), (inputEdge 1 sh mag us).2 = 0 → ∃ (q : List Int) (r : Int),
        (inputEdge 1 sh mag us).1 = [q] ∧ q.length = us.length ∧ us.sum = 2 ^ sh * q.sum + r ∧ 2 * r.natAbs ≤ 2 ^ sh
        ∧ ∀ x ∈ q, -lim mag ≤ x ∧ x ≤ lim mag)
    ∧ (∀ (sh mag : Nat) (us : List Int), (∀ u ∈ us, -128 ≤ u ∧ u ≤ 127) → ∃ q1 q2 : List Int, inputEdge 2 sh mag us = ([q1, q2], 0)
        ∧ q1.length = us.length ∧ q2.length = us.length ∧ ∀ i, i < us.length → us.getD i 0 = 16 * q1.getD i 0 + q2.getD i 0
          ∧ (q1.getD i 0).natAbs ≤ 8 ∧ (q2.getD i 0).natAbs ≤ 8)
    ∧ (s.engineHead c e = some m → m.poison = false → natAt m.bytes 0 1 = 1 → f.bad = false → descs.any spPoison = false →
      (f.addBias = true → spPoison (s.spRead k f.bias (4 * f.cols)) = false) → ds.any f.rangeBad = false →
      (held < segs - paid → s.gives (.fire c e) (fun t => (t.power g).bucket = 0 ∧ (t.engine k e).paid = paid + held
        ∧ (t.engine k e).done = none ∧ (t.engine k e).queue = (s.engine k e).queue ∧ (t.core k).sp = (s.core k).sp
        ∧ t.plan = s.plan))
      ∧ (segs - paid ≤ held → s.gives (.fire c e) (fun t =>
          (t.engine k e).done = some (completionWord 0 (outs.map (fun o => o.2.2.clips)).sum (outs.map (fun o => o.2.2.sats)).sum
            (decide (segs = 0)) (outs.any (fun o => o.2.2.poison)) (outs.any (fun o => o.2.2.envelope))
            (outs.any (fun o => o.2.2.refDev)) (outs.any (fun o => o.2.2.clipOver)), m)
          ∧ (t.engine k e).queue = (s.engine k e).queue.drop 1 ∧ (t.engine k e).paid = 0
          ∧ (t.power g).bucket = held - (segs - paid)
          ∧ ((s.core k).sp.rewrote = [] → (t.core k).sp = outs.foldl put (s.core k).sp)
          ∧ t.plan.edges = s.plan.edges ++ (if f.dstKind = 0 then [] else outs.flatMap (fun o =>
              edgesOf ((unpackKey f.dst).getD 0) k e o.2.1.output s.plan.window f.layer o.2.1.slot (decide (f.dstKind = 2))
                (bytes o.2.2)))))
      ∧ (∀ (d : VecDesc) (n : Nat), (∀ b ∈ s.spRead k d.input f.inBytes, b.1 = 0) →
          let o := fireVector s k e f d n
          let steered := f.steer = true ∧ d.steer ≠ 0xFFFFFFFF
          let wide := fun (j : Nat) => wrap32 ((if f.addBias = true then
              signedOf 32 (natAt ((s.spRead k f.bias (4 * f.cols)).map Prod.fst) (4 * j) 4) else 0)
            + if steered then ((s.spRead k (d.steer + j) 1).getD 0 (0, false)).1.toInt * 2 ^ f.steerShift else 0)
          o.segs = 0 ∧ o.clips = 0 ∧ o.ys.length = f.cols
          ∧ (o.poison = true ↔ (∃ b ∈ s.spRead k d.input f.inBytes, b.2 = true)
              ∨ steered ∧ ∃ b ∈ s.spRead k d.steer f.cols, b.2 = true)
          ∧ ∀ j, j < f.cols → o.ys.getD j 0 = if f.int8Out = true then
              max (-128) (min 127 ((2 * (wide j * f.rqMul) + 2 ^ f.rqShift) / 2 ^ (f.rqShift + 1))) else wide j))

/-- R41 to R43, R61, R64, R65, R83: the array maintenance commands of a core, at the head of an engine's queue and with good
operands: `PROG_ROW` programs the row and tells stuck cells apart, that of a programming agent with the row it carries, `READ_ROW` writes the levels read back, `REF_SAMPLE` waits
for the credits of its firing and writes its codes, `LOAD_TRIM` loads the shadow copy. Each completes. The model's own in it:
log 8, 26, 137, 138. -/
def Obligations.EngineMaintains : Prop :=
  ∀ (s : State) (c : CoreRef) (e : Nat) (m : Cmd) (stuck : List (Nat × Nat)),
    let k := c.key
    let a := natAt m.bytes 1 1
    let row := natAt m.bytes 2 2
    let src := natAt m.bytes 4 4
    let dst := natAt m.bytes 8 4
    let v := s.array k e a
    let sp := (s.core k).sp
    let op := natAt m.bytes 0 1
    let held := (s.power (k / 68)).bucket
    let paid := (s.engine k e).paid
    (s.engineHead c e = some m → m.poison = false → m.seq = none → op = 2 → s.mod.powerFail = false → a < 8 → row < 1024 →
      s.gives (.progRow c e stuck) (fun t => t.array k e a = v.programRow row m.rows stuck s.stamp true ∧ (t.core k).sp = sp
        ∧ (t.engine k e).done = some (completionWord (if (unaccepted v.progMap row m.rows stuck).isEmpty then 0 else 2)
            0 0 false false false false false, m)))
    ∧ (s.engineHead c e = some m → m.poison = false → m.seq.isSome = true → a < 8 → sp.rewrote = [] →
      (op = 2 → s.mod.powerFail = false → row < 1024 → src + 512 ≤ 8388608 → dst + 2 + 4 * stuck.length ≤ 8388608 →
        let bytes := s.spRead k src 512
        s.gives (.progRow c e stuck) (fun t =>
          t.array k e a = v.programRow row (bytes.map Prod.fst) stuck s.stamp false
          ∧ (t.engine k e).done = some (completionWord (if (unaccepted v.progMap row (bytes.map Prod.fst) stuck).isEmpty then 0 else 2)
              0 0 false (spPoison bytes) false false false, m)
          ∧ (t.core k).sp = Scratch.putAll k dst (cleanBytes (stuckReport stuck)) sp))
      ∧ (op = 3 → row < 1024 → dst + 520 ≤ 8388608 → s.gives (.readRow c e) (fun t =>
          (t.engine k e).done = some (plainWord 0, m)
          ∧ (t.core k).sp = Scratch.putAll k dst
              (cleanBytes (packLevels ((List.range 1040).map (fun col => v.readBack s.free row col)))) sp))
      ∧ (op = 4 → (ModeWord.ofNat (natAt m.bytes 12 4)).bad = false → src + 1024 ≤ 8388608 → dst + 1040 ≤ 8388608 →
        let mode := ModeWord.ofNat (natAt m.bytes 12 4)
        let input := s.spRead k src 1024
        let q := input.map (fun b => int8 b.1)
        let n := firedCount q
        let devs := if n ≠ 0 ∧ mode.refCheck = true then refDeviations s.free v mode q else 0
        (held < n - paid → s.gives (.refSample c e) (fun t => (t.power (k / 68)).bucket = 0
          ∧ (t.engine k e).paid = paid + held ∧ (t.engine k e).done = none ∧ (t.core k).sp = sp))
        ∧ (n - paid ≤ held → s.gives (.refSample c e) (fun t =>
          (t.engine k e).done = some (completionWord 0 0 0 (decide (n = 0)) (spPoison input) false (decide (0 < devs)) false, m)
          ∧ (t.power (k / 68)).bucket = held - (n - paid)
          ∧ (t.core k).sp = Scratch.putAll k dst ((List.range 1040).map (fun col =>
              (if n = 0 then 0 else sampleByte s.free v mode q col, spPoison input))) sp)))
      ∧ (op = 5 → src + 20 ≤ 8388608 → s.gives (.loadTrim c e) (fun t =>
          t.array k e a = v.shadowed (clampTrim (natAt ((s.spRead k src 20).map Prod.fst) 0 4))
                            (mapOfBytes (((s.spRead k src 20).map Prod.fst).drop 4))
          ∧ (t.engine k e).done = some (completionWord 0 0 0 false (spPoison (s.spRead k src 20)) false false false, m))))

/-- R42, R48, R61, R65: programming a row, for the core itself or for an agent's job, sets each of its 1,040 cells to the level
that the row's bytes and the column map give it, and no cell of another row. The model's own in it: log 26. -/
def Obligations.ProgrammedRowReads : Prop :=
  ∀ (v : Array) (row : Nat) (bytes : List Byte) (stuck : List (Nat × Nat)) (now : U64) (agent : Bool),
    v.levels.wf = true → row < 1024 →
      (∀ col, col < 1040 → (v.programRow row bytes stuck now agent).level row col = rowLevel v.progMap row bytes col)
      ∧ ∀ r col, col < 1040 → r ≠ row → (v.programRow row bytes stuck now agent).level r col = v.level r col

/-- R85: the engine commands that complete with `BAD_CMD` (an opcode the tables do not list; for `FIRE` a bad mode word, a count
of 0 or beyond its limit, an input mode that does not fit, `INT8` output that is not final or is reduced, no such destination; a
range past the scratchpad) or `POISON_IN` (the command, a descriptor or a bias value reads poisoned): whichever row is
commanded, the command completes, fires and writes nothing, takes no credit, leaves a fault signature against the engine and
takes its step to fault report. The model's own in it: log 137. -/
def Obligations.EngineRefusesBadCommands : Prop :=
  ∀ (s : State) (c : CoreRef) (e : Nat) (m : Cmd) (stuck : List (Nat × Nat)), s.engineHead c e = some m →
    let k := c.key
    let f := FireCmd.ofBytes m.bytes
    let descs := s.descBytes k f
    let fails := fun (i : Instr) (status : Nat) => s.gives i (fun t =>
      (t.engine k e).done = some (plainWord status, m) ∧ (t.core k).commandFault = true
      ∧ (∀ g, t.field g = { s.field g with ctr := (t.field g).ctr }) ∧ (∀ a, t.array k e a = s.array k e a)
      ∧ t.plan = s.plan ∧ (∀ j, j ≠ k → t.core j = s.core j)
      ∧ (t.core k).sp.mem = (s.core k).sp.mem ∧ ((s.core k).sp.rewrote = [] → (t.core k).sp = (s.core k).sp)
      ∧ (t.mod.faults.getLast?.map FaultRec.kind) = some 0x07
      ∧ (t.mod.faults.getLast?.map FaultRec.unit) = some (packedEngine k e))
    let poisoned := descs.any spPoison = true ∨ (f.addBias = true ∧ spPoison (s.spRead k f.bias (4 * f.cols)) = true)
    let src := natAt m.bytes 4 4
    let dst := natAt m.bytes 8 4
    (∀ i ∈ [Instr.fire c e, .progRow c e stuck, .readRow c e, .refSample c e, .loadTrim c e],
      (m.poison = true → fails i 3)
      ∧ (m.poison = false → natAt m.bytes 0 1 ∉ [1, 2, 3, 4, 5] → fails i 1))
    ∧ (m.poison = false → natAt m.bytes 0 1 = 1 →
      (f.mode.bad = true ∨ f.mask = 0 ∨ f.vecs = 0 ∨ f.cols = 0 ∨ 1024 < f.cols ∨ (f.mode.sliced = true ∧ 512 < f.cols)
        ∨ f.inMode = 3 ∨ (f.inMode = 2 ∧ (f.mode.inMag ≠ 4 ∨ f.inShift ≠ 4))
        ∨ (f.int8Out = true ∧ (f.final = false ∨ f.dstKind = 2)) ∨ 8388608 < f.desc + 16 * f.vecs
        ∨ (f.addBias = true ∧ 8388608 < f.bias + 4 * f.cols) ∨ (f.dstKind ≠ 0 ∧ unpackKey f.dst = none) → fails (.fire c e) 1)
      ∧ (f.bad = false → poisoned → fails (.fire c e) 3)
      ∧ (f.bad = false → ¬ poisoned →
          (descs.map (fun l => VecDesc.ofBytes (l.map Prod.fst))).any f.rangeBad = true → fails (.fire c e) 1))
    ∧ (m.poison = false → natAt m.bytes 0 1 = 2 → m.seq.isSome = true →
        8388608 < src + 512 ∨ 8388608 < dst + 2 + 4 * stuck.length → fails (.progRow c e stuck) 1)
    ∧ (m.poison = false → natAt m.bytes 0 1 = 3 → 8388608 < dst + 520 → fails (.readRow c e) 1)
    ∧ (m.poison = false → natAt m.bytes 0 1 = 4 →
        (ModeWord.ofNat (natAt m.bytes 12 4)).bad = true ∨ 8388608 < src + 1024 ∨ 8388608 < dst + 1040 → fails (.refSample c e) 1)
    ∧ (m.poison = false → natAt m.bytes 0 1 = 5 → 8388608 < src + 20 → fails (.loadTrim c e) 1)

/-- R87 to R91: the six spire operations, at the head of the spire's queue and with good operands: the results go to the output
address, poisoned as a whole if and only if a byte of an operand is, the selected indices of `TOPK` to theirs, and the command
completes. An INT8 `GEMM` into INT32 at a scale of 1 gives the sums of its products modulo 2^32. The model's own in it: log 9, 133. -/
def Obligations.SpireOperations : Prop :=
  ∀ (s : State) (c : CoreRef) (m : Cmd),
    let v := s.core c.key
    let d := SpireCmd.ofBytes m.bytes
    let pois := fun (a n : Nat) => ∃ b ∈ s.spRead c.key a n, b.2 = true
    let rows := d.m * d.n
    let inA := pois d.a (rows * fmtSize d.fmtA)
    let aux := d.auxAddr ≠ 0
    let runs := fun (i : Instr) (op : Nat) (bad : SpireCmd → Bool) (run : State → Nat → SpireCmd → SpireOut) (poisoned : Prop) =>
      natAt m.bytes 0 1 = op → bad d = false →
        let o := run s c.key d
        (o.poison = true ↔ poisoned) ∧
        let out := (o.elems.flatMap (fun w => leBytes (fmtSize o.fmt) w)).map (fun b => (b, o.poison))
        let idx := (o.index.flatMap (fun i => leBytes 4 i)).map (fun b => (b, o.poison))
        s.gives i (fun t =>
          (t.core c.key).spireDone = some (completionWord 0 0 o.sats false o.poison o.envelope false false, m)
          ∧ (t.core c.key).spireQ = v.spireQ.drop 1
          ∧ (t.core c.key).sp = Scratch.putAll c.key d.auxAddr idx (Scratch.putAll c.key d.c out v.sp))
    c.ok = true → v.stopped = false → v.fenced = false → v.spireDone = none → v.spireQ.head? = some m → m.poison = false →
      v.sp.rewrote = [] →
        runs (.gemm c) 0x10 gemmBad gemm (pois d.a (d.m * d.k * fmtSize d.fmtA) ∨ pois d.b (d.k * d.n * fmtSize d.fmtB)
            ∨ d.accum = true ∧ pois d.c (rows * fmtSize d.fmtC))
        ∧ runs (.vec c) 0x11 vecBad vecRun (inA ∨ d.aux % 16 ≤ 2 ∧ pois d.b (rows * fmtSize d.fmtB) ∨ aux ∧ pois d.auxAddr (d.n * 4))
        ∧ runs (.norm c) 0x12 normBad normRun (inA ∨ pois d.auxAddr (d.n * 4))
        ∧ runs (.softmax c) 0x13 softmaxBad softmaxRun (inA ∨ aux ∧ pois d.auxAddr (rows * 4))
        ∧ runs (.topk c) 0x14 topkBad topkRun inA
        ∧ runs (.narrow c) 0x15 narrowBad narrowRun (pois d.a rows)
        ∧ (gemmBad d = false → d.fmtA = 0 → d.fmtC = 5 → d.accum = false → d.scale = 0x3F800000 →
          let x := fun (a n : Nat) => ((s.spRead c.key a 1).getD n (0, false)).1.toInt
          ∀ i j, i < d.m → j < d.n → (gemm s c.key d).elems.getD (i * d.n + j) 0 = bitsOf 32 (((List.range d.k).map (fun l =>
            x (d.a + i * d.k + l) 0 * x (d.b + (if d.transB = true then j * d.k + l else l * d.n + j)) 0)).sum))

/-- R97, R114, R264, R274, R389: the transfers of the DMA/fill unit, in range and outside the guarded buffers: `FILL` repeats a
pattern, `COPY` moves bytes as through a temporary buffer, `LOAD` brings region bytes to the scratchpad, `STORE` takes whole
codeblocks to a region and a core of copy B does not perform it. A byte that fails a check on the way of a `LOAD` or `STORE`
arrives poisoned. Each completes, marked as poisoned where the bytes it moved read poisoned. The model's own in it: log 166. -/
def Obligations.DmaTransfers : Prop :=
  ∀ (s : State) (c : CoreRef) (m : Cmd) (r : Region) (flips : List (Nat × Nat)),
    let v := s.core c.key
    let d := DmaCmd.ofBytes m.bytes
    let src := d.src % 8388608
    let dst := d.dst % 8388608
    let op := natAt m.bytes 0 1
    let ends := fun (t : State) (poison : Bool) =>
      (t.core c.key).dmaDone = some (completionWord 0 0 0 false poison false false false, m)
      ∧ (t.core c.key).dmaQ = v.dmaQ.drop 1
    let writes := fun (i : Instr) (bytes : List (Byte × Bool)) =>
      dst + bytes.length ≤ 8388608 → v.guarded dst bytes.length = false → s.gives i (fun t =>
        ends t (spPoison bytes) ∧ (t.core c.key).sp = Scratch.putAll c.key dst bytes v.sp)
    let brought := flipped flips (s.regionBytes r (stackOff d.src) d.length)
    c.ok = true → v.stopped = false → v.fenced = false → v.dmaDone = none → v.dmaQ.head? = some m → v.sp.rewrote = [] →
      (op = 0x20 → writes (.fill c) (cleanBytes (patternBytes d.pattern d.length)))
      ∧ (op = 0x21 → src + d.length ≤ 8388608 → writes (.copy c) (s.spRead c.key src d.length))
      ∧ (op = 0x22 → s.coreRegion c.key d.src d.length = some r →
          writes (.loadOp ⟨c, flips⟩) (if d.unpack then unpackNibbles brought else brought))
      ∧ (op = 0x23 → s.coreRegion c.key d.dst d.length = some r → d.length % 2048 = 0 → stackOff d.dst % 2048 = 0 →
          src + d.length ≤ 8388608 →
          let bytes := s.spRead c.key src d.length
          (s.isCopyB c.key = false → s.gives (.storeOp ⟨c, flips⟩) (fun t => ends t (spPoison bytes)
            ∧ ∀ k, ((s.regionWrite r (stackOff d.dst) (flipped flips bytes) (s.corePart c.key)).stack k).mem = (t.stack k).mem))
          ∧ (s.isCopyB c.key = true → s.gives (.storeOp ⟨c, flips⟩) (fun t => ends t (spPoison bytes)
            ∧ t.stackSet = s.stackSet)))

/-! Windows and boundaries. -/

/-- R21 to R23, R119: the boundary. A field whose working cores have all contributed and whose packets have arrived is no longer
awaited; with reports missing at T(n+1) the boundary is held, and no core or field changes but for counters; after 64,000 ns of
hold the fields awaited, none of them halted for debug, are lost; with nothing to wait for, the boundary is declared and window
n + 1 released, its length the planned one. The model's own in it: log 56, 71. -/
def Obligations.BoundaryProceeds : Prop :=
  ∀ (s : State) (f : Nat) (retries : List Nat),
    (s.powered = true → (s.field f).stopArrived = false → s.mod.state ≠ .stopped → f ∈ s.plan.awaiting →
      (∀ k ∈ s.working f, (s.core k).contrib.isSome = true) → (∀ e ∈ s.plan.edges, e.src / 68 ≠ f) →
        s.gives (.doneReport ⟨f, retries⟩) (fun t =>
          t.plan = { s.plan with awaiting := s.plan.awaiting.filter (fun g => g ≠ f) } ∧ t.cores = s.cores
          ∧ (t.field f).workEnd = s.stamp
          ∧ ∀ g, t.field g = { s.field g with ctr := (t.field g).ctr, workEnd := (t.field g).workEnd }))
    ∧ (s.inService = true → s.stopHolds = false → s.plan.released = true →
      (s.plan.holdFrom = none → s.gatherWaits = true → s.plan.tNext.toNat ≤ s.now → s.gives .boundaryHold (fun t =>
        t.plan = { s.plan with holdFrom := some s.plan.tNext, held := true } ∧ t.cores = s.cores ∧ t.fields = s.fields))
      ∧ (∀ h, s.plan.holdFrom = some h → 64000 ≤ s.since h → s.plan.awaiting.any s.fieldHalted = false →
        s.gives .boundaryHoldLimit (fun t => ∀ g ∈ s.plan.awaiting, fieldExists g = true → (t.field g).lost = true))
      ∧ (s.gatherWaits = false → s.plan.tNext.toNat ≤ s.now → s.mod.powerFail = false → s.resetWaiting = none →
          s.boundary.stopDue = false → s.gives .windowRelease (fun t =>
            t.plan.window = s.plan.window + 1 ∧ t.plan.w = s.boundary.plan.wNext ∧ t.plan.holdFrom = none
            ∧ t.plan.tNext = s.boundary.boundaryAfter s.boundary.plan.holdFrom.isSome ∧ t.plan.released = true)))

/-- R247, R379, R380: the messages that a core posts to the signal box. `MARKS` of a slot of the window in progress marks the
core and names its causes at that slot; of another window, of no slot or from a fenced core it is discarded. `GATE` and `UNGATE`
ask for those of their banks that may change at the release of a later window, and change none now. The message is taken. -/
def Obligations.SignalBoxMessages : Prop :=
  ∀ (s : State) (c : CoreRef) (b : List Byte) (retries : List Nat),
    let k := c.key
    let asked := (List.range 8).filter (fun i => bitAt (natAt b 1 1) i)
    let ok := asked.filter (fun i => decide (s.plan.window < natAt b 8 8) && !(s.core k).bankHeld i)
    let asks := fun (i : Instr) (kind : Nat) (gate : Bool) =>
      s.mod.signal.find? (fun m => m.1 = k ∧ natAt m.2 0 1 = kind) = some (k, b) → s.gateStopped = false →
        s.gives i (fun t => t.mod.signal = s.mod.signal.erase (k, b)
          ∧ (t.core k).sp.gateReq = (s.core k).sp.gateReq ++
              (if ok = [] then [] else [(natAt b 8 8, BitVec.ofNat 8 ((ok.map (fun i => 2 ^ i)).sum), gate)])
          ∧ (t.core k).sp.gated = (s.core k).sp.gated)
    asks (.gate c) 0x11 true ∧ asks (.ungate c) 0x12 false
    ∧ (s.mod.signal.find? (fun m => m.1 = k ∧ natAt m.2 0 1 = 0x10) = some (k, b) → s.gateStopped = false →
      (∀ x, s.slotAt k (natAt b 2 2) = some x → natAt b 8 8 = s.plan.window → (s.core k).fenced = false →
        s.gives (.marks ⟨c, retries⟩) (fun t => t.mod.signal = s.mod.signal.erase (k, b) ∧ (t.core k).marked = true
          ∧ ∀ cause ∈ marksCauses (natAt b 4 1), ∃ y ∈ t.plan.slots, y.id = x.id ∧ cause ∈ y.causes))
      ∧ (s.slotAt k (natAt b 2 2) = none ∨ natAt b 8 8 ≠ s.plan.window ∨ (s.core k).fenced = true →
        s.gives (.marks ⟨c, retries⟩) (fun t =>
          t.mod.signal = s.mod.signal.erase (k, b) ∧ t.cores = s.cores ∧ t.plan = s.plan)))

/-- R81, R118, R274, R299, R300, R390, R391, R400: packets between cores. A hand-off packet is taken off those in flight and its
bytes, poisoned where a check failed, are written at its offset of the buffer that fills; a packet of a reduction is added word
by word, those of its line that waited at stations on its way included with their counts, into its line of the destination station's store, which is written and freed once its contributors are complete; at a fence either
is discarded. The first digest of a pair waits for its partner; two that agree leave nothing, two that differ make the slot
suspect and leave a fault record. The model's own in it: log 89, 180. -/
def Obligations.PacketsArrive : Prop :=
  ∀ (s : State) (n : Nat) (e : Edge) (r : RedRec) (d x : DigestMsg) (flips : List (Nat × Nat)) (places : List Nat),
    let others := (((List.range s.plan.edges.length).zip s.plan.edges)).filter (fun x =>
      decide (x.1 ≠ n) && places.contains x.1 && s.meets e x.2)
    let sum := others.foldl (fun e x => e.add x.2) e
    let k := s.physOf e.dest
    let lo := r.offset + (e.offset - r.offset) / 256 * 256
    let len := Nat.min 256 (r.offset + r.length - lo)
    let fresh : StoreLine := { core := e.dest, offset := lo, length := len, need := r.contributors, window := s.plan.window
                               words := List.replicate (len / 4) 0 }
    let old : StoreLine := (((s.field (k / 68)).store ++ (s.field (k / 68)).full).find? (fun l => l.same fresh)).getD fresh
    let bad := old.bad || decide (e.offset ≠ lo) || decide (sum.bytes.length ≠ len) || !(sum.flip flips).bad.isEmpty
      || decide (old.need < old.count + sum.count)
    let words := addWords old.words (payloadWords sum.bytes)
    let line := (words.flatMap (fun w => leBytes 4 w.toNat)).map (fun b => (b, bad))
    let ka := s.physOf d.core
    let agree := digestMismatch d x (s.edition (s.core ka).edition).pairTol
    s.powered = true →
      (s.plan.edges[n]? = some e → s.arrivalHeld e.dest = false → s.inputHeld e.dest e.offset e.bytes.length = false →
        (s.edgeFenced e = false → e.reduce = false → e.offset + e.bytes.length ≤ (s.core k).entry.hoffLen →
          s.gives (.handoffWrite ⟨n, flips, places⟩) (fun t => t.plan.edges = s.plan.edges.eraseIdx n
            ∧ (t.core k).sp = Scratch.putAll k ((s.core k).fillingIn s.plan.window + e.offset) (e.flip flips).data (s.core k).sp
            ∧ ∀ j, j ≠ k → t.core j = s.core j))
        ∧ (s.edgeFenced e = false → e.reduce = true → s.reductionOf e = some r →
            s.gives (.reductionPacket ⟨n, flips, places⟩) (fun t =>
            (others = [] → t.plan.edges = s.plan.edges.eraseIdx n)
            ∧ t.plan.edges.length + others.length + 1 = s.plan.edges.length
            ∧ (old.count + sum.count < old.need → t.cores = s.cores
                ∧ ∃ l ∈ (t.field (k / 68)).store, l.core = e.dest ∧ l.offset = lo ∧ l.window = s.plan.window ∧ l.need = old.need
                  ∧ l.count = old.count + sum.count ∧ l.bad = bad ∧ l.words = words)
            ∧ (old.need ≤ old.count + sum.count → ∀ l ∈ (t.field (k / 68)).store, l.same fresh = false)
            ∧ (old.need ≤ old.count + sum.count → lo + line.length ≤ (s.core k).entry.hoffLen →
                (t.core k).sp = Scratch.putAll k ((s.core k).fillingIn s.plan.window + lo) line (s.core k).sp)))
        ∧ (s.edgeFenced e = true →
          let gone := ({ s with plan := { s.plan with edges := s.plan.edges.eraseIdx n } } : State)
          (e.reduce = false → exec (.handoffWrite ⟨n, flips, places⟩) s = .next gone)
          ∧ (e.reduce = true → exec (.reductionPacket ⟨n, flips, places⟩) s = .next gone)))
      ∧ (s.plan.digests[n]? = some d → s.arrivalHeld d.core = false → d.arrived = false →
        let partner := s.plan.digests.find? (fun x => x.arrived ∧ s.digestPair d x)
        let now := fun (l : List DigestMsg) => ({ s with plan := { s.plan with digests := l } } : State)
        (d.window ≠ s.plan.window → exec (.pairDigest n) s = .next (now (s.plan.digests.eraseIdx n)))
        ∧ (d.window = s.plan.window →
          (partner = none → exec (.pairDigest n) s = .next (now (s.plan.digests.set n { d with arrived := true })))
          ∧ (partner = some x → agree = none →
              exec (.pairDigest n) s = .next (now ((s.plan.digests.eraseIdx n).erase x)))
          ∧ (partner = some x → agree ≠ none → s.gives (.pairDigest n) (fun t =>
              t.plan.digests = (s.plan.digests.eraseIdx n).erase x ∧ t.cores = s.cores
              ∧ (t.mod.faults.getLast?.map FaultRec.kind) = some 0x04
              ∧ ∀ y, s.slotAt ka d.slot = some y → ∃ z ∈ t.plan.slots, z.id = y.id ∧ 0x04 ∈ z.causes))))

/-! Power, temperature and sleep. -/

/-- R226 to R228: the throttle. A current above the planned limit, or a sensor that stays hot, raises t to one more than it was
when the sequence of limit drops in progress began, or than it is where the same event comes again in it, to 7 at most; t is set to fall at a boundary after 10 ms with no trigger, a
low rate and at least 5 working sensors, all cool; the feed's excess power and low voltage raise the reduction R by 600 W, again after a millisecond,
and 100 ms within limits lower it by 600 W. The model's own in it: log 85. -/
def Obligations.ThrottleAndBudget : Prop :=
  ∀ (s : State) (f watts milli : Nat),
    let p := s.power f
    let raised := fun (t : State) (row : Nat) =>
      (t.power f).t = Nat.min 7 (Nat.max p.t (p.baseT row + 1)) ∧ (t.power f).lastTrigger = s.stamp ∧ (t.power f).lowerT = false
      ∧ t.cores = s.cores ∧ ∀ g, g ≠ f → t.field g = s.field g
    (s.runs f = true → s.gives (.currentTrigger f) (raised · rowCurrent))
    ∧ (∀ h, s.runs f = true → p.hotSince = some h → degCode 90 ≤ (s.field f).hottest → 1000000 ≤ s.since h →
        1000000 ≤ s.since p.lastHot → s.gives (.hotSensorStep f) (fun t => raised t rowHot ∧ (t.power f).lastHot = s.stamp))
    ∧ (s.runs f = true → 0 < p.t → 10000000 ≤ s.since p.lastTrigger → 10000000 ≤ s.since p.lastLower →
        p.rate ≤ 800 * (s.budget.rhoPlan : Int) → (s.field f).hottest ≤ degCode 85 → 5 ≤ (s.field f).working.length →
        exec (.throttleRecovery f) s = .next (s.updPower f (fun p => { p with lowerT := true })))
    ∧ (s.powered = true → (∀ h, s.budget.overAt = some h → 1000000 ≤ s.since h) → s.budget.powerLimit < watts →
        exec (.feedPowerOver watts) s =
          .next { s with budget := { s.budget with red := s.budget.red + 600, overAt := some s.stamp } })
    ∧ (s.powered = true → (∀ h, s.budget.lowAt = some h → 1000000 ≤ s.since h) → milli < 48000 → s.gives (.feedLow milli) (fun t =>
        t.budget = { s.budget with red := s.budget.red + 600, lowAt := some s.stamp, feedLow := true }
        ∧ t.cores = s.cores ∧ t.fields = s.fields))
    ∧ (s.powered = true → 100 * watts ≤ 95 * s.budget.powerLimit → 49000 ≤ milli →
        (∀ x ∈ [s.budget.overAt, s.budget.lowAt, s.budget.restoreAt], ∀ h, x = some h → 100000000 ≤ s.since h) →
        exec (.budgetRestore watts milli) s = .next { s with budget := { s.budget with
          red := s.budget.red - 600, restoreAt := some s.stamp, feedLow := false } })

/-- R226, R251, R252: shorts. A fold-back is noted and after 2,000 ns the field is switched off; a short is detected and, once
it has stood for 2,000 ns, either switches the field off or is passed over with t raised; a fold-back that has ended before is
forgotten. A field that is off is declared isolated and lost, and the change waits for the ledger. -/
def Obligations.ShortsIsolateFields : Prop :=
  ∀ (s : State) (f amps milli : Nat),
    let p := s.power f
    let off := fun (t : State) => (t.power f).iso = .off ∧ (t.power f).converterOn = false ∧ (t.field f).fenced = true
      ∧ t.cores = s.cores ∧ ∀ g, g ≠ f → t.field g = s.field g
    (s.runs f = true → exec (.converterFoldBack f) s = .next (s.updPower f (fun p => { p with foldBack := some s.stamp })))
    ∧ (s.runs f = true → p.hard < amps ∨ (milli < 500 ∧ s.railGated f = false) → exec (.shortDetect f amps milli) s = .next (s.updPower f (fun p =>
        { p with iso := .detected, isoAt := s.stamp, isoAmps := amps, isoMilli := milli })))
    ∧ (s.powered = true → fieldExists f = true →
      (∀ h, p.foldBack = some h → 2000 ≤ s.since h → s.gives (.foldBackTimeout f) off)
      ∧ (p.iso = .none →
          exec (.isolationConfirm f false) s = .next (s.updPower f (fun p => { p with foldBack := none })))
      ∧ (p.iso = .detected → 2000 ≤ s.since p.isoAt →
          s.gives (.isolationConfirm f true) off
          ∧ s.gives (.isolationConfirm f false) (fun t => (t.power f).iso = .none ∧ (t.power f).foldBack = none
              ∧ (t.power f).t = Nat.min 7 (Nat.max p.t (p.baseT rowTransient + 1)) ∧ t.cores = s.cores))
      ∧ (p.iso = .off → s.gives (.fieldIsolated f) (fun t => (t.power f).iso = .declared ∧ (t.field f).lost = true
          ∧ ∃ x ∈ t.ledger.waiting, x.kind = jkField ∧ x.key = f ∧ x.what = jwIsolated ∧ x.val = (s.field f).isolations + 1)))

/-- R29, R33, R37, R224, R240: pace, credits, grants, planned columns. A pace measurement, 1,000 ns or more after the last,
gives the field the pace of the slowest of its kept monitors; one below the floor of a field that has work in service asks for
one setpoint more where the field's step allows it, and else the field is lost. A refill, due 100 ns after the last, gives each
powered field a tenth of its allowance, rounded down, up to the allowance, which takes the value decided for it. A rebalance,
due after 100 ms or when the budget or the holding fields have changed, decides for every service field the limits of its grant;
a replan decides the planned column of every service field that runs, and takes one planned above 95 °C to the parked step. The
model's own in it: log 84. -/
def Obligations.PaceAndCredits : Prop :=
  ∀ (s : State) (f m : Nat) (counts : List Nat),
    let v := s.field f
    let p := s.power f
    let pace := fun (m : Nat) => v.scaleNow m * counts.getD m 0 / 40960
    let low := s.serving = true ∧ p.noWork = false ∧ f ∈ s.serviceFields ∧ pace m < p.floor
    let up := p.setpoint < 4 ∧ p.setpoint + 1 ≤ stepSetpoint p.step
    let due := match p.lastRefill with
      | none => s.now / 100 * 100
      | some l => l.toNat + 100
    let hot := degCode 95 < planningCode s.budget.rhoPlan v ∧ p.t < 7 - s.baseStepOf f
    let u : State := { s with plan := { s.plan with
      lastRebalance := some s.stamp, rebalanced := some (s.budget.inForce, s.holdingFields) } }
    (s.runs f = true → (∀ h, p.paceAt = some h → 1000 ≤ s.since h) → counts.length = 16 →
      leastBy pace ((List.range 16).filter (fun m => (v.monitors.find m {}).kept)) = some m →
      (¬ low → s.gives (.paceMeasurement f counts) (fun t => (t.power f).pace = pace m ∧ (t.power f).paceAt = some s.stamp
        ∧ t.cores = s.cores ∧ t.mod = s.mod ∧ ∀ g, g ≠ f → t.field g = s.field g))
      ∧ (low → up → s.gives (.paceMeasurement f counts) (fun t => (t.power f).pace = pace m ∧ (t.power f).paceAt = some s.stamp
        ∧ (t.power f).raised = some (p.setpoint + 1)
        ∧ ((t.power f).drops.head?.map Drop.limits) = some { p.limits with setpoint := p.setpoint + 1 }
        ∧ (t.mod.faults.getLast?.map FaultRec.kind) = some 0x09 ∧ t.cores = s.cores ∧ ∀ g, g ≠ f → t.field g = s.field g))
      ∧ (low → ¬ up → fieldExists f = true → s.gives (.paceMeasurement f counts) (fun t => (t.field f).lost = true)))
    ∧ (s.powered = true → s.clock.running = true → s.gives .creditRefill (fun t => t.cores = s.cores
        ∧ (f ∈ allFields → p.converterOn = true → due ≤ s.now → t.power f = { p with
            allow := p.allowNext, bucket := Nat.min p.allowNext (p.bucket + p.allowNext / 10)
            lastRefill := some (BitVec.ofNat 64 due) })
        ∧ (p.converterOn = false ∨ s.now < due ∨ f ∉ allFields → t.power f = p)))
    ∧ (s.serving = true →
        ((∀ h, s.plan.lastRebalance = some h → 100000000 ≤ s.since h)
            ∨ s.plan.rebalanced ≠ some (s.budget.inForce, s.holdingFields) →
          s.gives .grantRebalance (fun t => t.plan.lastRebalance = some s.stamp
            ∧ t.plan.rebalanced = some (s.budget.inForce, s.holdingFields) ∧ t.cores = s.cores
            ∧ ∀ g ∈ s.serviceFields, (t.power g).nextLimits = u.target g (u.grantOf g)))
        ∧ (s.stopHolds = false → s.gives .replan (fun t => t.plan.lastReplan = some s.stamp
            ∧ (f ∈ s.serviceFields → s.runs f = true →
                (hot → (t.power f).t = 7 - s.baseStepOf f) ∧ (¬ hot → (t.power f).nextLimits.band = s.bandNow f))))
        ∧ (s.stopHolds = true → exec .replan s = .next s))

/-- R237: a conversion of 2^n samples gives the smaller of 0xFFFF and their sum shifted right, `sat` when the limit applies, and
with a shift of n the mean, a 12-bit code. R234 to R239, R241: the belfry at work. A round, due 128 µs after the last, stamps
sixteen results and the readings of the sensors, and a field in service that it leaves with fewer than five working sensors, not
hot enough to be isolated, is lost; `blf_sw` is written by command and, with `start`, queues a conversion, as does the good
request of a core for its result word; a ninth conversion and a request that is not good are discarded. A finished conversion
goes to `blf_sw_res` or to that word; an urgent one gives its channel's result. -/
def Obligations.BelfryConverts : Prop :=
  ∀ (s : State) (f : Nat) (sums : List Nat) (h : Hdr) (w : Word) (channel avg shift sum k : Nat) (b : List Byte)
    (rest : List (Nat × List Byte)) (q : SwConv) (qs : List SwConv),
    let v := s.field f
    let seq := v.belfry.swSeq + 1
    let v1 := v.afterRound sums s.stamp
    let asks := natAt b 0 1 = 0x20 ∧ s.resultAddrOk k (natAt b 4 4) = true
    let conv : SwConv := { channel := natAt b 1 1 % 16, avg := Nat.max 1 (Nat.min 8 (natAt b 2 1)), shift := Nat.min 8 (natAt b 3 1)
                           core := some (k % 68), addr := natAt b 4 4 }
    (shift ≤ 8 → (blfResult sum shift seq).result.toNat = Nat.min 0xFFFF (sum >>> shift)
      ∧ (blfResult sum shift seq).sat = decide (0xFFFF < sum >>> shift) ∧ (blfResult sum shift seq).seq = seq
      ∧ (blfResult sum shift seq).valid = true
      ∧ (sum ≤ 2 ^ shift * 4095 → (blfResult sum shift seq).result.toNat = sum / 2 ^ shift
          ∧ (blfResult sum shift seq).result.toNat ≤ 4095 ∧ (blfResult sum shift seq).sat = false))
    ∧ (s.powered = true → fieldExists f = true → v.brought = true → v.belfry.stamp = 0 ∨ 128000 ≤ s.since v.belfry.stamp →
      sums.length = 16 → (∀ x ∈ sums, x ≤ 16 * 4095) → v.sleep ≠ .cold ∨ v.wakeAt ≠ none →
      v.power.iso ≠ .off → v.power.iso ≠ .declared →
        (5 ≤ v1.working.length ∨ s.serving = false → s.gives (.belfryRound f sums) (fun t =>
          (t.field f).belfry = v1.belfry ∧ (t.field f).sensors = v1.sensors ∧ t.cores = s.cores))
        ∧ (v1.working.length < 5 → s.serving = true → v.power.converterOn = true → v1.hottest < degCode 105 →
            v.roundRate v1 sums s.now ≤ 320000 → s.gives (.belfryRound f sums) (fun t => (t.field f).lost = true)))
    ∧ (s.accepts h rowHlBelfryWrite true → fieldExists f = true → s.gives (.blfSwStart h f w) (fun t =>
        (t.field f).belfry.sw = w &&& 0x00000FFF ∧ t.replied s h rowHlBelfryWrite 0x00
        ∧ (t.field f).belfry.swQueue = v.belfry.swQueue ++
            (if w.getLsbD 12 = true ∧ v.belfry.swQueue.length < 8 then [swConv w] else []) ∧ t.cores = s.cores))
    ∧ (v.blfInbox = (k, b) :: rest → s.gives (.belfryConversionRequest f) (fun t => (t.field f).blfInbox = rest
        ∧ (asks → v.belfry.swQueue.length < 8 → (t.field f).belfry.swQueue = v.belfry.swQueue ++ [conv])
        ∧ (¬ asks ∨ 8 ≤ v.belfry.swQueue.length → (t.field f).belfry = v.belfry) ∧ t.cores = s.cores))
    ∧ (v.belfry.swQueue = q :: qs → s.powered = true → v.sleep ≠ .cold → sum ≤ 2 ^ q.avg * 4095 →
        s.gives (.softwareConversionDone f sum) (fun t =>
          (t.field f).belfry.swQueue = qs ∧ (t.field f).belfry.swSeq = seq
          ∧ (q.core = none → (t.field f).belfry.swRes = blfResult sum q.shift seq ∧ t.cores = s.cores)
          ∧ ∀ n, q.core = some n → (t.core (coreKey f n)).sp = Scratch.putAll (coreKey f n) q.addr
              ((leBytes 4 (blfResult sum q.shift seq).word.toNat).map (fun x => (x, false))) (s.core (coreKey f n)).sp))
    ∧ (s.powered = true → fieldExists f = true → v.sleep ≠ .cold → channel < 16 → avg ≤ 8 → sum ≤ 2 ^ avg * 4095 →
        exec (.urgentConversion f channel avg shift sum) s = .next (s.updField f (fun v => { v with belfry := { v.belfry with
          urgent := v.belfry.urgent.put channel (blfResult sum shift 0).result } })))

/-- R100, R244 to R246: sleep. A field whose entry time has passed is in its state, unless a wake is wanted, which then begins;
one that goes COLD loses its scratchpads and stores and has no rail, and one that a stack's link has come to meanwhile stays in
the state it was in. A wake from DIM or deeper switches the rail on and takes its time, one from IDLE is at once, one during an
entry waits for it; a field DARK for a minute is woken for one scrub pass, and a wake for work in that time goes on to LIT. A
wake for a known event starts once the event is no further away than the wake takes and 1,000 ns. A field whose wake time has
passed, after COLD with a belfry round since, is LIT, or DIM for the pass. The model's own in it: log 1, 131, 196. -/
def Obligations.SleepAndWake : Prop :=
  ∀ (s : State) (f : Nat) (z : Sleep) (at' : U64),
    let v := s.field f
    let wake := fun (z : Sleep) => some (BitVec.ofNat 64 (s.now + z.wakeNs v.resident))
    s.powered = true → s.mod.powerFail = false → s.mod.state ≠ .stopped → fieldExists f = true → v.power.iso ≠ .off →
      v.power.iso ≠ .declared →
      (v.sleepTo = some (z, at') → at'.toNat ≤ s.now →
        (z = .cold → s.stackField f = true → s.gives (.sleepEntryDone f) (fun t =>
          (v.wakeWanted = false → (t.field f).sleep = v.sleep) ∧ (t.field f).sleepTo = none ∧ (t.field f).wakeWanted = false
          ∧ t.cores = s.cores))
        ∧ (v.wakeWanted = false → (z = .cold → s.stackField f = false) → s.gives (.sleepEntryDone f) (fun t =>
          (t.field f).sleep = z ∧ (t.field f).sleepTo = none ∧ (t.field f).darkSince = s.stamp
          ∧ (z = .cold → (t.power f).converterOn = false
              ∧ ∀ n, n < 68 → (t.core (coreKey f n)).sp.mem = {} ∧ (t.core (coreKey f n)).prog = .empty
                ∧ (t.core (coreKey f n)).cmds = .empty)
          ∧ (z ≠ .cold → t.cores = s.cores)))
        ∧ (v.wakeWanted = true → v.wakeAt = none → z ≠ .lit → (z = .cold → s.stackField f = false) → s.gives (.sleepEntryDone f) (fun t => (t.field f).sleepTo = none
          ∧ (z = .idle → (t.field f).sleep = .lit)
          ∧ (z ≠ .idle → (t.field f).sleep = z ∧ (t.field f).wakeAt = wake z ∧ (t.power f).converterOn = true))))
      ∧ (v.wakeAt = none →
        (v.sleepTo = none → v.sleep = .idle → s.wakeDue f = true → s.gives (.fieldWake f) (fun t =>
            (t.field f).sleep = .lit ∧ (t.field f).wakeAt = none))
        ∧ (v.sleepTo = none → v.sleep ≠ .lit → v.sleep ≠ .idle → s.wakeDue f = true → s.gives (.fieldWake f) (fun t =>
            (t.power f).converterOn = true ∧ (t.field f).wakeAt = wake v.sleep ∧ (t.field f).sleep = v.sleep))
        ∧ (v.sleepTo ≠ none → s.wakeDue f = true → s.gives (.fieldWake f) (fun t => (t.field f).wakeWanted = true ∧ (t.field f).sleepTo = v.sleepTo))
        ∧ (v.sleepTo = none → v.sleep = .dark → darkScrubNs ≤ s.since v.darkSince → s.gives (.darkScrubWake f) (fun t =>
            (t.field f).scrubWake = true ∧ (t.field f).wakeAt = wake .dark ∧ (t.power f).converterOn = true)))
      ∧ (v.wakeAt = some at' → v.sleep ≠ .lit → s.wakeDue f = true → s.gives (.fieldWake f) (fun t => (t.field f).scrubWake = false
          ∧ (t.field f).wakeAt = some at'))
      ∧ (v.wakeAt = some at' → at'.toNat ≤ s.now → v.roundSince at' = true → s.gives (.fieldAwake f) (fun t =>
          (t.field f).sleep = (if v.scrubWake then .dim else .lit) ∧ (t.field f).wakeAt = none))

/-! The ledger, ageing, trims, refresh. -/

/-- R159, R161, R168, R178 to R180: the ledger. A commit of the counters writes a record for each powered field and the header,
and the counters gain the whole seconds gone by. A snapshot, due each day or with the journal three quarters full, is begun with
the ledger's contents, and then stands signed in the other slot, with the owner and the firmware image that waited, the journal
going on with its later entries. The oldest waiting change is written to the journal and takes effect. A rebuilt copy is the
ledger's again. Ageing adds the factor of its temperature to the accumulator of each field not aged within the last second,
modulo 2^64; an array past due is reported again after a day. The model's own in it: log 1, 123, 126, 141. -/
def Obligations.LedgerAndAgeing : Prop :=
  ∀ (s : State) (f e a : Nat) (c : CoreRef) (x : JournalChange) (rest : List JournalChange) (digest conn g : Nat) (tag : Word)
    (t0 : U64) (img : FwImage) (fwTail : Bool × Nat × Word), s.powered = true → s.mod.powerFail = false →
      let l := s.ledger
      let later := l.entries.filter (fun r => decide ((l.slots.getD l.slot {}).last < r.seq))
      let aged := (s.field f).agedAt = none ∨ ∃ u, (s.field f).agedAt = some u ∧ 1000000000 ≤ s.since u
      let k := arrayKeyCore x.key
      let arr := fun (t : State) => t.array k (arrayKeyEngine x.key) (arrayKeyArray x.key)
      (s.clock.running = true → l.writable = true → s.gives .ledgerCounterCommit (fun t =>
        let secs := s.since l.counterAt / 1000000000
        t.ledger.poweredS = l.poweredS + secs ∧ t.ledger.counterAt = BitVec.ofNat 64 (l.counterAt.toNat + secs * 1000000000)
        ∧ t.ledger.journal = l.journal + s.poweredFields.length + 1
        ∧ (f ∈ allFields → (s.power f).converterOn = true →
            t.field f = { s.field f with poweredS := (s.field f).poweredS + secs, ageKept := (s.field f).ageAcc })
        ∧ ((s.power f).converterOn = false → t.field f = s.field f)))
      ∧ (l.writable = true → l.snapping = false → 86400 * 1000000000 ≤ s.since l.snapAt ∨ 24576 ≤ l.journal →
          s.gives .ledgerSnapshot (fun t => t.ledger.snapping = true ∧ t.cores = s.cores ∧ t.ledger.entries = l.entries
            ∧ t.ledger.snapNext = { seq := l.snapSeq + 1, last := Nat.max l.seqA l.seqB, body := s.slotBody, owner := ownerArea l.ownerDue }
            ∧ ((∀ y ∈ l.arraysOf (slotArrays (1 - l.slot)), (s.array y.2.1 y.2.2.1 y.2.2.2).wear < 100000) →
                ∀ y ∈ l.arraysOf (slotArrays (1 - l.slot)), t.arrayWaits y.2.1 y.2.2.1 y.2.2.2 jwCycle = true)))
      ∧ (l.writable = true → l.snapping = true → s.slotWears = true → exec .ledgerSnapshotDone s = .next s)
      ∧ (l.writable = true → l.snapping = true → s.slotWears = false → s.gives .ledgerSnapshotDone (fun t =>
          t.ledger.snapping = false ∧ t.ledger.slot = 1 - l.slot ∧ t.ledger.snapSeq = l.snapSeq + 1
          ∧ t.ledger.slots = l.slots.set (1 - l.slot) l.snapNext.signed ∧ t.ledger.entries = later
          ∧ t.ledger.journal = (l.entries.filter (fun r => decide (l.snapNext.last < r.seq))).length ∧ t.ledger.snapAt = s.stamp
          ∧ (l.ownerNext = none ∨ l.whole = false → t.ledger.owner = l.owner ∧ t.ledger.ownerNext = l.ownerNext)
          ∧ (l.ownerNext = some (digest, conn, tag) → l.whole = true → t.ledger.owner = digest ∧ t.ledger.ownerNext = none
              ∧ (l.fwNext = none → t.ledger.ownerSeq = l.ownerSeq + 1))
          ∧ (l.fwNext = none → t.ledger.fw = l.fw)
          ∧ (l.fwNext = some (img, fwTail) → t.ledger.fw = l.fw.set (1 - l.slot) img
              ∧ t.ledger.fwNext = if l.whole then none else l.fwNext)))
      ∧ (l.writable = true → l.waiting = x :: rest → s.gives .ledgerCommit (fun t => t.ledger.journal = l.journal + 1
          ∧ (x.kind ≠ jkArray → (Nat.max l.seqA l.seqB + 1) % 1024 ≠ 1000 → t.ledger.waiting = rest)
          ∧ (x.kind = jkField → (t.field x.key).ageKept = (s.field x.key).ageAcc
              ∧ (x.what = jwIsolated → (t.field x.key).isolations = x.val ∧ (t.field x.key).role = .isolated))
          ∧ (x.kind = jkCore → x.what = jwEmap → t.ledger.emapNext = l.emapNext ++ [(x.key, x.vals)])
          ∧ (x.kind = jkCore → x.what = jwCoreState → (t.core x.key).failed = decide (x.val ≠ 0))
          ∧ (x.kind = jkRelocation → t.ledger.relocNext = l.relocNext ++ [(x.key, x.val)])
          ∧ (x.kind = jkStuck → t.ledger.stuckList = l.stuckList ++ [(x.key, x.vals.getD 0 0, x.vals.getD 1 0)])
          ∧ (x.kind = jkArray → k % 68 < 66 →
              (x.what = jwCycle → arr t = { arr s with wear := (arr s).wear + 1 })
              ∧ (x.what = jwRaise → arr t = { arr s with
                  wear := (arr s).wear + 1, job := x.val, jobTwice := false, jobRows := [], reprog := [], verified := [] })
              ∧ (x.what = jwStamp → arr t = { arr s with stamp := x.val, refOpen := false, refDue := false, overdueAt := none }))))
      ∧ (l.rebuildB = some g → s.gives (.ledgerCopyRebuilt true) (fun t =>
          t.ledger.copyB = some g ∧ t.ledger.seqB = l.seqA ∧ (t.field g).ledgerCopy = 2
          ∧ (l.ownerNext = none → l.fwNext = none → t.ledger.lostB = false ∧ t.ledger.snapping = l.snapping)
          ∧ ((l.ownerNext ≠ none ∨ l.fwNext ≠ none) → l.copyA.isSome = true → l.lostA = false → t.ledger.snapping = true)))
      ∧ (l.rebuildA = some g → s.gives (.ledgerCopyRebuilt false) (fun t =>
          t.ledger.copyA = some g ∧ t.ledger.seqA = l.seqB ∧ (t.field g).ledgerCopy = 1
          ∧ (l.ownerNext = none → l.fwNext = none → t.ledger.lostA = false ∧ t.ledger.snapping = l.snapping)
          ∧ ((l.ownerNext ≠ none ∨ l.fwNext ≠ none) → l.copyB.isSome = true → l.lostB = false → t.ledger.snapping = true)))
      ∧ (s.clock.running = true → s.gives .ageAccumulate (fun t =>
          (f ∈ allFields → aged → t.field f = { s.field f with
            ageAcc := ((s.field f).ageAcc + ageFactor (s.ageTemp f)) % 2 ^ 64, agedAt := some s.stamp })
          ∧ (f ∉ allFields ∨ ¬ aged → t.field f = s.field f)))
      ∧ (c.ok = true → (s.array c.key e a).refDue = true → s.holdsWeights c.key e = true →
          (s.array c.key e a).overdueAt = some t0 → 86400 * 1000000000 ≤ s.since t0 → s.gives (.refreshOverdue c e a) (fun t =>
            t.array c.key e a = { s.array c.key e a with overdueAt := some s.stamp } ∧ ∀ j, j ≠ c.key → t.core j = s.core j))

/-- R39, R143, R156, R164, R165, R169, R170: trims and rows. A trim pass takes credits held back, over several windows where one
does not hold enough; its first pass loads the fitted trims, the second keeps them and puts them to the ledger. A refresh,
proposed to the control node or next in the order of the hardware, starts on a free spare with a new job; once the spare has
settled, rows off target are programmed again, and with none it is trimmed or, its trims taken, the engine map waits for its
commit. A settled row that reads back well, or has been programmed again, is verified, its stuck cells noted; one that does not
is programmed again. A reload of a forerunner layer in its span is noted and takes a job. The model's own in it: log 28, 121, 132, 143, 146.
-/
def Obligations.RefreshAndTrims : Prop :=
  ∀ (s : State) (c : CoreRef) (e a row ed layer p : Nat) (r : Refresh) (bad : List (Nat × Nat × Nat)) (off stuck : List (Nat × Nat)),
    s.powered = true → c.ok = true →
    let k := c.key
    let v := s.array k e a
    let g := s.engine k e
    let n := v.sampleFirings.length
    let held := (s.power c.field).bucket
    let take := Nat.min (n - v.samplePaid) (if s.serving then Nat.min held (s.heldLeft c.field) else held)
    let fitted := trimAfter v.trim (trimFit s.free v)
    let again := v.reprog.contains row = true
    let part := (s.edition (s.core k).edition).partition
    let idle : State := s.updEngine k e (fun v => { v with refresh := none })
    let starts := s.gives (.engineRefresh c e) (fun t => t.ledger.nextJob = s.ledger.nextJob + 1
      ∧ ((t.engine k e).refresh.map Refresh.spare) = some p
      ∧ (((t.engine k e).refresh.map Refresh.phase) = some 1 ∨ ((t.engine k e).refresh.map Refresh.phase) = some 3)
      ∧ ((t.engine k e).refresh.map Refresh.job) = some s.ledger.nextJob)
    let trims := ∀ x ∈ (s.engine k r.spare).arrays.vals, x.trimmed = true ∨ x.state = 1 ∨ x.state = 2
    (e < 18 → a < 8 → v.state ≠ 1 → v.state ≠ 2 → g.fenced = false → (s.field c.field).fenced = false → g.queue.length < 4 →
      v.samplePass = false ∨ v.shadow = none → v.reload = false ∨ s.spanEarly k e = false →
      ((s.field c.field).awake = false → exec (.trimSample c e a) s = .next (s.beginWake c.field))
      ∧ ((s.field c.field).awake = true → v.samplePaid + take < n → s.gives (.trimSample c e a) (fun t =>
          (t.power c.field).bucket = held - take ∧ t.array k e a = { v with samplePaid := v.samplePaid + take }))
      ∧ ((s.field c.field).awake = true → n ≤ v.samplePaid + take → s.gives (.trimSample c e a) (fun t =>
          (t.power c.field).bucket = held - take ∧ (t.array k e a).samplePaid = 0 ∧ (t.array k e a).trim = v.trim
          ∧ (v.samplePass = false → v.reload = false →
              (t.array k e a).samplePass = true ∧ (t.array k e a).shadow = some (fitted, v.progMap))
          ∧ (v.samplePass = true ∨ v.reload = true →
              (t.array k e a).samplePass = false ∧ (t.array k e a).trimmed = true ∧ (t.array k e a).sampled = fitted
              ∧ ∃ x ∈ t.ledger.waiting,
                  x.kind = jkArray ∧ x.key = arrayKey k e a ∧ x.what = jwTrim ∧ x.val = fitted.toNat))))
    ∧ (s.holdsWeights k e = true → g.refreshOpen = true →
      (g.refresh = none → s.assisted part 4 = false → s.hwNext k e = true → s.freeSpare k = some p → starts)
      ∧ (g.refresh = none → s.assisted part 4 = true → s.assistRoom part = false → s.freeSpare k = some p → starts)
      ∧ (g.refresh = none → s.assisted part 4 = true → s.assistRoom part = true → s.gives (.engineRefresh c e) (fun t =>
          (t.engine k e).refresh = some { assist := some s.alaok.nextAssist.toNat, startAt := s.stamp } ∧ t.ledger = s.ledger))
      ∧ (g.refresh = some r → r.phase = 0 → r.assist = none →
          r.startAt.toNat ≤ s.now ∨ g.arrays.vals.any (fun a => a.refDue) = true → idle.freeSpare k = some p → starts))
    ∧ (g.refresh = some r → r.phase = 4 → r.settleAt.toNat ≤ s.now →
      ((s.field c.field).awake = false → exec (.refreshSettleDone c e bad) s = .next (s.beginWake c.field))
      ∧ ((s.field c.field).awake = true → bad ≠ [] → (s.rowsOf k r.spare).isSome = true → s.gives (.refreshSettleDone c e bad) (fun t =>
          ((t.engine k e).refresh.map Refresh.phase) = some 5))
      ∧ ((s.field c.field).awake = true → s.refreshOwner k r.spare = some (e, r) → s.asked k r.spare = false → r.spare ≠ e →
          (s.engine k r.spare).rowsLeft = [] → (s.engine k r.spare).agentBusy = false →
          (¬ trims → s.gives (.refreshSettleDone c e []) (fun t => ((t.engine k e).refresh.map Refresh.phase) = some 6))
          ∧ (trims → r.inPlace = false → s.gives (.refreshSettleDone c e []) (fun t =>
              ((t.engine k e).refresh.map Refresh.phase) = some 7
              ∧ ∃ x ∈ t.ledger.waiting, x.kind = jkCore ∧ x.key = k ∧ x.what = jwEmap
                  ∧ x.vals = (s.core k).emap.map (fun y => if y = e then r.spare else y)))))
    ∧ (e < 18 → a < 8 → v.reload = false → v.jobRows.contains row = true → v.verified.contains row = false →
        g.rowsLeft.any (fun r => r.2.1 = 1024 * a + row) = false → g.agentBusy = false →
        again ∨ settleNs ≤ s.since (v.progAt.find row 0) →
        (off = [] ∨ again → s.gives (.rowReverify c e a row off stuck) (fun t =>
          (t.array k e a).stuck = (stuck ++ (if v.reprog.contains row then off else [])).foldl
            (fun m x => m.put (row * 1040 + x.1) (BitVec.ofNat 8 x.2)) v.stuck
          ∧ ((∀ o, s.refreshOwner k e ≠ some o ∨ o.2.phase ≠ 5) → (t.array k e a).verified = insertNat row v.verified)))
        ∧ (off ≠ [] → ¬ again → exec (.rowReverify c e a row off stuck) s =
            .next (s.queueRows k e v.job [(1024 * a + row, v.rowBytes v.progMap row)])))
    ∧ (s.serving = true → (s.edition ed).kind = .forerunner →
        (s.edition ed).state = .ready ∨ (s.edition ed).state = .current ∨ (s.edition ed).state = .retained
          ∨ (s.edition ed).state = .retiring → s.spanOpen ed layer = true →
        s.gives (.forerunnerReload ed layer) (fun t =>
          (layer, s.stamp) ∈ (t.edition ed).reloads ∧ t.ledger.nextJob = s.ledger.nextJob + 1))

/-! Scrub, patrol, remaps, fills, clears. -/

/-- R98, R99, R270, R271: background work. A scrub pass rewrites what it read corrected and a patrol reads its codeblock, and
both stamp what they read; when the copy of a hard-failed line or granule completes, its entry leaves the copies in progress and
waits for its release, that of a line with a change to the ledger. The model's own in it: log 32. -/
def Obligations.BackgroundRepairs : Prop :=
  ∀ (s : State) (c : CoreRef) (line k cb g : Nat) (r : Remap) (e : GranMap),
    let p := (s.core c.key).sp
    (c.ok = true → line < 32768 → s.powered = true → (s.field c.field).scrubRuns = true →
      p.scrubs line = true → s.gives (.scrubPass c line) (fun t =>
        (t.core c.key).sp.scrubbed.find? line = some s.stamp ∧ (∀ j, j ≠ c.key → t.core j = s.core j)
        ∧ (p.rewrote = [] → (t.core c.key).sp.mem =
            (((List.range 256).zip (p.view c.key (line * 256) 256)).foldl (fun (q : Scratch) b =>
              q.rewrite (line * 256 + b.1) b.2) p).mem)))
    ∧ (p.copying.find? (fun x => x.line = line) = some r → c.ok = true → s.powered = true →
        s.gives (.lineRemapCopyDone c line) (fun t =>
          (∀ x ∈ (t.core c.key).sp.copying, x.line ≠ line)
          ∧ (p.rewrote = [] → (t.core c.key).sp.copying = p.copying.filter (fun x => x.line ≠ line))
          ∧ (t.core c.key).sp.waiting = p.waiting ++ [r] ∧ (t.core c.key).sp.remap = p.remap
          ∧ t.ledger.waiting = s.ledger.waiting ++ [{ kind := jkCore, key := c.key, what := jwRemap, vals := [line, r.spare] }]
          ∧ ∀ j, j ≠ c.key → t.core j = s.core j))
    ∧ (k < 24 → s.stackBackground k = true →
      (s.allRegions.any (fun r => r.inited && !r.void && r.covers k (cb / cbPerExtent)) = true → s.gives (.patrol k cb) (fun t =>
        (t.stack k).patrolled.find? cb = some s.stamp ∧ t.cores = s.cores))
      ∧ ((s.stack k).copying.find? (fun x => x.granule = g) = some e → s.gives (.granuleRemap k g) (fun t =>
          (t.stack k).copying = (s.stack k).copying.filter (fun x => x.granule ≠ g)
          ∧ (t.stack k).waiting = (s.stack k).waiting ++ [e] ∧ (t.stack k).remap = (s.stack k).remap ∧ t.cores = s.cores
          ∧ ∀ j, j ≠ k → t.stack j = s.stack j)))

/-- R257, R262, R352, R353: fills and clears. The fill of a region that completes in its turn has written zeros, and the region
is initialised, the share of a lost stack counted as void writes; a cleared extent is zero and free; a core that changes owner,
once its field is awake, takes a repair job, asks for the wear raise of each of its working arrays, then has each programmed to
level 8 and keeps nothing of its stores and scratchpad, and is free once the trims of those arrays are sampled; a stack's
failover ends with the other link active. The model's own in it: log 1, 122, 149, 196. -/
def Obligations.FillsAndClears : Prop :=
  ∀ (s : State) (c : CoreRef) (p sel k x conn : Nat) (tag : Word) (r : Region),
    let zeros := fun (t : State) (e : Nat × List Nat) =>
      if (t.stack e.1).link = .lost then
        t.updStack e.1 (fun u => { u with voidWrites := u.voidWrites + e.2.length * cbPerExtent })
      else e.2.foldl (fun (t : State) x => t.zeroAt e.1 x (some p)) t
    ((s.part p).regions.find? sel = some r → r.filling = some (conn, tag) → s.powered = true → s.stopHolds = false →
      s.fillTurn r = true → (∀ n ∈ r.stackSet, (s.stack n).void = false ∨ (s.stack n).link = .lost) → s.gives (.regionFillDone p sel) (fun t =>
        (t.part p).regions.find? sel = some { r with inited := true, filling := none } ∧ t.cores = s.cores
        ∧ t.stackSet = ((r.stackSet.zip r.extents).foldl zeros s).stackSet))
    ∧ (k < 24 → s.stackBackground k = true → (s.stack k).clearing.contains x = true → s.gives (.extentCleared k x) (fun t =>
        x ∉ (t.stack k).clearing ∧ x ∉ (t.stack k).used ∧ (t.stack k).mem = ((s.stack k).zeroExtent x).mem
        ∧ (∀ j, j ≠ k → t.stack j = s.stack j) ∧ t.cores = s.cores))
    ∧ (c.ok = true → s.powered = true → (s.core c.key).clearing = true →
      ((s.field c.field).awake = false → exec (.coreClear c) s = .next (s.beginWake c.field))
      ∧ ((s.field c.field).awake = true → (s.core c.key).clearDone = false → (s.core c.key).clearJob = none →
          s.gives (.coreClear c) (fun t => (t.core c.key).clearJob = some s.ledger.nextJob ∧ (t.core c.key).sp = (s.core c.key).sp
            ∧ (∀ e a, t.array c.key e a = s.array c.key e a) ∧ ∀ j, j ≠ c.key → t.core j = s.core j))
      ∧ (∀ job, (s.field c.field).awake = true → (s.core c.key).clearDone = false → (s.core c.key).clearJob = some job →
          ((s.power c.field).conc = 0 → exec (.coreClear c) s = .next s)
          ∧ ((s.power c.field).conc ≠ 0 → (∃ e a, e < 18 ∧ a < 8 ∧ (s.array c.key e a).state = 0 ∧ (s.array c.key e a).job ≠ job) →
            s.gives (.coreClear c) (fun t => t.cores = s.cores ∧ ∀ e a, e < 18 → a < 8 → (s.array c.key e a).state = 0 →
              (s.array c.key e a).job ≠ job → t.arrayWaits c.key e a jwRaise = true ∨ t.arrayWaits c.key e a jwRaise2 = true
                ∨ t.arrayWaits c.key e a jwState = true))
          ∧ ((s.power c.field).conc ≠ 0 →
            (∀ e a, e < 18 → a < 8 → (s.array c.key e a).state = 0 → (s.array c.key e a).job = job) →
            (∀ e, e < 18 → (s.engine c.key e).agentBusy = false) → s.gives (.coreClear c) (fun t =>
              let v := t.core c.key
              v.clearing = true ∧ v.clearDone = true ∧ v.sp.mem = {} ∧ v.sp.filled = true ∧ v.sp.written = []
              ∧ v.sp.voidBanks = (s.core c.key).sp.gated ∧ v.prog = .empty ∧ v.progFill = 0 ∧ v.cmds = .empty ∧ v.residents = []
              ∧ v.edition = 0
              ∧ (∀ e a, e < 18 → a < 8 → t.array c.key e a =
                  if (s.array c.key e a).state = 0 then (s.array c.key e a).cleared s.stamp else s.array c.key e a)
              ∧ ∀ j, j ≠ c.key → t.core j = s.core j)))
      ∧ ((s.field c.field).awake = true → (s.core c.key).clearDone = true →
          ((∀ e a, e < 18 → a < 8 → (s.array c.key e a).state = 0 → (s.array c.key e a).trimmed = true) →
            s.gives (.coreClear c) (fun t => (t.core c.key).clearing = false))
          ∧ ((∃ e a, e < 18 ∧ a < 8 ∧ (s.array c.key e a).state = 0 ∧ (s.array c.key e a).trimmed = false) →
            exec (.coreClear c) s = .next s)))
    ∧ (k < 24 → s.powered = true → (s.stack k).switchAt.isSome = true → (s.stack k).link ≠ .lost →
        (s.field (s.otherAttach k)).fenced = false → (s.field (s.otherAttach k)).sleep ≠ .cold →
        s.gives (.stackFailover k) (fun t => t.stack k = { s.stack k with
            switchAt := none, link := if (s.stack k).link = .home then .alternate else .home }
          ∧ (∀ j, j ≠ k → t.stack j = s.stack j) ∧ t.cores = s.cores))

/-! Serving. -/

/-- R184, R185, R192, R205, R323, R336: admission. A good descriptor, one that ships its request included, that the arithmetic
accepts, in a partition that decides admissions itself: the entry is ADMITTED with its pages, its period and its first window,
and the reply is `ACCEPTED` under the new tag; one that it refuses is answered with its status; in a partition that asks, the
control node is asked, and nothing is opened. A receiving entry is opened in `kv_wait`, with no visits and no promise, and its
tag goes to the control node; without an entry or pages it is refused. The model's own in it: log 32, 103, 104. -/
def Obligations.RequestsAreAdmitted : Prop :=
  (∀ (s : State) (h : Hdr) (d : Desc) (i period w0 tft st missing : Nat) (pages : List Nat) (l : List (Nat × Nat)),
      let u := s.taken h rowSvAdmit
      let p := h.partition.toNat
      let ed := u.editionFor p d
      let cls := u.classOf p d.cls.toNat
      s.accepts h rowSvAdmit (h.length = 128) (descFields d) → u.editionBad p d = none → u.descBad p ed d true = false →
        (d.ship = true → RouteRec.idBad s.fabric.route (shipModule d) = false ∧ 3 ≤ s.fabric.peers.find (shipModule d) 0) →
        (u.assisted p 1 = false → u.admission p d cls 0 = .ok i pages period l w0 tft →
          s.gives (.svAdmit h d) (fun t =>
            (t.req i).state = .admitted ∧ (t.req i).desc = d ∧ (t.req i).edition = ed ∧ (t.req i).pages = pages
            ∧ (t.req i).cls = cls ∧ (t.req i).period = period ∧ (t.req i).prefill = l ∧ (t.req i).nextVisit = w0
            ∧ (t.req i).gen = (s.req i).gen ∧ (∀ j, j ≠ i → t.req j = s.req j)
            ∧ t.sent h.conn 2 { s.reply h rowSvAdmit stAccepted true 0
                (admitBody d period u.aheadW tft (u.betweenOf ed cls period) 0) with reqTag := tagOf i (s.req i).gen }))
        ∧ (u.assisted p 1 = false → u.admission p d cls 0 = .refuse st missing → s.gives (.svAdmit h d) (fun t =>
            t.reqs = s.reqs ∧ t.replied s h rowSvAdmit st 0 (admitBody d 0 u.aheadW 0 0 missing)))
        ∧ (u.assisted p 1 = true → u.assistRoom p = true → s.gives (.svAdmit h d) (fun t => t.reqs = s.reqs
            ∧ ∃ a ∈ t.alaok.assists, a.fn = 1 ∧ a.partition = p ∧ a.desc = some (d, h) ∧ a.cls = cls
              ∧ a.verdict = (u.admission p d cls 0).status)))
  ∧ (∀ (s : State) (h : Hdr) (d : Desc) (i : Nat) (pages : List Nat) (k : Nat),
        let u := s.taken h rowSvKvOpen
        let p := h.partition.toNat
        let ed := u.editionFor p d
        s.accepts h rowSvKvOpen (h.length = 128) (descFields d) → u.editionBad p d = none → u.descBad p ed d false = false →
          (u.edition ed).noService = false →
          (u.entryPages p ed d = (some (i, pages), k) → s.gives (.svKvOpen h d) (fun t =>
            (t.req i).state = .admitted ∧ (t.req i).kvWait = true ∧ (t.req i).desc = d ∧ (t.req i).pages = pages
            ∧ (t.req i).committed = d.promptLen.toNat ∧ (t.req i).kvCmd = some (h.conn, h.cmdTag)
            ∧ (t.req i).prefill = [] ∧ (t.req i).period = 0 ∧ (∀ j, j ≠ i → t.req j = s.req j)
            ∧ t.sent h.conn 2 { s.reply h rowSvKvOpen stOk false 0 (admitBody d 0 u.aheadW 0 0 0) with
                reqTag := tagOf i (s.req i).gen }))
          ∧ (u.entryPages p ed d = (none, k) → s.gives (.svKvOpen h d) (fun t =>
            t.reqs = s.reqs ∧ t.replied s h rowSvKvOpen stRefusedCapacity 0 (admitBody d 0 u.aheadW 0 0 k))))

/-- R183, R185, R195, R199, R200, R204, R221, R324, R329: the commands on a request. Those that act at the next boundary are, in
a state that allows them, answered `ACCEPTED`, not final, and wait with the generation of the request they name; its state and
counts are reported; ring space is returned, what its buffer holds follows into the ring, a `RING` cause clears once there is
room, and a request that waited only for its last entries is RETIRED, or after a cancel FREE; pages of a shipment are sent
again, and one that is not the shipment's is refused; a deadline that passes is noted once, and with `deadline_continue` clear
it ends the request: at its last token in flight, or at the next boundary. The model's own in it: log 13, 37, 57, 94, 106, 136.
-/
def Obligations.RequestCommands : Prop :=
  (∀ (s : State) (h : Hdr),
      let i := tagIndex h.reqTag
      let g := (s.req i).gen
      let waits := fun (c : Instr) (row : CmdRow) (d : Deferred) =>
        s.accepts h row (h.length = 0) → (s.taken h row).tagFault h = none → s.gives c (fun t =>
          t.mod.deferred = s.mod.deferred ++ [d] ∧ t.sent h.conn 2 (s.reply h row stAccepted false) ∧ t.reqs = s.reqs)
      ((s.req i).state ≠ .retired → waits (.svCancel h) rowSvCancel (.cancel i g h.conn h.cmdTag))
      ∧ ((s.req i).state = .running ∨ (s.req i).state = .siding → waits (.svFinish h) rowSvFinish (.finish i g h.conn h.cmdTag))
      ∧ ((s.req i).active = true ∨ (s.req i).state = .siding → waits (.svPause h) rowSvPause (.pause i g h.conn h.cmdTag))
      ∧ ((s.req i).state = .siding ∨ s.pauseWaits i = true ∧ (s.req i).state ≠ .retired →
          waits (.svResume h) rowSvResume (.resume i g h.conn h.cmdTag))
      ∧ ((s.req i).state = .retired → s.accepts h rowSvResume (h.length = 0) → (s.taken h rowSvResume).tagFault h = none →
          s.gives (.svResume h) (fun t => t.mod.deferred = s.mod.deferred ∧ t.reqs = s.reqs ∧ t.replied s h rowSvResume stBadState)))
  ∧ (∀ (s : State) (h : Hdr) (total : Word) (pages : List Word),
        let k := tagIndex h.reqTag
        let r := s.req k
        let e := s.edition r.edition
        let ids := (List.range (e.pagesFor r.desc.promptLen.toNat)).map e.pageId
        (s.accepts h rowSvStatus (h.length = 0) → (s.taken h rowSvStatus).tagFault h = none → s.gives (.svStatus h) (fun t =>
          t.replied s h rowSvStatus stOk 0 (leBytes 1 r.state.code ++ leBytes 1 (Config.unlistedCode 1 r.causes.toNat) ++ leBytes 2 0
            ++ leBytes 4 r.committed ++ leBytes 4 (s.pagesMissing k) ++ leBytes 4 r.tokens ++ leBytes 8 r.desc.cookie.toNat)
          ∧ t.reqs = s.reqs))
        ∧ (s.accepts h rowSvRingAck (h.length = 4) → (s.taken h rowSvRingAck).tagFault h = none → r.state ≠ .retired →
            (r.ackBad total = true → s.gives (.svRingAck h total) (fun t =>
              t.reqs = s.reqs ∧ t.replied s h rowSvRingAck stBadParam))
            ∧ (r.ackBad total = false →
                let n := Nat.min r.buffered.length (r.desc.ringEntries.toNat - { r with consumed := total.toNat }.unconsumed)
                let u := ((s.taken h rowSvRingAck).updReq k (fun v => { v with consumed := total.toNat })).flushRing k
                s.gives (.svRingAck h total) (fun t =>
                  t.replied s h rowSvRingAck stOk
                  ∧ (∀ item ∈ r.buffered.take n, ∃ p, t.sent s.alaok.active 3 p ∧ p.body = item)
                  ∧ (r.closing ≠ some true ∨ n < r.buffered.length →
                      (t.req k).consumed = total.toNat ∧ (t.req k).buffered = r.buffered.drop n
                      ∧ (t.req k).causes = (if u.ringRoom k (r.depth + 2) then r.causes &&& ~~~ BitVec.twoPow 4 causeRing
                          else r.causes))
                  ∧ (n = r.buffered.length → r.closing = some false → (t.req k).state = .retired)
                  ∧ (n = r.buffered.length → r.closing = some true →
                      (t.req k).state = .free ∧ (t.req k).gen = r.gen + 1))))
        ∧ (s.accepts h rowSvKvResend (h.length = 4 + 4 * pages.length) → (s.taken h rowSvKvResend).tagFault h = none →
            r.shipping = true → r.state = .draining →
            ((∃ w ∈ pages, w.toNat ∉ ids) → s.gives (.svKvResend h pages) (fun t =>
              t.fabric = s.fabric ∧ t.replied s h rowSvKvResend stBadParam))
            ∧ ((∀ w ∈ pages, w.toNat ∈ ids) →
                let sent := pages.foldl (fun (t : State × Bool) w =>
                  let u := t.1.sendPage k (e.pageIndex w.toNat); (u.1, t.2 && u.2)) (s.taken h rowSvKvResend, true)
                s.gives (.svKvResend h pages) (fun t => t.fabric = sent.1.fabric
                  ∧ t.replied s h rowSvKvResend (if sent.2 then stOk else stFailed)))))
  ∧ (∀ (s : State) (i : Nat), s.powered = true → s.stopHolds = false → s.deadlineDue i = true →
      let r := s.req i
      let ends := fun (t : State) => (t.req i).state = .draining ∧ (t.req i).ended = some stDeadline
      let retires := fun (t : State) => .retire i r.gen stDeadline ∈ t.mod.deferred
      s.gives (.deadline i) (fun t =>
        (t.req i).pastDeadline = true ∧ (∀ j, j ≠ i → t.req j = s.req j)
        ∧ (r.desc.deadlineContinue = true → t.req i = { r with pastDeadline := true } ∧ t.mod = s.mod)
        ∧ (r.desc.deadlineContinue = false →
            (r.state = .siding → s.inFlight i = true → r.sidedFrom = .running ∨ r.desc.promptLen.toNat ≤ r.prefillPos → ends t)
            ∧ (r.state = .siding → s.inFlight i = false ∨ (r.sidedFrom ≠ .running ∧ r.prefillPos < r.desc.promptLen.toNat) →
                retires t)
            ∧ (r.state ≠ .siding → r.kvWait = true → retires t)
            ∧ (r.state = .running → r.kvWait = false → s.inFlight i = true → ends t)
            ∧ (r.state = .running → r.kvWait = false → s.inFlight i = false → r.closing = none →
                (t.req i).finalStatus = stDeadline ∧ ((t.req i).state = .retired ∨ (t.req i).closing = some false))
            ∧ (r.state = .admitted ∨ r.state = .prefill → r.kvWait = false →
                ends t ∧ (r.prefillPos < r.desc.promptLen.toNat → retires t)))))

/-- R187, R201, R214, R218: a partition's class records, role, grammars and steering sets are written and answered `OK`: a class
record under its number, a grammar under the lowest free handle or the one it has, a steering set under its index with its
length. A class or role beyond its range, a class record that R187 does not allow, and a table or set that breaks its layout are
answered `BAD_PARAM`, one that a request uses is answered `BUSY`, and a grammar beyond the 4,096 of a partition
`REFUSED_CAPACITY`; then no record changes. The model's own in it: log 33. -/
def Obligations.PartitionServingRecords : Prop :=
  ∀ (s : State) (h : Hdr) (cls role : BitVec 8) (r : ClassRec) (offset : U64) (index : Word) (n : Nat),
    let p := h.partition.toNat
    let denied := fun (i : Instr) (row : CmdRow) (st : Nat) =>
      s.gives i (fun t => t.parts = s.parts ∧ t.replied s h row st)
    (s.accepts h rowSvClassSet (h.length = 20) →
      (cls.toNat ≤ 7 → ClassRec.bad r = false → s.gives (.svClassSet h cls r) (fun t =>
        t.parts = (s.updPart p (fun v => { v with classes := v.classes.put cls.toNat r })).parts
        ∧ t.replied s h rowSvClassSet stOk))
      ∧ (7 < cls.toNat ∨ ClassRec.bad r = true → denied (.svClassSet h cls r) rowSvClassSet stBadParam))
    ∧ (s.accepts h rowSvRole (h.length = 4) →
        (role.toNat ≤ 2 → s.gives (.svRole h role) (fun t =>
          (t.part p).role = (if role = 0 then .mixed else if role = 1 then .prefill else .decode)
          ∧ t.replied s h rowSvRole stOk))
        ∧ (2 < role.toNat → denied (.svRole h role) rowSvRole stBadParam))
    ∧ (s.accepts h rowSvGrammarLoad (h.length = 8) →
        let u := s.taken h rowSvGrammarLoad
        let l := (s.part p).grammars.entries
        ((∀ e ∈ l, e.2.offset ≠ offset.toNat) → u.grammarBad p offset.toNat = false →
          (List.range 4096).find? (fun n => !(s.part p).grammars.has n) = some n → s.gives (.svGrammarLoad h offset) (fun t =>
            (t.part p).grammars = (s.part p).grammars.put n { offset := offset.toNat }
            ∧ t.replied s h rowSvGrammarLoad stOk n))
        ∧ ((∀ e ∈ l, e.2.offset ≠ offset.toNat) → u.grammarBad p offset.toNat = false →
            (List.range 4096).find? (fun n => !(s.part p).grammars.has n) = none →
            denied (.svGrammarLoad h offset) rowSvGrammarLoad stRefusedCapacity)
        ∧ ((l.find? (fun e => e.2.offset = offset.toNat)).map Prod.fst = some n →
            (u.grammarUsed p n = true → denied (.svGrammarLoad h offset) rowSvGrammarLoad stBusy)
            ∧ (u.grammarUsed p n = false → u.grammarBad p offset.toNat = false → s.gives (.svGrammarLoad h offset) (fun t =>
                (t.part p).grammars = (s.part p).grammars ∧ t.replied s h rowSvGrammarLoad stOk n))
            ∧ (u.grammarUsed p n = false → u.grammarBad p offset.toNat = true →
                denied (.svGrammarLoad h offset) rowSvGrammarLoad stBadParam))
        ∧ ((∀ e ∈ l, e.2.offset ≠ offset.toNat) → u.grammarBad p offset.toNat = true →
            denied (.svGrammarLoad h offset) rowSvGrammarLoad stBadParam))
    ∧ (s.accepts h rowSvSteerLoad (h.length = 16) →
        let u := s.taken h rowSvSteerLoad
        (u.steerInRange p index.toNat = false → denied (.svSteerLoad h index offset) rowSvSteerLoad stBadParam)
        ∧ (u.steerInRange p index.toNat = true → u.steerUsed p index.toNat = true →
            denied (.svSteerLoad h index offset) rowSvSteerLoad stBusy)
        ∧ (u.steerInRange p index.toNat = true → u.steerUsed p index.toNat = false →
            (u.steerLength p offset.toNat = some n → s.gives (.svSteerLoad h index offset) (fun t =>
              (t.part p).steers = (s.part p).steers.put index.toNat { offset := offset.toNat, length := n }
              ∧ t.replied s h rowSvSteerLoad stOk))
            ∧ (u.steerLength p offset.toNat = none → denied (.svSteerLoad h index offset) rowSvSteerLoad stBadParam)))

/-- R209, R210, R215, R274, R380, R382 to R385, R400: the sampler takes the oldest sample message of a core, its class's retries
counted, and one of another window, of copy B or of another kind leaves nothing else behind; else it reads each of its records.
A record whose bytes or sampling context read poisoned marks its slot with cause 1; one of the last section gives its slot the
token that R210 draws from it, stamped, or none where no candidate stands. A replay that is back in time draws its charge first
and, while that is not met, waits and counts it; one whose request is gone is discarded; one that read poison again, or whose
report the control node asked for, leaves a signature, and its request ends with a fault report at the next boundary; else its
slot goes to the sampler as an ordinary one, or it waits, behind those returned before, for its rejoining. The model's own in it: log 87, 88, 150, 193, 194. -/
def Obligations.SamplesAndReplays : Prop :=
  (∀ (s : State) (c : CoreRef) (retries : List Nat) (m : Nat × List Byte), s.gateStopped = false →
    s.mod.sampler.find? (fun m => m.1 = c.key) = some m →
      let u := ({ s with mod := { s.mod with sampler := s.mod.sampler.erase m } } : State).ctlRetries c.field retries
      let a := natAt m.2 4 4
      let head := s.spRead c.key a 16
      let b := s.spRead c.key a (16 + 8 * natAt (head.map Prod.fst) 2 1)
      let cand := CandRec.ofBytes (b.map Prod.fst)
      (s.isCopyB c.key = true ∨ natAt m.2 0 1 ≠ 1 ∨ natAt m.2 8 8 ≠ s.plan.window →
        exec (.sampleMessage ⟨c, retries⟩) s = .next u ∧ u.mod.sampler = s.mod.sampler.erase m ∧ u.plan = s.plan)
      ∧ (s.isCopyB c.key = false → natAt m.2 0 1 = 1 → natAt m.2 8 8 = s.plan.window →
          exec (.sampleMessage ⟨c, retries⟩) s = .next ((List.range (Nat.min 256 (natAt m.2 2 2))).foldl
            (fun (t : State) i => t.sampleRecord c.key a i) u)
          ∧ (natAt m.2 2 2 = 1 → ∀ x, s.slotAt c.key (natAt (head.map Prod.fst) 0 2) = some x →
              let r := s.req x.req
              let ctx := s.samplingContext x.req
              let bad := spPoison b = true ∨ ctx.2 = true
              let draws := x.lastPrompt = true ∧ x.draw = none ∧ s.drawWaits x = false ∧ (s.edition x.edition).sections = x.sect + 1
              let slots := fun (g : Slot → Slot) => s.gives (.sampleMessage ⟨c, retries⟩) (fun t =>
                t.plan = { s.plan with slots := s.plan.slots.map (fun y => if y.id = x.id then g y else y) })
              (bad → slots (fun y => { y with causes := insertNat 1 y.causes }))
              ∧ (¬bad → ¬draws → slots id)
              ∧ (¬bad → draws → s.assisted r.partition 2 = false → cand.sample ctx.1 x.pos = none → slots (fun y => { y with drawNone := true, drawStamp := s.stamp }))
              ∧ (¬bad → draws → s.assisted r.partition 2 = false → ∀ tok, cand.sample ctx.1 x.pos = some tok →
                  (r.advances x.pos tok = false ∨ s.assisted r.partition 3 = false) → s.slotOf x.id = some x →
                  slots (fun y => { y with draw := some tok, drawStamp := s.stamp })))))
  ∧ (∀ (s : State) (q : Replay) (poisoned : Bool),
      let x := q.slot
      let r := s.req x.req
      let u := s.payReplay x.id
      let bad := poisoned = true ∨ u.replayBad q = true
      let gone := r.gen ≠ x.gen ∨ r.state = .free ∨ r.state = .retired
      let i := Instr.replayReturn x.id poisoned
      u.plan.replays.find? (fun r => r.slot.id = x.id ∧ !r.returned) = some q →
      s.powered = true → s.mod.state ≠ .stopped → s.stop.kind ≠ .nowSpreading →
      q.due ≤ s.plan.window + 1 ∨ s.stop.kind = .settling →
        (gone → s.gives i (fun t =>
          t.plan.replays = u.plan.replays.filter (fun r => r.slot.id ≠ x.id) ∧ t.plan.slots = s.plan.slots ∧ t.reqs = s.reqs
          ∧ t.plan.lateOutputs = s.plan.lateOutputs + 1))
        ∧ (¬gone → bad ∨ q.report = true → s.gives i (fun t =>
            (∀ v ∈ t.plan.replays, v.slot.id ≠ x.id)
            ∧ t.reqs = (if q.owed = [] then u.goldenRead x.edition x.sect else u).reqs
            ∧ t.mod.deferred = s.mod.deferred ++ [.retire x.req x.gen
                (if poisoned || u.replayBad q || x.causes.contains 1 then stPoisoned else stFault)]
            ∧ t.mod.faults.length = Nat.min 4096 (s.mod.faults.length + 1)))
        ∧ (¬gone → ¬bad → q.report = false → q.owed ≠ [] → s.gives i (fun t => t.plan = u.plan ∧ t.reqs = s.reqs))
        ∧ (¬gone → ¬bad → q.report = false → q.owed = [] →
            ((s.edition x.edition).sections = x.sect + 1 → x.lastPrompt = true → s.gives i (fun t =>
              (∀ v ∈ t.plan.replays, v.slot.id ≠ x.id) ∧ ∃ y ∈ t.plan.slots, y.id = x.id ∧ y.req = x.req ∧ y.causes = []
                ∧ y.sect = (if s.stop.kind = .settling then x.sect + 1 else x.sect)))
            ∧ ((s.edition x.edition).sections ≠ x.sect + 1 ∨ x.lastPrompt = false → s.gives i (fun t =>
                t.plan.replays = u.plan.replays.filter (fun r => r.slot.id ≠ x.id)
                  ++ (u.plan.replays.filter (fun r => r.slot.id = x.id)).map (fun r => { r with returned := true })))))

/-! Weights. -/

/-- R131, R132, R136 to R141, R146, R154, R170, R273, R323, R330, R331, R437: an edition's way by command. A fragment of a shard
is kept while it overlaps none and staging has room; the one that completes its shard has it checked in order: an index or a
hash that the manifest does not give is refused and a shard already taken in changes nothing; shard 0 or 1 waits for the other,
a later shard for both; then a good shard is staged; one that answers a refresh or a repair goes to its engine. A close without
every shard answers `INCOMPLETE` and the indices, a staged shard that reads poisoned counting as missing; with every shard it
begins verification, a shadow build's unnamed rows going to the agents at level 8, or, of a rolling build whose records are
good, leaves it STAGED. A switch of a READY edition waits for its boundary; a RETAINED edition is set to retire; an abort waits
for the boundary; the states are reported. The model's own in it: log 12, 98, 99, 142, 144, 167. -/
def Obligations.EditionCommands : Prop :=
  ∀ (s : State) (h : Hdr) (edition : BitVec 16) (policy : BitVec 8) (earliest : U64) (index offset shardLen : Nat)
    (bytes b : List Byte),
    let ed := edition.toNat
    let e := s.edition ed
    let p := h.partition.toNat
    let x := e.parts.find index { length := shardLen }
    let fresh := e.state = .building ∧ e.parts.has index = false
    let q := s.taken h rowWtShard
    let v := q.updEdition ed (fun w => { w with parts := w.parts.erase index })
    let n := if index < 65536 then index else 0
    let y := ShardRec.ofBytes b
    let region := fun (sel : Nat) => ((e.regions.find? sel).map Region.size).getD 0
    let shard := Instr.wtShard h edition index offset shardLen bytes
    let dropped := fun (st : Nat) => s.gives shard (fun t => (t.edition ed).parts = e.parts.erase index
      ∧ (t.edition ed).staged = e.staged ∧ (t.edition ed).held = e.held ∧ t.replied s h rowWtShard st n)
    let waits := s.gives shard (fun t => (t.edition ed).held.has index = true
      ∧ (t.edition ed).staged = e.staged ∧ t.sent h.conn 2 (s.reply h rowWtShard stAccepted false n))
    let building := e.state = .building ∧ e.manDone = true
    ed ≠ 0 → e.partition = p → e.state ≠ .free →
      (s.accepts h rowWtShard (h.length = 16 + bytes.length) → index ≠ 0xFFFFFFFF → building ∨ (e.state ≠ .building ∧
          q.shardsAwaited ed = true) → bytes ≠ [] → offset + bytes.length ≤ shardLen → x.length = shardLen →
          x.overlaps offset bytes.length = false →
          (fresh → q.stagingPlace ed shardLen = none → s.gives shard (fun t =>
            t.editions = s.editions ∧ t.replied s h rowWtShard stRefusedCapacity n))
          ∧ ∀ place, (fresh → q.stagingPlace ed shardLen = some place) → (¬fresh → place = x.place) →
              let x1 : PartShard := { x with frags := x.frags ++ [(offset, bytes)], place := place }
              (x1.whole = none → s.gives shard (fun t => t.edition ed = { e with parts := e.parts.put index x1 }
                ∧ t.replied s h rowWtShard stOk n))
              ∧ (x1.whole = some b → e.state ≠ .building → s.gives shard (fun t => t.cores = (v.repairShard ed index b).1.cores
                  ∧ t.replied s h rowWtShard (v.repairShard ed index b).2 n))
              ∧ (x1.whole = some b → e.state = .building → (v.stagedPoison ed).contains index = false →
                  (e.shardCount ≤ index → dropped stBadParam)
                  ∧ (index < e.shardCount → Config.sha384 b ≠ e.shardDigest index → dropped stBadSignature)
                  ∧ (index < e.shardCount → Config.sha384 b = e.shardDigest index →
                      e.staged.has index = true ∨ e.held.has index = true → dropped stOk)
                  ∧ (index < e.shardCount → Config.sha384 b = e.shardDigest index → e.staged.has index = false →
                      e.held.has index = false →
                      (index < 2 → shardBad ed index b = false → v.imageFault ed index (b.drop 64) = none →
                        e.held.find? (1 - index) = none → waits)
                      ∧ (2 ≤ index → y.kind < 3 ∨ 5 < y.kind → dropped stBadParam)
                      ∧ (2 ≤ index → 3 ≤ y.kind → y.kind ≤ 5 → e.placement = none → waits)
                      ∧ (2 ≤ index → 3 ≤ y.kind → y.kind ≤ 5 → e.placement ≠ none → shardBad ed index b = true →
                          dropped stBadParam)
                      ∧ (2 ≤ index → 3 ≤ y.kind → y.kind ≤ 5 → e.placement ≠ none → shardBad ed index b = false →
                          (y.kind = 3 → (unpackKey y.target).isSome = true ∧ unpackEngine y.target < 16
                            ∧ e.places.contains ((unpackKey y.target).getD 0) = true) →
                          (y.kind ≠ 3 → y.stackDst + y.payload.length ≤ region 3) → s.gives shard (fun t =>
                            (t.edition ed).staged = e.staged.put index { y with held := none }
                            ∧ t.replied s h rowWtShard stOk n))))
              ∧ (x1.whole = some b → e.state = .building → (v.stagedPoison ed).contains index = true →
                  s.gives shard (fun t => (t.edition ed).parts = e.parts.erase index)))
      ∧ (s.accepts h rowWtClose (h.length = 4) → building → e.badRecords = true → s.gives (.wtClose h edition) (fun t =>
          (t.edition ed).state = .building ∧ t.replied s h rowWtClose stBadImage))
      ∧ (s.accepts h rowWtClose (h.length = 4) → building → e.badRecords = false →
          let u := (s.taken h rowWtClose).unstage ed ((s.taken h rowWtClose).stagedPoison ed)
          let w := u.edition ed
          let z := { w with state := EdState.verifying, closeCmd := some (h.conn, h.cmdTag) }
          (w.missing ≠ [] → s.gives (.wtClose h edition) (fun t => t.edition ed = w ∧ t.replied s h rowWtClose stIncomplete 0
            (Config.layout rowWtClose.op (w.missing.length :: w.missing.take 64))))
          ∧ (w.missing = [] → e.kind ≠ .rolling → s.gives (.wtClose h edition) (fun t => t.edition ed = z
              ∧ t.cores = (if e.kind = .shadow then ((u.updEdition ed (fun _ => z)).interim h stAccepted).queueBlank ed else u).cores
              ∧ t.sent h.conn 2 (s.reply h rowWtClose stAccepted false)))
          ∧ (w.missing = [] → e.kind = .rolling → u.recordsOf ed = none → s.gives (.wtClose h edition) (fun t =>
              t.edition ed = { w with badRecords := true } ∧ t.replied s h rowWtClose stBadImage))
          ∧ (w.missing = [] → e.kind = .rolling → ∀ r, u.recordsOf ed = some r → s.gives (.wtClose h edition) (fun t =>
              (t.edition ed).state = .staged ∧ (t.edition ed).serving = some r.1 ∧ t.replied s h rowWtClose stOk)))
      ∧ (s.accepts h rowWtSwitch (h.length = 16) → e.state = .ready → e.noService = false →
          ((s.part p).switch = none → s.gives (.wtSwitchShadow h edition earliest) (fun t => (t.part p).switch = some {
              edition := ed, earliest := earliest.toNat, conn := h.conn, cmdTag := h.cmdTag }
            ∧ t.editions = s.editions ∧ t.sent h.conn 2 (s.reply h rowWtSwitch stAccepted false)))
          ∧ ((s.part p).switch ≠ none → s.gives (.wtSwitchShadow h edition earliest) (fun t =>
              t.parts = s.parts ∧ t.replied s h rowWtSwitch stBusy)))
      ∧ (s.accepts h rowWtRetire (h.length = 4) → policy.toNat ≤ 1 → e.state = .retained → s.gives (.wtRetire h edition policy) (fun t =>
          t.edition ed = { e with state := .retiring, retireEnd := decide (policy = 1) } ∧ t.replied s h rowWtRetire stOk))
      ∧ (s.accepts h rowWtAbort (h.length = 4) → e.abortable = true → s.gives (.wtAbort h edition) (fun t =>
          t.mod.deferred = s.mod.deferred ++ [.abort ed h.conn h.cmdTag]
          ∧ t.sent h.conn 2 (s.reply h rowWtAbort stAccepted false) ∧ t.editions = s.editions))
      ∧ (s.accepts h rowWtStatus (h.length = 4) → s.gives (.wtStatus h edition) (fun t => t.editions = s.editions
          ∧ t.replied s h rowWtStatus stOk 0 (Config.layout rowWtStatus.op
            ((s.editions.entries.filter (fun (x : Nat × Edition) => x.2.partition = p ∧ x.2.state ≠ .free)).flatMap
                (fun x => [x.1, x.2.state.code])
              ++ [(e.rolling.map Rolling.hUs).getD 0, e.missing.length] ++ e.missing.take 64))))

/-- R131, R132, R139, R148, R150, R174, R330: a manifest that is good and whole opens the build of its edition, with its regions
made, and one that continues in shard fragments waits for them, the last of which opens the build; one at fault is answered with
its status. A rolling switch of a STAGED edition is accepted with its bound H, and with policy 0 its base takes no new pinned
requests; while another switch is under way it is answered `BUSY`. The model's own in it: log 98, 99, 156. -/
def Obligations.EditionOpensAndRolls : Prop :=
  ∀ (s : State) (h : Hdr) (edition : BitVec 16) (pinned : BitVec 8) (earliest : U64) (staging manLen offset shardLen : Nat)
    (bytes man : List Byte) (r : Region),
    let p := h.partition.toNat
    let m := Manifest.ofBytes bytes
    let opened := fun (t v : State) (ed : Nat) (man : List Byte) =>
      (t.edition ed).state = .building ∧ (t.edition ed).partition = p ∧ (t.edition ed).manDone = true
      ∧ (t.edition ed).manifest = man ∧ (t.edition ed).shardCount = (Manifest.ofBytes man).shards
      ∧ (t.edition ed).staging = staging ∧ (t.edition ed).regions = (v.reserveRegions p (Manifest.ofBytes man)).2.1
      ∧ (t.edition ed).kind = (if (Manifest.ofBytes man).kind = 0 then .shadow else if (Manifest.ofBytes man).kind = 1 then .rolling
          else .forerunner)
    let ed := edition.toNat
    let e := s.edition ed
    let x := e.parts.find 0xFFFFFFFF { length := shardLen }
    let x1 : PartShard := { x with frags := x.frags ++ [(offset, bytes)] }
    let v := (s.taken h rowWtShard).updEdition ed (fun w => { w with parts := w.parts.erase 0xFFFFFFFF })
    (s.accepts h rowWtOpen (h.length = 8 + bytes.length ∧ bytes.length ≤ manLen) (if m.kind = 1 ∨ m.golden then 0x0400 else 0) →
      5 ≤ staging → staging ≤ 15 → manifestBad bytes = false → manLen = manifestSpan bytes + sigBytes →
      (s.part p).regions.find? staging = some r → r.void = false → (s.edition m.edition).state = .free →
      (s.editions.vals.any (fun e => decide (e.partition = p) && decide (e.state = .building))) = false →
      ((s.heldEditions p).1 < 4 → (s.heldEditions p).2 < 16 →
        (bytes.length = manLen →
          ((s.taken h rowWtOpen).manifestFault p staging bytes = none → s.gives (.wtOpen h staging manLen bytes) (fun t =>
            opened t (s.taken h rowWtOpen) m.edition bytes ∧ t.replied s h rowWtOpen stOk))
          ∧ (∀ st body, (s.taken h rowWtOpen).manifestFault p staging bytes = some (st, body) →
              s.gives (.wtOpen h staging manLen bytes) (fun t =>
                t.editions = s.editions ∧ t.replied s h rowWtOpen st 0 body)))
        ∧ (bytes.length < manLen → s.gives (.wtOpen h staging manLen bytes) (fun t =>
            (t.edition m.edition).state = .building ∧ (t.edition m.edition).manLen = manLen ∧ (t.edition m.edition).manDone = false
            ∧ (t.edition m.edition).openCmd = some (h.conn, h.cmdTag) ∧ t.sent h.conn 2 (s.reply h rowWtOpen stAccepted false))))
      ∧ (4 ≤ (s.heldEditions p).1 ∨ 16 ≤ (s.heldEditions p).2 → s.gives (.wtOpen h staging manLen bytes) (fun t =>
          t.editions = s.editions ∧ t.replied s h rowWtOpen stRefusedCapacity)))
    ∧ (s.accepts h rowWtShard (h.length = 16 + bytes.length) → ed ≠ 0 → e.partition = p → e.state = .building → e.manDone = false →
        e.staging = staging → bytes ≠ [] → offset + bytes.length ≤ shardLen → x.length = shardLen → shardLen = e.manLen →
        x.overlaps offset bytes.length = false → e.parts.has 0xFFFFFFFF = true →
        (x1.whole = none → s.gives (.wtShard h edition 0xFFFFFFFF offset shardLen bytes) (fun t =>
          t.edition ed = { e with parts := e.parts.put 0xFFFFFFFF x1 } ∧ t.replied s h rowWtShard stOk))
        ∧ (x1.whole = some man → (Manifest.ofBytes man).edition = ed → v.manifestFault p staging man = none →
            s.gives (.wtShard h edition 0xFFFFFFFF offset shardLen bytes) (fun t =>
              opened t v ed man ∧ t.replied s h rowWtShard stOk))
        ∧ (x1.whole = some man → (Manifest.ofBytes man).edition ≠ ed → s.gives (.wtShard h edition 0xFFFFFFFF offset shardLen bytes)
            (fun t => (t.edition ed).state = .free ∧ t.replied s h rowWtShard stBadParam)))
    ∧ (s.accepts h rowWtSwitch (h.length = 16) 0x0400 → ed ≠ 0 → e.partition = p → e.state = .staged → pinned.toNat ≤ 1 →
        e.base = (s.part p).current →
        let u := s.taken h rowWtSwitch
        let i := Instr.wtSwitchRolling h edition (BitVec.ofNat 16 (1 + 256 * pinned.toNat)) earliest
        let us := u.holdBound ed (u.rollRows ed)
        (∀ how : BitVec 16, how.toNat % 256 ≠ 1 → s.gives (.wtSwitchRolling h edition how earliest) (fun t =>
          t.editions = s.editions ∧ t.parts = s.parts ∧ t.replied s h rowWtSwitch stBadParam))
        ∧ ((s.part p).switch ≠ none ∨ (s.edition e.base).rolling ≠ none → s.gives i (fun t =>
          t.editions = s.editions ∧ t.parts = s.parts ∧ t.replied s h rowWtSwitch stBusy))
        ∧ ((s.part p).switch = none → (s.edition e.base).rolling = none →
            (e.placement.map Placement.fixed ≠ (s.edition e.base).placement.map Placement.fixed → s.gives i (fun t =>
              t.editions = s.editions ∧ t.replied s h rowWtSwitch stBadImage))
            ∧ (e.placement.map Placement.fixed = (s.edition e.base).placement.map Placement.fixed → s.gives i (fun t =>
                (t.part p).switch = some { edition := ed, rolling := true, endPinned := decide (pinned = 1)
                                           earliest := earliest.toNat, conn := h.conn, cmdTag := h.cmdTag }
                ∧ (t.edition ed).rolling = some { base := e.base, hUs := us }
                ∧ (pinned = 0 → (t.edition e.base).noPinned = true)
                ∧ t.sent h.conn 2 (s.reply h rowWtSwitch stAccepted false 0 (leBytes 8 us))))))

/-- R143, R145, R149, R150, R171, R202: the edition's own events. An edition in VERIFYING waits while rows are to be programmed
or re-verified, trims to be loaded or a map change to be committed; an engine of it with a retired array is to give way to a
spare engine, or its core's work to another core; with nothing left to do it is READY with its serving record if its records are
good, and else stays in VERIFYING with its `WT_CLOSE` answered, for good. A rolling switch or a refresh hold goes from drain to
rewrite once no token is in flight, from rewrite to close once every row is programmed and no unit of it is being replaced, and
from close to resume once every rewritten engine's trims are sampled; before that each phase goes on. The model's own in it: log
1, 99, 132. -/
def Obligations.EditionEvents : Prop :=
  ∀ (s : State) (p ed : Nat) (r : Rolling), s.powered = true →
    let e := s.edition ed
    let engines := if e.kind = .shadow then s.edEngines ed else []
    let retired := fun (x : Nat × Nat) => (s.engine x.1 x.2).arrays.vals.any (fun a => a.state ≠ 0)
    let settled := engines.all (fun x => s.engineSettled x.1 x.2) = true ∧ e.places.any (fun q => s.mapWaits q (s.physOf q)) = false
      ∧ e.places.any (fun q => (s.core (s.physOf q)).clearing) = false
    let rewritten := s.rollEngines ed r
    let done := fun (x : Nat × Nat) => (s.engine x.1 x.2).rowsLeft = [] ∧ (s.engine x.1 x.2).agentBusy = false
      ∧ ∀ q, (s.engine x.1 x.2).refresh = some q → s.asked x.1 q.spare = false
    let phase := fun (i : Instr) (ph : RollPhase) => s.gives i (fun t => ((t.edition ed).rolling.map Rolling.phase) = some ph)
    (e.state = .verifying → e.badRecords = true → exec (.editionReady ed) s = .next s)
    ∧ (e.state = .verifying → e.badRecords = false →
      (∀ x, engines.find? retired = some x →
        let place := (e.places.find? (fun q => s.physOf q = x.1)).getD x.1
        (s.mapWaits place x.1 = true → exec (.editionReady ed) s = .next s)
        ∧ (s.mapWaits place x.1 = false → ∀ spare, s.freeSpare x.1 = some spare → exec (.editionReady ed) s = .next (s.journal
            { kind := jkCore, key := x.1, what := jwEmap, vals := (s.core x.1).emap.map (fun v => if v = x.2 then spare else v) }))
        ∧ (s.mapWaits place x.1 = false → s.freeSpare x.1 = none → ∀ d, (s.dropRows x.1).relocateChoice x.1 = some d →
            exec (.editionReady ed) s = .next ((s.dropRows x.1).journal { kind := jkRelocation, key := place, val := d }))
        ∧ (s.mapWaits place x.1 = false → s.freeSpare x.1 = none → (s.dropRows x.1).relocateChoice x.1 = none →
            s.gives (.editionReady ed) (fun t => (t.edition ed).state = .verifying ∧ (t.edition ed).repairMissing = true)))
      ∧ (engines.find? retired = none →
          (¬settled → exec (.editionReady ed) s = .next s)
          ∧ (settled → s.recordsOf ed = none → s.gives (.editionReady ed) (fun t =>
              (t.edition ed).state = .verifying ∧ (t.edition ed).closeCmd = none ∧ (t.edition ed).badRecords = true))
          ∧ (settled → ∀ rec', s.recordsOf ed = some rec' → s.gives (.editionReady ed) (fun t =>
              (t.edition ed).state = .ready ∧ (t.edition ed).closeCmd = none ∧ (t.edition ed).serving = some rec'.1
              ∧ (t.edition ed).pairs = rec'.2.1))))
    ∧ (e.rolling = some r →
        (s.rollingIn p .drain = some (ed, r) →
          (s.tokensOf (if r.refresh then ed else r.base) = false → phase (.rollingDrainDone p) .rewrite)
          ∧ (s.tokensOf (if r.refresh then ed else r.base) = true → exec (.rollingDrainDone p) s = .next s))
        ∧ (s.rollingIn p .rewrite = some (ed, r) →
            (s.rollLeft ed = [] → s.rollMoves ed r = false → (∀ x ∈ rewritten, done x) → phase (.rollingRewriteDone p) .close)
            ∧ (s.rollLeft ed ≠ [] ∨ s.rollMoves ed r = true ∨ (∃ x ∈ rewritten, ¬done x) →
                exec (.rollingRewriteDone p) s = .next s))
        ∧ (s.rollingIn p .close = some (ed, r) →
            (s.rollMoves ed r = false → (∀ x ∈ rewritten, (s.engine x.1 x.2).allTrimmed = true) →
              phase (.rollingCloseDone p) .resume)
            ∧ (s.rollMoves ed r = true ∨ (∃ x ∈ rewritten, (s.engine x.1 x.2).allTrimmed = false) →
                exec (.rollingCloseDone p) s = .next s)))

/-! Regions. -/

/-- R259 to R264, R273, R276, R214, R218: regions by command. A region with room is made over its stacks, in the place of one
its selector named, usable from the next window on, and with a fill its final reply waits; without room the extents short on
each stack are answered; one not in use is deleted; whole codeblocks are written where no grammar or steering set in use
protects them; bytes read are given unless one of them is poisoned; the sets and the distance table are reported; a region is
marked initialised. A region in use is answered `BUSY`, one made in this window `BAD_STATE`. The model's own in it: log 12, 32,
97, 170. -/
def Obligations.RegionCommands : Prop :=
  ∀ (s : State) (h : Hdr) (sel : BitVec 8) (fill : Bool) (stackMask : BitVec 24) (size addr : U64) (edition : BitVec 16)
    (bytes : List Byte) (n : Nat) (r : Region),
    let p := h.partition.toNat
    let l := setStacks stackMask.toNat
    let o := stackOff addr.toNat
    let young := s.plan.released = true ∧ r.madeIn = s.plan.window
    (s.accepts h rowMmCreate (h.length = 16) → madeSelector sel.toNat = true → l ≠ [] → size ≠ 0 →
      size.toNat % (2048 * l.length) = 0 →
      let u := s.taken h rowMmCreate
      let v := match (s.part p).regions.find? sel.toNat with
        | some g => (u.giveRegion p g).updPart p (fun w => { w with regions := w.regions.erase sel.toNat })
        | none => u
      let short := v.extentShort p l size.toNat
      let made := s.gives (.mmCreate h sel fill stackMask size) (fun t =>
        t.stackSet = (v.makeRegion p l size.toNat).1.stackSet
        ∧ (∃ g, (t.part p).regions.find? sel.toNat = some g ∧ g.stackSet = l ∧ g.size = size.toNat ∧ g.inited = false
          ∧ g.extents = (v.makeRegion p l size.toNat).2.extents ∧ g.madeIn = s.plan.window
          ∧ g.filling = (if fill then some (h.conn, h.cmdTag) else none))
        ∧ (fill = true → t.sent h.conn 2 (s.reply h rowMmCreate stAccepted false))
        ∧ (fill = false → t.replied s h rowMmCreate stOk 0 (stackSetBytes l)))
      (u.regionUsed p sel.toNat = true → s.gives (.mmCreate h sel fill stackMask size) (fun t =>
        t.parts = s.parts ∧ t.replied s h rowMmCreate stBusy))
      ∧ (u.regionUsed p sel.toNat = false → short.any (fun n => decide (n ≠ 0)) = false → made)
      ∧ (u.regionUsed p sel.toNat = false → short.any (fun n => decide (n ≠ 0)) = true →
          s.gives (.mmCreate h sel fill stackMask size) (fun t => (t.part p).regions = (s.part p).regions
            ∧ t.replied s h rowMmCreate stRefusedCapacity 0 (short.map (fun n => BitVec.ofNat 8 (Nat.min n 255))))))
    ∧ (s.accepts h rowMmDelete true → madeSelector sel.toNat = true → (s.part p).regions.find? sel.toNat = some r →
        let u := s.taken h rowMmDelete
        (u.regionUsed p sel.toNat = false → s.gives (.mmDelete h sel) (fun t =>
          (t.part p).regions = (s.part p).regions.erase sel.toNat ∧ t.stackSet = (u.giveRegion p r).stackSet
          ∧ t.replied s h rowMmDelete stOk))
        ∧ (u.regionUsed p sel.toNat = true → s.gives (.mmDelete h sel) (fun t =>
            t.parts = s.parts ∧ t.replied s h rowMmDelete stBusy)))
    ∧ (s.accepts h rowMmWrite true → (s.taken h rowMmWrite).namedRegion p edition.toNat addr.toNat = some r → o % 2048 = 0 →
        bytes.length % 2048 = 0 → bytes ≠ [] → o + bytes.length ≤ r.size →
        let u := s.taken h rowMmWrite
        let guarded := u.writeGuarded p (stackSel addr.toNat) o bytes.length
        (young → s.gives (.mmWrite h edition addr bytes) (fun t =>
          t.stackSet = s.stackSet ∧ t.replied s h rowMmWrite stBadState))
        ∧ (¬young → guarded = true → s.gives (.mmWrite h edition addr bytes) (fun t =>
            t.stackSet = s.stackSet ∧ t.replied s h rowMmWrite stBusy))
        ∧ (¬young → guarded = false → s.gives (.mmWrite h edition addr bytes) (fun t =>
            t.stackSet = (u.regionWrite r o (cleanBytes bytes) p).stackSet ∧ t.replied s h rowMmWrite stOk)))
    ∧ (s.accepts h rowMmRead true → (s.taken h rowMmRead).namedRegion p edition.toNat addr.toNat = some r → n ≠ 0 →
        n ≤ 65536 → o + n ≤ r.size →
        let b := (s.taken h rowMmRead).regionBytes r o n
        (young → s.gives (.mmRead h edition addr n) (fun t => t.replied s h rowMmRead stBadState))
        ∧ (¬young → spPoison b = true → s.gives (.mmRead h edition addr n) (fun t => t.replied s h rowMmRead stPoisoned))
        ∧ (¬young → spPoison b = false → s.gives (.mmRead h edition addr n) (fun t =>
            t.replied s h rowMmRead stOk 0 (b.map Prod.fst))))
    ∧ (s.accepts h rowMmInfo true → s.gives (.mmInfo h) (fun t => t.parts = s.parts ∧ t.replied s h rowMmInfo stOk 0
        (Config.layout rowMmInfo.op ((s.part p).regions.entries.flatMap (fun (g : Nat × Region) =>
            [g.1, 0, (g.2.stackSet.map (fun k => 2 ^ k)).sum])
          ++ (s.editions.entries.filter (fun (x : Nat × Edition) => x.2.partition = p ∧ x.2.state ≠ .free)).flatMap (fun x =>
            x.2.regions.entries.flatMap (fun (g : Nat × Region) => [g.1, x.1, (g.2.stackSet.map (fun k => 2 ^ k)).sum])))
          ++ s.distanceTable)))
    ∧ (s.accepts h rowMmMarkInit true → madeSelector sel.toNat = true → (s.part p).regions.find? sel.toNat = some r →
        (r.void = false → s.gives (.mmMarkInit h sel) (fun t =>
          (t.part p).regions.find? sel.toNat = some { r with inited := true } ∧ t.replied s h rowMmMarkInit stOk))
        ∧ (r.void = true → s.gives (.mmMarkInit h sel) (fun t => t.parts = s.parts ∧ t.replied s h rowMmMarkInit stNoSuch)))

/-! Units taken out. -/

/-- R393, R394, R396, R398: units out of service. A core with work that has not contributed 16,000 ns after T(n+1) counts as
done with a fault, is fenced and taken out, its edges and its messages to the gate field are discarded, and a fault record of
kind 0x08 names it; before that nothing happens. A unit whose test in place is done, in a partition that places repairs itself:
one without work is dropped from the repair; an engine of a core that passes is rebuilt on a spare engine; any other goes to the
core of the hardware choice, and with none left the field is lost, but for a unit that serves on, which is reported short. Where
the control node places repairs, it is asked. A programmed replacement is trimmed and filled and its map change goes to the
ledger, and so for each core of a lost field; an engine's unit without a refresh left is dropped, and one that served on is
fenced first. The model's own in it: log 1, 86, 101, 132, 186. -/
def Obligations.UnitsTakenOut : Prop :=
  ∀ (s : State) (c : CoreRef) (u : UnitOut) (unit f k : Nat) (passes : Bool), s.powered = true →
    (c.ok = true → s.inService = true → s.plan.released = true → s.stop.kind ≠ .nowSpreading →
      (s.core c.key).mode ≠ .idle → (s.core c.key).contrib = none → s.fieldHalted c.field = false →
      let limit := Nat.max s.plan.tNext.toNat (s.field c.field).hungFrom.toNat + 16000
      (s.now < limit → exec (.hungCore c) s = .next s)
      ∧ (limit ≤ s.now → s.gives (.hungCore c) (fun t =>
          t.core c.key = { s.core c.key with contrib := some ((s.core c.key).sig, true), faultedWin := true, fenced := true,
                                             mode := .hung, waitMask := none }
          ∧ (t.plan.outUnits.any (fun u => u.unit = packedCore c.key)) = true
          ∧ t.plan.edges = s.plan.edges.filter (fun e => e.src ≠ c.key)
          ∧ t.mod.signal = s.mod.signal.filter (fun m => m.1 ≠ c.key) ∧ t.mod.sampler = s.mod.sampler.filter (fun m => m.1 ≠ c.key)
          ∧ (t.mod.faults.getLast?.map FaultRec.kind) = some 0x08
          ∧ (t.mod.faults.getLast?.map FaultRec.unit) = some (packedCore c.key)
          ∧ ∀ j, j ≠ c.key → t.core j = s.core j)))
    ∧ (s.plan.outUnits.find? (fun u => u.unit = unit ∧ u.phase = 1 ∧ u.assist.isNone) = some u → unpackKey unit = some k →
        let v := s.core k
        let e := unpackEngine unit
        let placed := v.edition ≠ 0 ∧ v.placeId.isSome = true
        let p := (s.edition v.edition).partition
        let w := s.updUnit unit (fun x => { x with assist := none })
        let onSpare := u.kind = .engine ∧ passes = true ∧ (w.freeSpare k).isSome = true
        let asks := (s.relocateChoice k).isSome = true ∧ s.assisted p 7 = true ∧ v.placeId.isSome = true
          ∧ ¬(u.kind = .engine ∧ passes = true ∧ (s.freeSpare k).isSome = true)
        let ready := u.kind = .engine ∧ (s.engine k e).refresh.map (fun r => decide (r.phase = 7)) = some true
        (asks → s.assistRoom p = true → s.gives (.unitTestDone unit passes) (fun t =>
          ∃ a ∈ t.alaok.assists, a.fn = 7 ∧ a.partition = p ∧ a.req = unit ∧ some a.slot = s.relocateChoice k))
        ∧ (¬asks ∨ s.assistRoom p = false →
            (¬placed → w.buildWork k = none → s.gives (.unitTestDone unit passes) (fun t =>
              t.plan.outUnits.any (fun x => x.unit = unit) = false ∧ t.cores = s.cores))
            ∧ (placed → ready → s.gives (.unitTestDone unit passes) (fun t =>
                (∃ x ∈ t.plan.outUnits, x.unit = unit ∧ x.phase = 3) ∧ t.cores = s.cores))
            ∧ (placed → ¬ready → onSpare → s.gives (.unitTestDone unit passes) (fun t =>
                (∃ x ∈ t.plan.outUnits, x.unit = unit ∧ x.phase = 2)
                ∧ ((t.engine k e).refresh.map Refresh.spare) = w.freeSpare k
                ∧ ((t.engine k e).refresh.map Refresh.repair) = some true))
            ∧ (placed → ¬ready → ¬onSpare → ∀ d, w.relocateChoice k = some d → s.gives (.unitTestDone unit passes) (fun t =>
                ∃ x ∈ t.plan.outUnits, x.unit = unit ∧ x.phase = 2 ∧ x.dest = d ∧ x.kind = .core))
            ∧ (placed → ¬ready → ¬onSpare → w.relocateChoice k = none → u.serves = true → s.gives (.unitTestDone unit passes)
                (fun t => t.plan.outUnits.any (fun x => x.unit = unit) = false ∧ t.cores = s.cores
                  ∧ t.alaok = (w.event evRegionShort (packedCore k)).alaok))
            ∧ (placed → ¬ready → ¬onSpare → w.relocateChoice k = none → u.serves = false → fieldExists (k / coresPerField) = true →
                s.gives (.unitTestDone unit passes) (fun t => (t.field (k / coresPerField)).lost = true))))
    ∧ (s.plan.outUnits.find? (fun u => u.unit = unit ∧ s.unitProgrammed u) = some u → unpackKey unit = some k →
        let v := s.core k
        let e := unpackEngine unit
        (u.serves = true → s.gives (.unitReplacementDone unit) (fun t =>
          (∃ x ∈ t.plan.outUnits, x.unit = unit ∧ x.phase = 4 ∧ x.serves = false) ∧ t.cores = s.cores ∧ t.ledger = s.ledger))
        ∧ (u.serves = false → u.kind ≠ .engine → s.gives (.unitReplacementDone unit) (fun t =>
          (∃ x ∈ t.plan.outUnits, x.unit = unit ∧ x.phase = 3)
          ∧ t.cores = (s.readyCore u.dest v.edition (v.placeId.getD k)).cores
          ∧ t.ledger.waiting = (s.readyCore u.dest v.edition (v.placeId.getD k)).ledger.waiting
              ++ [{ kind := jkRelocation, key := v.placeId.getD k, val := u.dest }]))
        ∧ (u.serves = false → u.kind = .engine → (s.engine k e).refresh = none → s.gives (.unitReplacementDone unit) (fun t =>
            t.plan.outUnits.any (fun x => x.unit = unit) = false ∧ t.cores = s.cores))
        ∧ (u.serves = false → u.kind = .engine → ∀ r, (s.engine k e).refresh = some r → s.gives (.unitReplacementDone unit) (fun t =>
            (∃ x ∈ t.plan.outUnits, x.unit = unit ∧ x.phase = 3) ∧ (t.engine k e).refresh = some { r with phase := 7 }
            ∧ t.ledger.waiting = s.ledger.waiting ++ (if r.phase = 7 then [] else
                [{ kind := jkCore, key := k, what := jwEmap, vals := v.emap.map (fun x => if x = e then r.spare else x) }]))))
    ∧ (let us := s.plan.outUnits.filter (fun u => unpackField u.unit = f ∧ u.kind = .core ∧ u.phase = 2)
       s.plan.rebuilds.any (fun r => r.1 = f) = true → us ≠ [] → (∀ x ∈ us, s.unitProgrammed x = true ∧ x.serves = false) →
        (∀ x ∈ us, ∀ y ∈ us, unpackKey y.unit ≠ some x.dest) → s.gives (.fieldRebuildDone f) (fun t =>
          ∀ x ∈ us, ∀ j, unpackKey x.unit = some j → (∃ y ∈ t.plan.outUnits, y.unit = x.unit ∧ y.phase = 3)
            ∧ ∃ y ∈ t.ledger.waiting, y.kind = jkRelocation ∧ y.key = (s.core j).placeId.getD j ∧ y.val = x.dest))

/-! The fabric. -/

/-- R281, R283, R284, R289, R303, R309, R405: ports and routes. A port record or route record that is good is written and
answered, one that is not refused; a port that is down trains at the version both ends offer and the width of its good lanes, of
which it uses the lowest and none that failed before, and its peer's version is learned; a failed lane makes it hold and
retrain, and the retrained port sends what it held; with no good lane left it is down, what it held is lost, and a collective
that loses a packet fails; ports, times and peers are reported. The model's own in it: log 12. -/
def Obligations.PortsAndRoutes : Prop :=
  ∀ (s : State) (h : Hdr) (port peer offer good lane : Nat) (r : PortRec) (q : RouteRec),
    let v := s.port port
    let ver := Nat.min (Nat.min v.record.maxVersion.toNat 3) offer
    let lanes := v.record.laneMask &&& ~~~ v.bad &&& BitVec.ofNat 8 good
    let width := widthOf ver (laneCount lanes)
    let left := widthOf v.version (laneCount { v with bad := v.bad ||| BitVec.twoPow 8 lane }.good)
    let ports := (List.range 32).flatMap (fun p =>
      let w := s.port p
      Config.layout 0x0907 [p, if w.up then w.width else 0, if w.up then w.version else 0] ++ timeRecord w.time w.up)
    (s.accepts h rowFbPortSet true →
      (32 ≤ port → s.gives (.fbPortSet h port r) (fun t => t.fabric = s.fabric ∧ t.replied s h rowFbPortSet stNoSuch))
      ∧ (port < 32 → (s.taken h rowFbPortSet).portRecBad port r = true → s.gives (.fbPortSet h port r) (fun t =>
          t.fabric = s.fabric ∧ t.replied s h rowFbPortSet stBadParam))
      ∧ (port < 32 → (s.taken h rowFbPortSet).portRecBad port r = false → s.gives (.fbPortSet h port r) (fun t =>
          (t.port port).record = r ∧ (t.port port).up = false ∧ (t.port port).bad = 0 ∧ (t.port port).retry = []
          ∧ (∀ j, j ≠ port → t.port j = { s.port j with ctr := (t.port j).ctr, retry := (t.port j).retry })
          ∧ t.replied s h rowFbPortSet stOk)))
    ∧ (s.accepts h rowFbRouteSet true →
        ((s.taken h rowFbRouteSet).routeBad q = false → s.gives (.fbRouteSet h q) (fun t =>
          t.fabric.route = q ∧ t.replied s h rowFbRouteSet stOk))
        ∧ ((s.taken h rowFbRouteSet).routeBad q = true → s.gives (.fbRouteSet h q) (fun t =>
            t.fabric = s.fabric ∧ t.replied s h rowFbRouteSet stBadParam)))
    ∧ (s.accepts h rowFbStatus (h.length = 0) → s.gives (.fbStatus h) (fun t => t.fabric = s.fabric ∧ t.replied s h rowFbStatus stOk 0
        (ports ++ Config.layout 0x0907 (s.fabric.peers.entries.flatMap (fun e => [e.1, e.2])))))
    ∧ (s.powered = true → port < 32 →
      (s.mod.powerFail = false → v.up = false → v.record.cls ≠ 0 → (v.record.cls = 4 → peer % 2 ^ 18 = s.moduleId) → ver ≠ 0 → width ≠ 0 →
        s.gives (.portUp port peer offer good) (fun t =>
        (t.port port).up = true ∧ (t.port port).version = ver ∧ (t.port port).width = width ∧ (t.port port).peer = peer % 2 ^ 18
        ∧ (t.port port).lanes = lowestLanes lanes width ∧ v.bad &&& ~~~ (t.port port).bad = 0
        ∧ t.fabric.peers = s.fabric.peers.put (peer % 2 ^ 18) (Nat.max (s.fabric.peers.find (peer % 2 ^ 18) 0) offer)))
      ∧ (v.up = true → lane < 8 → v.good.getLsbD lane = true →
          (left ≠ 0 → s.gives (.laneFailure port lane) (fun t => (t.port port).bad = v.bad ||| BitVec.twoPow 8 lane
            ∧ (t.port port).retrain = true ∧ (t.port port).up = true ∧ (t.port port).retry = v.retry))
          ∧ (left = 0 → s.gives (.laneFailure port lane) (fun t => (t.port port).bad = v.bad ||| BitVec.twoPow 8 lane
              ∧ (t.port port).up = false ∧ (t.port port).retry = []
              ∧ ∀ p ∈ v.retry, p.type = 0x20 ∨ p.type = 0x21 → ∀ j r, s.job p.job = some j → j.reduce = some r → r.cmd ≠ none →
                  natAt p.payload 0 4 = j.reduceNo → ∃ x, t.job p.job = some x ∧ x.reduceNo = (j.reduceNo + 1) % 2 ^ 32)))
      ∧ (v.up = true → v.retrain = true → s.gives (.portRetrainDone port) (fun t =>
          (t.port port).retrain = false ∧ (t.port port).retry = [] ∧ (t.port port).width = widthOf v.version (laneCount v.good)
          ∧ (t.port port).lanes = lowestLanes v.good (t.port port).width
          ∧ t.fabric.out = s.fabric.out ++ v.retry)))

/-- R285, R288, R307: data and time. A data write is kept by its place in its message and acknowledged, and the acknowledgement
ends it; one of a stale job is discarded; a probe is answered with its two stamps; 8 exchanges, when a port's link starts or 1 s
after the last, give it the offset of the exchange kept, and from version 2 a drift; a module is probed 8 times, each probe with
its own departure stamp and after the reply to the one before, and its eighth reply ends its `FB_TIME` with the record of the
exchange kept. The model's own in it: log 35, 36, 96, 107, 175. -/
def Obligations.DataAndTime : Prop :=
  ∀ (s : State) (h : Hdr) (port module out : Nat) (raw : FabPkt) (t2 t3 t4 : U64) (e : U64 × U64 × U64 × U64)
    (ex : List (U64 × U64 × U64 × U64)) (q : FabProbe),
    let p := readPkt raw
    let ans : FabPkt := { version := p.version, type := 0x41, dst := p.src, src := s.moduleId, partition := p.partition
                          seq := s.fabric.seqs.find (p.src * 256 + 0x41) 0, ref := p.ref, last := true
                          payload := leBytes 8 t2.toNat ++ leBytes 8 t3.toNat ++ leBytes 4 p.seq }
    let ack : FabPkt := { version := p.version, type := 0x02, epoch := p.epoch, dst := p.src, src := s.moduleId, job := p.job
                          partition := p.partition, seq := s.fabric.seqs.find (p.src * 256 + 0x02) 0, ref := p.ref, last := true
                          payload := leBytes 4 p.seq ++ leBytes 4 p.offset }
    let ask := fun (m part : Nat) => ({ version := 3, type := 0x40, dst := m, src := s.moduleId, partition := part, last := true
                                        seq := s.fabric.seqs.find (m * 256 + 0x40) 0 } : FabPkt)
    let waits := fun (m : Nat) (part : Nat) (cmd : Nat × Word) =>
      ({ dst := m, seq := (ask m part).seq, t1 := s.stamp, cmd := cmd } : FabProbe)
    let now : U64 × U64 × U64 × U64 := (q.t1, BitVec.ofNat 64 (natAt p.payload 0 8), BitVec.ofNat 64 (natAt p.payload 8 8), t4)
    let mine := (s.fabric.exch.filter (fun e => e.1 = p.src)).map Prod.snd
    let old := (s.port port).time
    (s.hears port 0x01 raw →
      (p.job = 0 ∨ (s.jobOf raw).isSome = true → s.gives (.dataWrite port raw) (fun t => t.cores = s.cores
        ∧ t.fabric.inbox = s.fabric.inbox.filter (fun q => !(q.src = p.src ∧ q.seq = p.seq ∧ q.job = p.job ∧ q.offset = p.offset)) ++ [p]
        ∧ (s.firstPort ack = some out → (s.port out).retrain = false → t.fabric.out = s.fabric.out ++ [ack])))
      ∧ (p.job ≠ 0 → s.jobOf raw = none → s.gives (.dataWrite port raw) (fun t =>
          t.fabric.inbox = s.fabric.inbox ∧ t.fabric.out = s.fabric.out)))
    ∧ (s.hears port 0x02 raw → p.job = 0 ∨ (s.jobOf raw).isSome = true → s.gives (.dataAcknowledgement port raw) (fun t =>
        t.fabric.out = s.fabric.out.filter (fun q =>
          !(q.type = 0x01 ∧ q.dst = p.src ∧ q.seq = natAt p.payload 0 4 ∧ q.job = p.job ∧ q.offset = natAt p.payload 4 4))))
    ∧ (s.hears port 0x40 raw → s.gives (.timeProbe port raw t2 t3) (fun t => t.cores = s.cores ∧
        (s.firstPort ans = some out → (s.port out).retrain = false → t.fabric.out = s.fabric.out ++ [ans])))
    ∧ (s.powered = true → port < 32 → (s.port port).up = true → old.valid = false ∨ 10 ^ 9 ≤ s.since old.tMeas → ex.length = 8 →
        keptExchange ex = some e → s.gives (.timeMeasurement port ex) (fun t =>
          (t.port port).time.valid = true ∧ (t.port port).time.offset = exchangeOffset e ∧ (t.port port).time.tMeas = e.1
          ∧ (t.port port).time.drift = (if old.valid = true ∧ 2 ≤ (s.port port).version then
              driftPpb old.offset old.tMeas.toNat (exchangeOffset e) e.1.toNat else 0)))
    ∧ (s.hears port 0x41 raw →
        let found := s.fabric.probes.find? (fun x => x.dst = p.src ∧ x.seq = natAt p.payload 16 4)
        let others := s.fabric.probes.filter (fun x => x.dst ≠ p.src)
        (found = none → s.gives (.timeReply port raw t4) (fun t =>
          t.fabric.exch = s.fabric.exch ∧ t.fabric.probes = s.fabric.probes))
        ∧ (found = some q → q.dst = p.src →
            (mine.length < 7 → s.firstPort (ask p.src p.partition) = some out → s.gives (.timeReply port raw t4) (fun t =>
              t.fabric.exch = s.fabric.exch ++ [(p.src, now)] ∧ t.fabric.probes = others ++ [waits p.src p.partition q.cmd]
              ∧ ((s.port out).retrain = false → t.fabric.out = s.fabric.out ++ [ask p.src p.partition])))
            ∧ (7 ≤ mine.length → keptExchange (mine ++ [now]) = some e → s.gives (.timeReply port raw t4) (fun t =>
                t.fabric.exch = s.fabric.exch.filter (fun e => e.1 ≠ p.src) ∧ t.fabric.probes = others
                ∧ ∀ d o, s.owedOn q.cmd.1 q.cmd.2 = some d → (s.conn d).sess.outst.find? (fun o => o.is q.cmd.1 q.cmd.2) = some o →
                    ∃ k pkt, t.sent d k pkt ∧ pkt.cmdTag = q.cmd.2 ∧ pkt.final = true ∧ pkt.status = stOk ∧ pkt.body = timeRecord
                      { peer := p.src, valid := true, offset := exchangeOffset e, tMeas := e.1, asym := (roundTrip e).toNat / 2 }
                      true))))
    ∧ (s.accepts h rowFbTime true → RouteRec.idBad s.fabric.route module = false →
        let first := ask module h.partition.toNat
        (s.fabric.peers.find module 3 < 3 → s.gives (.fbTime h module) (fun t =>
          t.fabric = s.fabric ∧ t.replied s h rowFbTime stVersion 0 (leBytes 4 module)))
        ∧ (3 ≤ s.fabric.peers.find module 3 → s.fabric.probes.any (fun q => q.dst = module) = true → s.gives (.fbTime h module)
            (fun t => t.fabric = s.fabric ∧ t.replied s h rowFbTime stBusy))
        ∧ (3 ≤ s.fabric.peers.find module 3 → s.fabric.probes.any (fun q => q.dst = module) = false →
            (s.firstPort first = some out → s.gives (.fbTime h module) (fun t =>
              t.fabric.probes = s.fabric.probes ++ [waits module h.partition.toNat (h.conn, h.cmdTag)]
              ∧ ((s.port out).retrain = false → t.fabric.out = s.fabric.out ++ [first])
              ∧ t.sent h.conn 2 (s.reply h rowFbTime stAccepted false)))
            ∧ (s.firstPort first = none → s.gives (.fbTime h module) (fun t =>
                t.fabric = s.fabric ∧ t.replied s h rowFbTime stFailed))))

/-! Jobs of the fabric. -/

/-- R288, R295, R297, R310, R325: jobs and barriers. A job is created over its members under its epoch and floor, in the place
of one of its ID with nothing outstanding, and reported; a member below the floor refuses it; it is ended when nothing is
outstanding. A member's barrier arrives at rank 0, which holds the ranks that have come and releases it once all have; its
release ends the member's barrier, and one of another number is discarded, as is an arrival for a barrier that has completed; a
barrier whose timeout has run is released as failed, and a member without a release to come gives up after its timeout and
T_bar. The model's own in it: log 12, 36, 102, 175, 176. -/
def Obligations.JobsAndBarriers : Prop :=
  ∀ (s : State) (h : Hdr) (id floor port timeout : Nat) (epoch : BitVec 8) (number : BitVec 16) (members : List Nat) (p : FabPkt)
    (j : Job) (b : Barrier),
    let n := natAt p.payload 0 2
    let held := fun (k rank : Nat) (since : U64) (limit : Nat) =>
      let b0 := (j.roots.find? (fun x => x.number = k)).getD { number := k, first := since, timeout := limit }
      { b0 with arrived := insertNat rank b0.arrived }
    let rest := fun (k : Nat) => j.roots.filter (fun x => x.number ≠ k)
    let ended := fun (t : State) (st : Nat) => ∀ c tag d o, b.cmd = some (c, tag) → s.owedOn c tag = some d →
      (s.conn d).sess.outst.find? (fun o => o.is c tag) = some o →
      ∃ k pkt, t.sent d k pkt ∧ pkt.cmdTag = tag ∧ pkt.final = true ∧ pkt.status = st
    let new := s.newJob h id epoch floor members
    let new1 := { new with tbar := s.tbarOf new }
    (s.accepts h rowFbJob true → 2 ≤ members.length → members.length ≤ 4096 → 1 ≤ floor → floor ≤ 3 → 0 < id → id < 2 ^ 24 →
      (∀ m ∈ members, RouteRec.idBad s.fabric.route m = false) → s.moduleId ∈ members → members.Nodup →
      (new.version ≤ 1 → (∃ m ∈ members, 65536 ≤ m) → s.gives (.fbJobCreate h id epoch floor members) (fun t =>
        t.fabric = s.fabric ∧ t.replied s h rowFbJob stBadParam))
      ∧ ((2 ≤ new.version ∨ ∀ m ∈ members, m < 65536) →
      ((s.job id).any (fun x => x.busy || decide (x.partition ≠ h.partition.toNat)) = true →
        s.gives (.fbJobCreate h id epoch floor members) (fun t => t.fabric = s.fabric ∧ t.replied s h rowFbJob stBusy))
      ∧ ((s.job id).any (fun x => x.busy || decide (x.partition ≠ h.partition.toNat)) = false →
          (∀ m, s.laggard new = some m → s.gives (.fbJobCreate h id epoch floor members) (fun t =>
            t.fabric = s.fabric ∧ t.replied s h rowFbJob stVersion 0 (leBytes 4 m)))
          ∧ (s.laggard new = none → s.gives (.fbJobCreate h id epoch floor members) (fun t => t.job id = some new1
              ∧ new1.epoch = epoch ∧ new1.members = members ∧ new1.floor = floor ∧ new1.partition = h.partition.toNat
              ∧ new1.version = (members.map s.memberVer).foldl Nat.min 3 ∧ new1.busy = false
              ∧ t.replied s h rowFbJob stOk 0 (Config.layout 0x0903 [s.tbarOf new]))))))
    ∧ (s.job id = some j → j.partition = h.partition.toNat →
      (s.accepts h rowFbJob true → s.gives (.fbJobQuery h id) (fun t => t.fabric = s.fabric ∧ t.replied s h rowFbJob stOk 0
        (Config.layout 0x0903 ([j.tbar, j.version, j.epoch.toNat] ++ (j.roots.flatMap (fun b => b.arrived))))))
      ∧ (s.accepts h rowFbJob true →
          (j.busy = false → s.gives (.fbJobEnd h id) (fun t => t.job id = none ∧ t.replied s h rowFbJob stOk))
          ∧ (j.busy = true → s.gives (.fbJobEnd h id) (fun t => t.fabric = s.fabric ∧ t.replied s h rowFbJob stBusy)))
      ∧ (s.accepts h rowFbBarrier true →
          let k := number.toNat
          let b1 := held k 0 s.stamp timeout
          let mine : Barrier := { number := k, timeout := timeout, cmd := some (h.conn, h.cmdTag), sentAt := s.stamp }
          let arrive := { j.packet 0x10 (j.members.headD 0) (leBytes 2 k ++ leBytes 2 0 ++ leBytes 8 timeout) with
            src := s.moduleId, seq := s.fabric.seqs.find (j.members.headD 0 * 256 + 0x10) 0 }
          (j.barrier ≠ none → s.gives (.fbBarrier h id number timeout) (fun t =>
            t.fabric = s.fabric ∧ t.replied s h rowFbBarrier stBusy))
          ∧ (j.barrier = none → s.gives (.fbBarrier h id number timeout) (fun t =>
              t.sent h.conn 2 (s.reply h rowFbBarrier stAccepted false)
              ∧ (j.rank = 0 → k ∈ j.done → ∃ x, t.job id = some x ∧ x.barrier = some mine ∧ x.roots = j.roots)
              ∧ (j.rank = 0 → k ∉ j.done → b1.arrived.length ≠ j.members.length → ∃ x, t.job id = some x
                  ∧ x.barrier = some mine ∧ x.roots = rest k ++ [b1])
              ∧ (j.rank = 0 → k ∉ j.done → b1.arrived.length = j.members.length → ∃ x, t.job id = some x
                  ∧ x.barrier = none ∧ x.roots = rest k ∧ k ∈ x.done)
              ∧ (j.rank ≠ 0 → (∃ x, t.job id = some x ∧ x.barrier = some mine ∧ x.roots = j.roots)
                  ∧ ∀ out, s.firstPort arrive = some out → (s.port out).retrain = false →
                    t.fabric.out = s.fabric.out ++ [arrive])))))
    ∧ (s.jobOf p = some j → s.job p.job = some j →
      (s.hears port 0x10 p → j.rank = 0 → p.ref.toNat < j.members.length →
        let b1 := held n p.ref.toNat s.stamp (natAt p.payload 4 8)
        (n ∈ j.done → s.gives (.barrierArrive port p) (fun t => t.fabric.jobs = s.fabric.jobs))
        ∧ (n ∉ j.done → b1.arrived.length ≠ j.members.length → s.gives (.barrierArrive port p) (fun t =>
            ∃ x, t.job p.job = some x ∧ x.roots = rest n ++ [b1] ∧ x.barrier = j.barrier))
        ∧ (n ∉ j.done → b1.arrived.length = j.members.length → s.gives (.barrierArrive port p) (fun t =>
            (∃ x, t.job p.job = some x ∧ x.roots = rest n ∧ n ∈ x.done)
            ∧ (j.barrier = some b → b.number = n → ended t stOk))))
      ∧ (s.hears port 0x11 p →
          (j.barrier = some b → b.number = n → s.gives (.barrierRelease port p) (fun t =>
            (∃ x, t.job p.job = some x ∧ x.barrier = none ∧ n ∈ x.done)
            ∧ ended t (if natAt p.payload 2 2 = 0 then stOk else stTimeout)))
          ∧ (j.barrier.map Barrier.number ≠ some n → s.gives (.barrierRelease port p) (fun t =>
              t.fabric.jobs = s.fabric.jobs))))
    ∧ (s.job id = some j → s.powered = true →
        (j.roots.find? (fun b => decide (b.timeout ≤ s.since b.first)) = some b → s.gives (.barrierTimeout id) (fun t =>
          ∃ x, t.job id = some x ∧ x.roots = rest b.number ∧ b.number ∈ x.done
            ∧ (j.barrier.map Barrier.number = some b.number → x.barrier = none)))
        ∧ (j.roots.find? (fun b => decide (b.timeout ≤ s.since b.first)) = none → j.barrier = some b →
            (∀ x ∈ j.roots, x.number ≠ b.number) → b.timeout + j.tbar ≤ s.since b.sentAt → s.gives (.barrierTimeout id) (fun t =>
              (∃ x, t.job id = some x ∧ x.barrier = none ∧ b.number ∈ x.done) ∧ ended t stTimeout)))

/-- R294, R301, R302, R303: reductions over a job. An accepted one takes its own elements as its first sum and waits for the
ranks below it; with those whole, or none, they are combined in rank order: rank 0 writes the result, another rank sends its
partial up, where a link leads there, and waits for word of the outcome, and where none does the reduction ends on it. While one is
under way another is answered `BUSY`, and an operator that the job's version does not allow `VERSION`.
A partial and a result of the reduction in progress are kept by their offset until they are whole, those of a later one are kept for
it, and those of an earlier one are discarded; the whole result is written where the command wants it, and ends the reduction; the
message of a failed member ends it too, and the one whose command is still to come fails with it. The model's own in it: log 36, 102,
151, 197. -/
def Obligations.JobReductions : Prop :=
  ∀ (s : State) (h : Hdr) (q : ReduceParams) (port out : Nat) (p : FabPkt) (j : Job) (r : Reduce) (g d : Region),
    let u := s.taken h rowFbReduce
    let n := q.count * reduceSize q.fmt
    let kids := childRanks j.rank j.members.length
    let up := parentRank j.rank
    let per := j.perPacket * reduceSize q.fmt
    let bytes := u.regionBytes g (stackOff q.src) n
    let r0 := j.reduce.getD {}
    let own := (List.range (ceilDiv n per)).filter (fun i => spPoison ((bytes.drop (per * i)).take per))
    let mine := { r0 with op := q.op, fmt := q.fmt, count := q.count, src := q.src, dst := q.dst, all := q.all, planned := q.planned
                          acc := reduceLoad q.fmt q.count (bytes.map Prod.fst), cmd := some (h.conn, h.cmdTag)
                          bad := own.foldl (fun l i => insertNat i l) r0.bad }
    let start := Instr.fbReduce h q
    let told := r0.failed
    let number := natAt p.payload 0 4
    let body := p.payload.drop 4
    let had := (r0.parts.find p.ref.toNat []).filter (fun x => x.1 ≠ p.offset)
    let kept := { r0 with parts := r0.parts.put p.ref.toNat (had ++ [(p.offset, body)])
                          bad := if p.poison then insertNat (p.offset / (4 * j.perPacket)) r0.bad else r0.bad }
    let whole := { r with result := r.result.filter (fun x => x.1 ≠ p.offset) ++ [(p.offset, body)]
                          bad := if p.poison then insertNat (p.offset / (j.perPacket * reduceSize r.fmt)) r.bad else r.bad }
    let need := if r.all then r.count * reduceSize r.fmt else 0
    let written := fun (t v : State) (y : Reduce) => t.stackSet =
      (v.reduceWrite j y (reduceStore y.fmt (y.combined kids)) (j.perPacket * reduceSize y.fmt)).stackSet
    let ended := fun (t : State) (id : Nat) => ∃ x, t.job id = some x ∧ x.reduceNo = (j.reduceNo + 1) % 2 ^ 32
      ∧ (j.early = [] → x.reduce = none)
    let linked := ∀ c ∈ kids, s.rankPort j c ≠ none
    let head : FabPkt := { j.packet 0x20 (j.members.getD up 0) [] with seq := s.fabric.seqs.find (j.members.getD up 0 * 256 + 0x20) 0 }
    let partials := fun (y : Reduce) =>
      (y.packets (cutMessage head (4 * j.perPacket) ((y.combined kids).flatMap (fun w => leBytes 4 w.toNat)))).map (fun a =>
        { a with payload := leBytes 4 j.reduceNo ++ a.payload, src := s.moduleId })
    let goesUp := fun (t : State) (id : Nat) (y : Reduce) =>
      (∃ x z, t.job id = some x ∧ x.reduce = some z ∧ z.sent = true ∧ z.acc = y.combined kids)
      ∧ ((s.port out).retrain = false → t.fabric.out = s.fabric.out ++ partials y)
    (s.accepts h rowFbReduce true → s.job q.job = some j → j.partition = h.partition.toNat → 0 < q.count → q.count ≤ 16777216 →
      q.op ≤ 5 → q.fmt ≤ 2 → (3 ≤ q.op → q.fmt = 0) → u.resolve j.partition 0 q.src n = some g →
      u.resolve j.partition 0 q.dst n = some d →
      (reduceAllowed j.version q.op q.fmt = false → s.gives start (fun t =>
        t.fabric = s.fabric ∧ t.replied s h rowFbReduce stVersion))
      ∧ (reduceAllowed j.version q.op q.fmt = true →
          (r0.cmd ≠ none → s.gives start (fun t => t.fabric = s.fabric ∧ t.replied s h rowFbReduce stBusy))
          ∧ (r0.cmd = none → s.gives start (fun t => t.sent h.conn 2 (s.reply h rowFbReduce stAccepted false)))
          ∧ (r0.cmd = none → told ≠ none → s.gives start (fun t => ended t q.job))
          ∧ (r0.cmd = none → told = none → r0.sent = true ∨ mine.whole kids = false → s.gives start (fun t =>
              ∃ x, t.job q.job = some x ∧ x.reduce = some mine))
          ∧ (r0.cmd = none → told = none → r0.sent = false → mine.whole kids = true → j.rank = 0 → s.gives start (fun t =>
              ended t q.job ∧ (linked → written t (u.regionTouched g (stackOff q.src) n j.partition) mine)))
          ∧ (r0.cmd = none → told = none → r0.sent = false → mine.whole kids = true → j.rank ≠ 0 →
              (s.rankPort j up = some out → s.gives start (fun t => goesUp t q.job mine))
              ∧ (s.rankPort j up = none → s.gives start (fun t => ended t q.job)))))
    ∧ (s.jobOf p = some j → s.job p.job = some j →
      (s.hears port 0x20 p →
        (p.ref.toNat ∉ kids ∨ (number ≠ j.reduceNo ∧ j.later p = false) → s.gives (.reductionPartial port p) (fun t =>
          t.fabric.jobs = s.fabric.jobs))
        ∧ (p.ref.toNat ∈ kids → j.later p = true → s.gives (.reductionPartial port p) (fun t => ∃ x, t.job p.job = some x
            ∧ x.reduce = j.reduce ∧ p ∈ x.early ∧ ∀ y ∈ j.early, y.ref ≠ p.ref ∨ y.offset ≠ p.offset ∨ natAt y.payload 0 4 ≠ number →
              y ∈ x.early))
        ∧ (p.ref.toNat ∈ kids → number = j.reduceNo → p.offset = 0xFFFFFFFF → s.gives (.reductionPartial port p) (fun t =>
            (r0.cmd ≠ none → ended t p.job)
            ∧ (r0.cmd = none → ∃ x y, t.job p.job = some x ∧ x.reduce = some y ∧ y.failed ≠ none)))
        ∧ (p.offset ≠ 0xFFFFFFFF → number = j.reduceNo → p.ref.toNat ∈ kids → r0.cmd = none ∨ r0.sent = true ∨ kept.whole kids = false →
            s.gives (.reductionPartial port p) (fun t => ∃ x, t.job p.job = some x ∧ x.reduce = some kept))
        ∧ (p.offset ≠ 0xFFFFFFFF → number = j.reduceNo → p.ref.toNat ∈ kids → r0.cmd ≠ none → r0.sent = false → kept.whole kids = true →
            (j.rank = 0 → s.gives (.reductionPartial port p) (fun t => ended t p.job ∧ (linked → written t s kept)))
            ∧ (j.rank ≠ 0 → s.rankPort j up = some out → s.gives (.reductionPartial port p) (fun t => goesUp t p.job kept))
            ∧ (j.rank ≠ 0 → s.rankPort j up = none → s.gives (.reductionPartial port p) (fun t => ended t p.job))))
      ∧ (s.hears port 0x21 p →
        (j.rank = 0 ∨ p.ref.toNat ≠ up ∨ (number ≠ j.reduceNo ∧ j.later p = false) →
          s.gives (.reductionResult port p) (fun t => t.fabric.jobs = s.fabric.jobs))
        ∧ (j.reduce = some r → r.cmd ≠ none → p.offset = 0xFFFFFFFF → number = j.reduceNo → p.ref.toNat = up → j.rank ≠ 0 →
            s.gives (.reductionResult port p) (fun t => ended t p.job))
        ∧ (j.reduce = some r → p.offset ≠ 0xFFFFFFFF → number = j.reduceNo → r.sent = true → p.ref.toNat = up → j.rank ≠ 0 →
            ((joinParts whole.result).length < need → s.gives (.reductionResult port p) (fun t =>
              ∃ x, t.job p.job = some x ∧ x.reduce = some whole))
            ∧ (need ≤ (joinParts whole.result).length → r.cmd ≠ none → linked → s.gives (.reductionResult port p) (fun t =>
                ended t p.job ∧ t.stackSet = (if r.all then s.reduceWrite j whole (joinParts whole.result)
                  (j.perPacket * reduceSize r.fmt) else s).stackSet)))))

/-- R204, R205, R304 to R306: messages to many, and shipments. A multicast is accepted and, where every target can be reached,
waits for their results; a target keeps what has come by its offset; results reach the origin, which completes with the last of
them or at its timeout, and a target passes them up to the module that sent it the message. A receiving request keeps the packets of a manifest and of pages, takes
over what a good whole manifest says, holds a page whose digest agrees and drops one whose digest does not, and asks for what is
missing once its last page is due and 1 ms has passed; the sender notes each page asked for again, and a finished shipment retires its request. The model's own in
it: log 1 (a timeout sent early does nothing), 36, 37, 102, 178, 179. -/
def Obligations.MulticastsAndShipments : Prop :=
  (∀ (s : State) (h : Hdr) (q : McastParams) (port out : Nat) (p : FabPkt) (j : Job) (m : Mcast) (rx : McastRx) (mh : McastHead)
      (g d : Region),
    let u := s.taken h rowFbMcast
    let ranks := (List.range j.members.length).filter (fun r => r ≠ j.rank ∧ (q.mask.map (fun l => l.contains r)).getD true)
    let targets := ranks.map (fun r => j.members.getD r 0)
    let l := (List.range ((p.payload.length - 8) / 8)).map (fun i =>
      (natAt p.payload (8 * i + 8) 4, natAt p.payload (8 * i + 12) 4))
    let mine := natAt p.payload 0 4 = j.rank ∧ natAt p.payload 4 4 = m.seq
    let old := (j.rx.find? (fun r => r.origin = p.ref.toNat ∧ r.seq = p.seq)).getD { origin := p.ref.toNat, seq := p.seq, sender := p.src }
    let number := (targets.map (fun v => s.fabric.seqs.find (v * 256 + 0x30) 0)).foldl Nat.max 0
    (s.accepts h rowFbMcast true → s.job q.job = some j → j.partition = h.partition.toNat → 0 < q.length → q.length ≤ 2 ^ 26 →
      (∀ r ∈ q.mask.getD [], r < j.members.length ∧ r ≠ j.rank) → ranks ≠ [] → (q.region.isSome = true → q.length % 2048 = 0) →
      u.resolve j.partition 0 q.src q.length = some g → u.resolve j.partition 0 q.recAddr (4 * ranks.length) = some d →
      (j.version < 2 → s.gives (.fbMcast h q) (fun t => t.fabric = s.fabric ∧ t.replied s h rowFbMcast stVersion 0 (leBytes 4 j.slow)))
      ∧ (2 ≤ j.version → j.mcast ≠ none → s.gives (.fbMcast h q) (fun t => t.fabric = s.fabric ∧ t.replied s h rowFbMcast stBusy))
      ∧ (2 ≤ j.version → j.mcast = none → s.gives (.fbMcast h q) (fun t => t.sent h.conn 2 (s.reply h rowFbMcast stAccepted false)
          ∧ ((∀ v ∈ targets, ∀ a : FabPkt, a.dst = v → s.firstPort a ≠ none) → ∃ x, t.job q.job = some x ∧ x.mcast = some {
              targets := targets, length := q.length, recAddr := q.recAddr, deadline := BitVec.ofNat 64 (s.now + q.timeout)
              seq := number, cmd := some (h.conn, h.cmdTag) }))))
    ∧ (s.jobOf p = some j → s.job p.job = some j →
      (s.hears port 0x30 p → s.gives (.multicastData port p) (fun t => ∃ x y, t.job p.job = some x ∧ y ∈ x.rx ∧ y.origin = p.ref.toNat
        ∧ y.seq = p.seq ∧ (∀ r ∈ j.rx, r.origin ≠ p.ref.toNat ∨ r.seq ≠ p.seq → ∃ z ∈ x.rx, z = { r with result := z.result })
        ∧ y.got = (if old.got.any (fun v => v.1 = p.offset) then old.got else old.got ++ [(p.offset, p.payload)])
        ∧ y.bad = (if p.poison then insertNat p.offset old.bad else old.bad)))
      ∧ (s.hears port 0x31 p →
          (j.mcast = none ∨ (j.mcast = some m ∧ ¬mine) → s.gives (.multicastStatus port p) (fun t => t.fabric.jobs = s.fabric.jobs))
          ∧ (j.mcast = some m → mine → (∃ n, n < m.targets.length ∧ m.results.has n = false ∧ ∀ e ∈ l, e.1 ≠ n) →
              s.gives (.multicastStatus port p) (fun t => ∃ x y, t.job p.job = some x ∧ x.mcast = some y
                ∧ (∀ e ∈ l, y.results.has e.1 = true) ∧ ∀ n, m.results.has n = true → y.results.find n 0 = m.results.find n 0))
          ∧ (j.mcast = some m → mine → (∀ n, n < m.targets.length → m.results.has n = true ∨ ∃ e ∈ l, e.1 = n) →
              s.gives (.multicastStatus port p) (fun t => ∃ x, t.job p.job = some x ∧ x.mcast = none))
          ∧ (natAt p.payload 0 4 ≠ j.rank → j.rx.find? (fun r => r.origin = natAt p.payload 0 4 ∧ r.seq = natAt p.payload 4 4) = some rx →
              mcastHeadOf rx.got = some mh → s.moduleId ∈ mh.targets → l ≠ [] →
              let on : FabPkt := { j.packet 0x31 rx.sender (statusPayload rx.origin rx.seq l) with
                src := s.moduleId, seq := s.fabric.seqs.find (rx.sender * 256 + 0x31) 0 }
              s.gives (.multicastStatus port p) (fun t => t.fabric.jobs = s.fabric.jobs
                ∧ (s.firstPort on = some out → (s.port out).retrain = false → t.fabric.out = s.fabric.out ++ [on])))))
    ∧ (s.job p.job = some j → j.mcast = some m → s.powered = true →
        (m.deadline.toNat ≤ s.now → s.gives (.mcastTimeout p.job) (fun t => ∃ x, t.job p.job = some x ∧ x.mcast = none))
        ∧ (s.now < m.deadline.toNat → exec (.mcastTimeout p.job) s = .next s)))
  ∧ (∀ (s : State) (port i out o : Nat) (p : FabPkt) (g : Region) (e : Nat × List Byte),
      let r := s.req i
      let k := p.offset / 2048 % 32
      let ed := s.kvEdition i
      let page := (p.seq + 2 ^ 32 - r.kvSeq.getD p.seq) % 2 ^ 32 * 65536 + p.offset / 65536
      let id := (s.edition ed).pageId page
      let had := r.kvParts.find id 0
      let new := if had.testBit k then had else had + 2 ^ k
      let known := r.kvFromPage = [] ∨ ∃ e ∈ r.kvFromPage, e.1 = id
      let got := r.kvManifest.filter (fun x => x.1 ≠ p.offset) ++ [(p.offset, p.payload)]
      let b := joinParts got
      let whole := 64 ≤ b.length ∧ 64 + 52 * natAt b 32 4 ≤ b.length
      let right := natAt b 4 2 = ed ∧ natAt b 0 4 = 0x4B4D564B
      let missing := (r.kvFromPage.filter (fun e => !r.kvHave.contains e.1)).map Prod.fst
      let nak : FabPkt := { version := 3, type := 0x0B, dst := r.kvSrc, partition := r.partition, ref := s.tag i, src := s.moduleId
                            seq := s.fabric.seqs.find (r.kvSrc * 256 + 0x0B) 0 }
      let ids := (List.range (p.payload.length / 4)).map (fun k => natAt p.payload (4 * k) 4)
      (s.receiverOf p = some i →
        (s.hears port 0x08 p →
          (¬whole → s.gives (.kvManifest port p) (fun t => t.req i = { r with kvManifest := got, kvLast := s.stamp, kvSrc := p.src }))
          ∧ (whole → ¬right → s.gives (.kvManifest port p) (fun t =>
              t.req i = { r with kvManifest := [], kvLast := s.stamp, kvSrc := p.src }))
          ∧ (whole → right → (∃ e ∈ manifestPages b, e.1 ∉ r.kvHave ∧ r.kvParts.find e.1 0 ≠ 2 ^ 32 - 1) →
              s.gives (.kvManifest port p) (fun t => (t.req i).kvFromPage = manifestPages b ∧ (t.req i).committed = natAt b 12 4
                ∧ (t.req i).lastToken = natAt b 16 4 % 2 ^ 18 ∧ (t.req i).kvWait = true
                ∧ ∀ id, (∀ e ∈ manifestPages b, e.1 ≠ id) → (t.req i).kvParts.has id = false)))
        ∧ (s.hears port 0x09 p → r.pageOffset page = some o → (s.part r.partition).regions.find? 2 = some g →
            let w := s.regionWrite g (o + 2048 * k) (p.payload.map (fun x => (x, p.poison))) r.partition
            let data := w.pageData i ((s.edition ed).pageIndex id)
            let agrees := leBytes 48 (Config.sha384 (data.map Prod.fst)) = e.2 ∧ spPoison data = false
            let kept := { r with kvLast := s.stamp, kvSrc := p.src, kvSeq := some (r.kvSeq.getD p.seq) }
            (¬known ∨ id ∈ r.kvHave ∨ p.offset % 2048 ≠ 0 ∨ p.payload.length ≠ 2048 → s.gives (.kvPage port p) (fun t =>
              t.req i = kept ∧ t.stackSet = s.stackSet))
            ∧ (known → id ∉ r.kvHave → p.offset % 2048 = 0 → p.payload.length = 2048 →
                (r.kvFromPage = [] ∨ new ≠ 2 ^ 32 - 1 → s.gives (.kvPage port p) (fun t => t.stackSet = w.stackSet
                  ∧ t.req i = { kept with kvParts := r.kvParts.put id new }))
                ∧ (new = 2 ^ 32 - 1 → r.kvFromPage.find? (fun e => e.1 = id) = some e →
                    (agrees → (∃ x ∈ r.kvFromPage, x.1 ≠ id ∧ x.1 ∉ r.kvHave) → s.gives (.kvPage port p) (fun t =>
                      (t.req i).kvHave = insertNat id r.kvHave))
                    ∧ (¬agrees → s.gives (.kvPage port p) (fun t =>
                        (t.req i).kvHave = r.kvHave ∧ (t.req i).kvParts.has id = false))))))
      ∧ (s.powered = true → r.kvWait = true → r.state = .admitted → missing ≠ [] → 1000000 ≤ s.since r.kvLast →
          r.kvDue.toNat ≤ s.now → s.gives (.kvNakTimer i) (fun t => (t.req i).kvLast = s.stamp ∧ t.cores = s.cores
            ∧ (s.firstPort nak = some out → (s.port out).retrain = false →
                t.fabric.out = s.fabric.out ++ cutMessage nak 256 (missing.flatMap (fun id => leBytes 4 id)))))
      ∧ (s.shipmentOf p = some i →
        (s.hears port 0x0A p → s.gives (.kvDone port p) (fun t =>
          (t.req i).state = (if r.buffered.isEmpty then .retired else .draining) ∧ (t.req i).finalStatus = stFinished
          ∧ (t.req i).shipping = false ∧ ∀ x, x ≠ i → t.req x = s.req x))
        ∧ (s.hears port 0x0B p → s.gives (.kvNak port p) (fun t =>
            (∀ id ∈ ids, id ∈ (t.req i).kvNaks) ∧ (∀ id ∈ (t.req i).kvNaks, id ∈ r.kvNaks ∨ id ∈ ids)
            ∧ ∀ x, x ≠ i → t.req x = s.req x))))

/-! Sessions and the link of the control node. -/

/-- R319, R327, R337 to R339, R345, R347, R348, R407: sessions. One is opened, as the active or as the standby one, or resumed
from either connector, at a command set in both ranges; without one `VERSION` and the module's range are answered; one is
closed, made the active one; an authentication draws a nonce, and a proof that verifies under an anchor gives the session its
level; one that fails counts, and the third closes the session and locks the connector; an unclaimed module takes the key that
proves itself, a claimed one none; nonces, lockouts and unresumed sessions end in time. The model's own in it: log 10, 12, 91,
92, 198, 199. -/
def Obligations.SessionsAndAuthentication : Prop :=
  ∀ (s : State) (h : Hdr) (o : OpenParams) (level : BitVec 8) (rsa slh : List Byte) (set nonce c d : Nat) (until' : U64),
    let v := (s.conn h.conn).sess
    let w := fun (t : State) => (t.conn h.conn).sess
    let link := (s.conn h.conn).link.toNat
    let other := (s.conn (1 - h.conn)).sess
    let denied := fun (i : Instr) (row : CmdRow) (st : Nat) =>
      s.gives i (fun t => (w t).isOpen = v.isOpen ∧ (w t).level = v.level ∧ t.ledger = s.ledger ∧ t.replied s h row st)
    let failed := fun (i : Instr) =>
      (v.fails < 2 → s.gives i (fun t =>
        (w t).level = v.level ∧ (w t).fails = v.fails + 1 ∧ (w t).nonce = none ∧ t.replied s h rowSsAuth stBadSignature))
      ∧ (2 ≤ v.fails → s.gives i (fun t => (w t).isOpen = false ∧ (w t).level = none
          ∧ (t.conn h.conn).lockUntil = some (BitVec.ofNat 64 (s.now + 1000000000))))
    (s.accepts h rowSsOpen (h.length = 32) → (o.resume = true → 0x0202 ≤ link) → (o.standby = true → 0x0200 ≤ link) →
      (commonSet o.cmdMin o.cmdMax = none → s.gives (.ssOpen h o) (fun t => (w t).isOpen = v.isOpen
        ∧ t.replied s h rowSsOpen stVersion 0 (Config.layout 0x0101 [0x0300, 0x0501])))
      ∧ (commonSet o.cmdMin o.cmdMax = some set →
          (o.resume = false → v.isOpen = true → v.resumeBy = none ∨ 0x0202 ≤ link → denied (.ssOpen h o) rowSsOpen stBadState)
          ∧ (o.resume = false → o.standby = false → v.isOpen = false → other.isOpen = true → other.standby = false →
              denied (.ssOpen h o) rowSsOpen stBadState)
          ∧ (o.resume = false → o.standby = false → v.isOpen = false → other.isOpen = false ∨ other.standby = true →
              s.gives (.ssOpen h o) (fun t => (w t).isOpen = true ∧ (w t).standby = false ∧ (w t).id = Config.sessionId s.free
                ∧ (w t).cmdSet = BitVec.ofNat 16 set ∧ (w t).level = none ∧ t.alaok.active = h.conn))
          ∧ (o.resume = false → o.standby = true → v.isOpen = false → s.standbyPlace h.conn = true → s.gives (.ssOpen h o) (fun t =>
              (w t).isOpen = true ∧ (w t).standby = true ∧ (w t).id = Config.sessionId s.free
              ∧ (w t).cmdSet = BitVec.ofNat 16 set ∧ (w t).level = none ∧ t.alaok.active = s.alaok.active))
          ∧ (o.resume = true → s.sessionNamed o.sessionId = none → denied (.ssOpen h o) rowSsOpen stNoSuch)
          ∧ (o.resume = true → s.sessionNamed o.sessionId = some d → d = h.conn ∨ v.isOpen = false →
              let was := (s.conn d).sess
              s.gives (.ssOpen h o) (fun t => (w t).isOpen = true ∧ (w t).resumeBy = none ∧ (w t).id = was.id
                ∧ (w t).level = was.level ∧ (w t).keyDigest = was.keyDigest ∧ (w t).cmdSet = BitVec.ofNat 16 set
                ∧ (d ≠ h.conn → (t.conn d).sess = {})
                ∧ t.alaok.active = (if s.alaok.active = d then h.conn else s.alaok.active)))))
    ∧ (s.accepts h rowSsClose (h.length = 0) → s.gives (.ssClose h) (fun t =>
        w t = {} ∧ t.reqs = s.reqs ∧ t.replied s h rowSsClose stOk))
    ∧ (s.accepts h rowSsTakeover (h.length = 0) →
      (v.standby = false → denied (.ssTakeover h) rowSsTakeover stBadState)
      ∧ (v.standby = true → s.serving = true → s.gives (.ssTakeover h) (fun t =>
          t.mod.deferred = s.mod.deferred ++ [.takeover h.conn h.cmdTag] ∧ (w t).standby = true
          ∧ t.sent h.conn 2 (s.reply h rowSsTakeover stAccepted false)))
      ∧ (v.standby = true → s.serving = false → h.conn ≤ 1 → s.gives (.ssTakeover h) (fun t =>
          (w t).standby = false ∧ t.alaok.active = h.conn)))
    ∧ (s.accepts h rowSsEcho (h.length = 0) → s.gives (.ssEcho h) (fun t =>
        t.replied s h rowSsEcho stOk 0 (leBytes 8 s.now ++ (s.conn h.conn).clockBytes)))
    ∧ (s.accepts h rowSsAuth (h.length = 440) →
        (1 < level.toNat → denied (.ssAuthBegin h level rsa slh) rowSsAuth stBadParam)
        ∧ (level.toNat ≤ 1 → v.nonce = none ∨ v.authTag ≠ h.cmdTag → s.gives (.ssAuthBegin h level rsa slh) (fun t =>
            (w t).nonce = some (Config.nonce s.free) ∧ (w t).nonceAt = s.stamp ∧ (w t).authLevel = level.toNat
            ∧ (w t).authKey = keyDigest rsa slh ∧ (w t).level = v.level ∧ t.sent h.conn 2
              (s.reply h rowSsAuth stOk false 0 (leBytes 48 (Config.nonce s.free) ++ leBytes 48 Config.identityDigest)))))
    ∧ (s.accepts h rowSsAuth (h.length = 16616) →
      (s.liveNonce h.conn = none →
        denied (.ssAuthProve h rsa slh) rowSsAuth stBadState ∧ denied (.ssAuthClaim h rsa slh) rowSsAuth stBadState)
      ∧ (s.liveNonce h.conn = some nonce →
          (s.proofOk h.conn nonce rsa slh = true → s.anchorOk h.conn = true → s.gives (.ssAuthProve h rsa slh) (fun t =>
            (w t).level = some v.authLevel ∧ (w t).keyDigest = v.authKey ∧ (w t).nonce = none ∧ t.replied s h rowSsAuth stOk))
          ∧ (s.proofOk h.conn nonce rsa slh = false ∨ s.anchorOk h.conn = false → failed (.ssAuthProve h rsa slh))
          ∧ (s.ledger.owner ≠ 0 ∨ s.ledger.ownerNext ≠ none → denied (.ssAuthClaim h rsa slh) rowSsAuth stBadState)
          ∧ (s.ledger.owner = 0 → s.ledger.ownerNext = none →
              (s.proofOk h.conn nonce rsa slh = true → s.gives (.ssAuthClaim h rsa slh) (fun t =>
                t.ledger.ownerNext = some (v.authKey, h.conn, h.cmdTag) ∧ t.ledger.snapping = true ∧ t.ledger.owner = 0
                ∧ t.sent h.conn 2 (s.reply h rowSsAuth stAccepted false)))
              ∧ (s.proofOk h.conn nonce rsa slh = false → failed (.ssAuthClaim h rsa slh)))))
    ∧ (s.powered = true →
      ((s.conn c).sess.nonce.isSome = true → 10000000000 ≤ s.since (s.conn c).sess.nonceAt → s.gives (.nonceExpiry c) (fun t =>
        (t.conn c).sess.nonce = none ∧ (t.conn c).sess.level = (s.conn c).sess.level))
      ∧ ((s.conn c).lockUntil = some until' → until'.toNat ≤ s.now → s.gives (.authLockoutExpiry c) (fun t =>
        t.conn c = { s.conn c with lockUntil := none }))
      ∧ ((s.conn c).sess.resumeBy = some until' → until'.toNat ≤ s.now → s.gives (.sessionResumeExpiry c) (fun t =>
        (t.conn c).sess = {} ∧ t.reqs = s.reqs)))

/-- R314 to R319, R347, R363, R407: the link of a connector. A good frame in its turn and within its credits is put to its
stream, its whole packets leave it, it is acknowledged and its credits return; one beyond its credits is counted and the credits
repeated, and a bad one or one out of turn is answered with a nak once; acknowledgements and credits are taken, and a nak has
what it names and what follows sent again; control frames go out on an idle line; a connector trains, says hello, agrees on a
version and starts its streams anew, loses lanes and goes down, its part-received packets with it; the node's clock is measured
at the start and every second. The model's own in it: log 92, 93, 182, 200. -/
def Obligations.ConnectorLink : Prop :=
  ∀ (s : State) (c x lane stream : Nat) (fr : Frame) (expected : Word) (lo hi : BitVec 16) (credits : List Nat)
    (ex : List (U64 × U64 × U64 × U64)) (e : U64 × U64 × U64 × U64),
    let v := s.conn c
    let r := v.rx.find fr.stream {}
    let cut := cutPackets (r.asm.length + fr.payload.length) (r.asm ++ fr.payload)
    let left := v.lanes &&& ~~~ BitVec.twoPow 4 lane
    let width := if 2 ≤ ((List.range 4).filter (fun i => left.getLsbD i)).length then 2 else 1
    let fits := fr.crcOk = true ∧ fr.payload.length ≤ maxPayload v.link
    let naked := s.gives (.dataFrame c fr) (fun t => (t.conn c).naksSent = v.naksSent ++ [(fr.stream, r.next)]
      ∧ (∃ l x, (t.conn c).heads = l ++ [x] ∧ x.ftype = 3 ∧ x.stream = fr.stream ∧ x.seq = r.next ∧ x.length = 0)
      ∧ (t.conn c).rx.find fr.stream {} = { r with skipping := true } ∧ t.alaok.accepted = s.alaok.accepted)
    let sending := fun (k : Nat) => k = 2 ∨ k = 3 ∨ k = 4
    let down := fun (t : State) => (t.conn c).up = false ∧ (t.conn c).hello = false
      ∧ (∀ k, ((t.conn c).rx.find k {}).asm = [])
      ∧ (v.sess.isOpen = true → v.link.toNat < 0x0202 → s.standbyWaits c = false → (t.conn c).sess = {})
      ∧ (v.sess.isOpen = true → 0x0202 ≤ v.link.toNat ∨ s.standbyWaits c = true → (t.conn c).sess =
          { v.sess with resumeBy := some (BitVec.ofNat 64 (s.now + 60000000000)) })
    s.powered = true →
      (v.carries = true → nodeStream v.link fr.stream = true →
        (¬fits ∨ fr.seq ≠ r.next → r.skipping = false → naked)
        ∧ (¬fits → r.skipping = true → exec (.dataFrame c fr) s = .next s)
        ∧ (fits → fr.seq ≠ r.next → r.skipping = true → s.gives (.dataFrame c fr) (fun t =>
            (t.conn c).naksSent = v.naksSent ∧ (t.conn c).rx = v.rx ∧ t.alaok.accepted = s.alaok.accepted))
        ∧ (fits → fr.seq = r.next → r.credits < ceilDiv fr.payload.length 64 → s.gives (.dataFrame c fr) (fun t =>
            (t.conn c).rx.find fr.stream {} = { r with dropped := r.dropped + 1 } ∧ t.alaok.accepted = s.alaok.accepted
            ∧ ∃ x ∈ (t.conn c).heads, x.ftype = 2 ∧ x.creditStream = fr.stream ∧ x.credit = r.credits))
        ∧ (fits → fr.seq = r.next → ceilDiv fr.payload.length 64 ≤ r.credits → s.gives (.dataFrame c fr) (fun t =>
            (t.conn c).rx.find fr.stream {} = { r with
              next := r.next + 1, skipping := false, asm := cut.2, credits := grantedCredits fr.stream - ceilDiv cut.2.length 64 }
            ∧ (∃ x ∈ (t.conn c).heads, x.ftype = 2 ∧ x.ackStream = fr.stream ∧ x.ack = fr.seq ∧ x.creditStream = fr.stream
                ∧ x.credit = grantedCredits fr.stream - ceilDiv cut.2.length 64 - (r.credits - ceilDiv fr.payload.length 64))
            ∧ ∀ b ∈ cut.1, natAt b 4 4 ≤ 65536 → commandOpcodes.contains (natAt b 0 2) = true → (c, b) ∈ t.alaok.accepted)))
      ∧ (v.carries = true → fr.crcOk = true → fr.payload = [] → s.gives (.linkControlFrame c fr) (fun t =>
          (t.conn c).lastRx = s.stamp ∧ (t.conn c).rx = v.rx
          ∧ (sending fr.ackStream → ((t.conn c).tx.find fr.ackStream {}).acked = fr.ack
              ∧ ∃ more, ((t.conn c).tx.find fr.ackStream {}).unacked =
                  (v.tx.find fr.ackStream {}).unacked.filter (fun y => !seqUpTo fr.ack y.1) ++ more
                ∧ ((v.tx.find fr.ackStream {}).queue = [] → more = []))
          ∧ (sending fr.creditStream → (v.tx.find fr.creditStream {}).queue = [] →
              ((t.conn c).tx.find fr.creditStream {}).credits = (v.tx.find fr.creditStream {}).credits + fr.credit)))
      ∧ (v.carries = true → fr.crcOk = true → fr.payload = [] →
          let u := (s.frameHead c fr).conn c
          let nak : NakHead := { expected := fr.seq, ack := fr.ack, ackStream := fr.ackStream, creditStream := fr.creditStream
                                 credit := fr.credit, crcOk := fr.crcOk }
          (sending fr.stream → s.gives (.nakFrame c fr.stream nak) (fun t =>
            (t.conn c).lastRx = s.stamp ∧ (t.conn c).tx = u.tx
            ∧ ((t.conn c).heads.drop u.heads.length).map (fun x => (x.ftype, x.stream, x.seq)) =
                (u.retryFrom fr.stream fr.seq).map (fun y => (1, fr.stream, y.1))
            ∧ ((u.tx.find fr.stream {}).unacked.any (fun y => seqUpTo y.1 fr.seq) = true → (t.conn c).lastTx = s.stamp)))
          ∧ (¬sending fr.stream → exec (.nakFrame c fr.stream nak) s = .next (s.frameHead c fr)))
      ∧ (v.carries = true → 10000 ≤ s.since v.lastTx →
          s.gives (.idleFrameTimer c) (fun t => (t.conn c).ctlSent = v.ctlSent + 1 ∧ (t.conn c).lastTx = s.stamp
            ∧ (t.conn c).rx = v.rx ∧ (t.conn c).tx = v.tx ∧ (t.conn c).sess = v.sess
            ∧ ∃ x, (t.conn c).heads = v.heads ++ [x] ∧ x.ftype = 2 ∧ x.length = 0 ∧ x.credit = 0 ∧ x.ackStream = v.heard
                ∧ x.ack = (v.rx.find v.heard {}).next - 1))
      ∧ (s.clock.running = false → exec (.connectorTrained c) s = .next s)
      ∧ (c < 2 → v.trained = false → s.clock.running = true → s.mod.powerFail = false → s.gives (.connectorTrained c) (fun t => (t.conn c).up = true ∧ (t.conn c).trained = true
          ∧ (t.conn c).hello = false ∧ (t.conn c).lanes = 0xF ∧ (t.conn c).width = 4 ∧ (t.conn c).helloSent = v.helloSent + 1))
      ∧ (v.up = true → v.trained = true → v.hello = false → s.clock.running = true → s.mod.powerFail = false →
        (v.lockUntil ≠ none → exec (.hello c lo hi credits) s = .next s)
        ∧ (v.lockUntil = none → commonLink lo hi = some x → s.gives (.hello c lo hi credits) (fun t =>
          (t.conn c).hello = true ∧ (t.conn c).link = BitVec.ofNat 16 x ∧ (t.conn c).sess = v.sess
          ∧ (∀ k, k = 0 ∨ k = 1 ∨ k = 5 → (t.conn c).rx.find k {} = { credits := grantedCredits k })
          ∧ ∀ k, sending k → (t.conn c).tx.find k {} =
              { queue := (v.tx.find k {}).unacked.map Prod.snd ++ (v.tx.find k {}).queue, credits := credits.getD k 0 }))
        ∧ (v.lockUntil = none → commonLink lo hi = none → s.gives (.hello c lo hi credits) (fun t => (t.conn c).hello = false))
        ∧ (1000000 ≤ s.since v.helloAt → s.gives (.helloRetry c) (fun t =>
          (t.conn c).helloAt = s.stamp ∧ (t.conn c).helloSent = v.helloSent + 1)))
      ∧ (v.up = true → s.gives (.connectorDown c) down)
      ∧ (v.up = true → lane < 4 → v.lanes.getLsbD lane = true →
        (left ≠ 0 → v.link ≠ 0x0100 → s.gives (.connectorLaneFailure c lane) (fun t => t.conn c = { v with lanes := left, width := width }))
        ∧ (left = 0 ∨ v.link = 0x0100 → s.gives (.connectorLaneFailure c lane) down))
      ∧ (v.carries = true → v.sess.isOpen = true → 0x0201 ≤ v.link.toNat → v.clkValid = false ∨ 10 ^ 9 ≤ s.since v.clkAt →
          ex.length = 8 → keptExchange ex = some e → s.gives (.nodeClockOffset c ex) (fun t => (t.conn c).clkValid = true
            ∧ (t.conn c).clkOffset = exchangeOffset e ∧ (t.conn c).clkAt = e.1
            ∧ (t.conn c).clkDrift = (if v.clkValid then driftPpb v.clkOffset v.clkAt.toNat (exchangeOffset e) e.1.toNat else 0)))

/-! Management, health, protection, assists. -/

/-- R223, R233, R236, R334, R354, R361, R374 to R377, R401, R404: management and health. The power record is written within its
ranges, the policy record is in force from the next boundary, self-tests are taken and finished, a failed array being retired by
the ledger and a failed engine or core marked or taken out, a reset waits for its boundary or runs at once; what lies outside
its range is refused; and the reads are answered with what they name and change nothing else, counters latched at the next
boundary. The model's own in it: log 12, 38, 52, 53, 54, 80, 146, 201, 202. -/
def Obligations.ManagementAndHealth : Prop :=
  ∀ (s : State) (h : Hdr) (power array coldMin index : Word) (rho : BitVec 16) (mode depth scope : BitVec 8) (fast skip : Bool)
    (q : SelfTestParams) (n first count f : Nat) (x : SelfTest) (results : List (Word × BitVec 8 × BitVec 8))
    (filter : List (BitVec 8)),
    let p := h.partition.toNat
    let host := decide (mode = 1)
    let reads := fun (i : Instr) (r : CmdRow) (b : List Byte) => s.gives i (fun t =>
      t.cores = s.cores ∧ t.fields = s.fields ∧ t.parts = s.parts ∧ t.ledger = s.ledger ∧ t.plan = s.plan ∧ t.replied s h r stOk 0 b)
    let denied := fun (i : Instr) (r : CmdRow) (st : Nat) => s.gives i (fun t =>
      t.budget = s.budget ∧ t.parts = s.parts ∧ t.mod.tests = s.mod.tests ∧ t.mod.deferred = s.mod.deferred ∧ t.replied s h r st)
    let inRange := 17000 ≤ power.toNat ∧ power.toNat ≤ 27000 ∧ 2000 ≤ array.toNat ∧ array.toNat ≤ 12000 ∧ 5 ≤ rho.toNat
      ∧ rho.toNat ≤ 40
    let policy := mode.toNat ≤ 1 ∧ depth.toNat ≤ 3 ∧ coldMin ≠ 0 ∧ coldMin.toNat ≤ 3600000
    let rowCtr := rowHlCounters.unless (!s.isLevel0 h.conn && (decide (scope.toNat ≠ 0) || !s.sessOwns h.conn index.toNat))
    let inScope := scope.toNat ≤ 5 ∧ 0 < count ∧ count ≤ 64 ∧ first + count ≤ counterCount scope.toNat
    let given := results.map (fun y => (y.1.toNat, y.2.1.toNat, y.2.2.toNat))
    (s.accepts h rowMgInfo (h.length = 0) → reads (.mgInfo h) rowMgInfo ((List.range 100).flatMap (fun f => leBytes 1 (s.fieldCode f))
        ++ Config.layout rowMgInfo.op ([s.mod.state.code, s.mod.phase, s.failureCode, s.mod.gateIsolated.toNat, s.roundhouse.length] ++ s.roundhouse
          ++ (s.editions.entries.filter (fun (e : Nat × Edition) => e.2.state ≠ .free)).flatMap (fun e =>
            [e.1, e.2.partition, e.2.state.code]))))
    ∧ (s.accepts h rowMgPowerSet (h.length = 16) →
      (inRange → s.gives (.mgPowerSet h power array rho) (fun t =>
          t.budget = { s.budget with powerLimit := power.toNat, arrayLimit := array.toNat, rhoPlan := rho.toNat }
          ∧ t.replied s h rowMgPowerSet stOk))
      ∧ (¬inRange → denied (.mgPowerSet h power array rho) rowMgPowerSet stBadParam))
    ∧ (s.accepts h rowMgPowerGet (h.length = 0) → reads (.mgPowerGet h) rowMgPowerGet
        (leBytes 4 s.budget.powerLimit ++ leBytes 4 s.budget.arrayLimit ++ leBytes 2 s.budget.rhoPlan ++ leBytes 6 0
          ++ Config.layout rowMgPowerGet.op (s.serviceFields.flatMap (fun f => [f, (s.power f).grant, (s.power f).step]))))
    ∧ (s.accepts h rowMgPolicySet (h.length = 16) (if host then 0x0400 else 0) (if host then 0x0200 else 0) →
        (policy → s.serving = true → s.gives (.mgPolicySet h mode depth coldMin) (fun t => t.parts = s.parts
          ∧ t.mod.deferred = s.mod.deferred ++ [.policy p host depth.toNat coldMin.toNat] ∧ t.replied s h rowMgPolicySet stOk))
        ∧ (policy → s.serving = false → s.gives (.mgPolicySet h mode depth coldMin) (fun t =>
            (t.part p).maxDepth = depth.toNat ∧ (t.part p).coldMin = coldMin.toNat ∧ (t.part p).modes.getLsbD 5 = host
            ∧ (∀ b, b ≠ 5 → (t.part p).modes.getLsbD b = (s.part p).modes.getLsbD b) ∧ t.replied s h rowMgPolicySet stOk))
        ∧ (¬policy → denied (.mgPolicySet h mode depth coldMin) rowMgPolicySet stBadParam))
    ∧ (s.accepts h rowMgSelftest (h.length = 16) →
        (s.inService = false → denied (.mgSelftest h q) rowMgSelftest stBadState)
        ∧ (s.inService = true → q.scope.toNat ≤ 4 → SelfTestParams.targetOk q.scope.toNat q.target.toNat = true →
            (4 ≤ s.mod.tests.length → denied (.mgSelftest h q) rowMgSelftest stBusy)
            ∧ (s.mod.tests.length < 4 → s.gives (.mgSelftest h q) (fun t => t.sent h.conn 2 (s.reply h rowMgSelftest stAccepted false)
                ∧ ∃ y, t.mod.tests = s.mod.tests ++ [y] ∧ y.conn = h.conn ∧ y.cmdTag = h.cmdTag ∧ y.tests = q.tests
                  ∧ y.units = testUnits q.scope.toNat q.target.toNat q.tests.toNat))))
    ∧ (s.mod.tests[n]? = some x → s.inService = true → s.stopHolds = false → s.resultsFit x given = true →
        let l := s.testResults x given
        let awaits := x.second = true ∧ ∃ u ∈ x.ran l 0, (s.arrayAt u).samplePass = true ∧ (s.arrayAt u).shadow.isSome = true
        let y := s.testFitted x l
        let room := ∀ z ∈ x.running l, z ∈ y.fit
        (awaits → exec (.selftestComplete n results) s = .next s)
        ∧ (¬awaits → ¬room → s.gives (.selftestComplete n results) (fun t => t.mod.tests = s.mod.tests.set n y ∧ t.cores = s.cores
            ∧ t.fields = s.fields ∧ t.alaok = s.alaok))
        ∧ (¬awaits → room → (s.payTest y l).2.2 = false → s.gives (.selftestComplete n results) (fun t =>
            t.mod.tests = s.mod.tests.set n (s.payTest y l).2.1 ∧ t.cores = s.cores ∧ t.alaok = s.alaok))
        ∧ (¬awaits → room → (s.payTest y l).2.2 = true → x.second = false → x.passed l 0 ≠ [] →
            s.gives (.selftestComplete n results) (fun t => t.mod.tests = s.mod.tests.set n { y with second := true, paid := [] }))
        ∧ (¬awaits → room → (s.payTest y l).2.2 = true → x.second = true ∨ x.passed l 0 = [] →
          s.gives (.selftestComplete n results) (fun t => t.mod.tests = s.mod.tests.eraseIdx n
          ∧ (∀ d o, s.owedOn x.conn x.cmdTag = some d → (s.conn d).sess.outst.find? (fun o => o.is x.conn x.cmdTag) = some o →
              ∃ k pkt, t.sent d k pkt ∧ pkt.cmdTag = x.cmdTag ∧ pkt.final = true
                ∧ pkt.status = (if l.any (fun r => decide (r.2.2 = 1)) then stFault else stOk) ∧ pkt.body = x.body l)
          ∧ ∀ a k, l = [(a, 0, 1)] ∨ l = [(a, 1, 1)] → unpackKey a = some k →
              t.arrayWaits k (unpackEngine a) (unpackArray a) jwState = true)))
    ∧ (s.accepts h rowMgReset (h.length = 8) →
      (s.inService = true → s.stop.kind ≠ .settling → s.gives (.mgReset h fast skip) (fun t =>
        t.mod.deferred = s.mod.deferred ++ [.reset fast skip h.conn h.cmdTag] ∧ t.mod.state = .inService
        ∧ t.sent h.conn 2 (s.reply h rowMgReset stAccepted false)))
      ∧ (s.inService = false ∨ s.stop.kind = .settling → s.gives (.mgReset h fast skip) (fun t =>
        t.mod.state = .bringUp ∧ t.mod.fast = fast ∧ t.reqs = .empty ∧ t.clock = s.clock)))
    ∧ (s.accepts h rowHlConfig true → s.gives (.hlConfig h filter) (fun t =>
        (t.conn h.conn).sess.filter = filter.map BitVec.toNat ∧ t.replied s h rowHlConfig stOk))
    ∧ (s.accepts h rowCtr (h.length = 16) →
        (¬inScope → 5 < scope.toNat ∨ scopeExists scope.toNat index.toNat = true →
            denied (.hlCounters h scope index first count) rowHlCounters stBadParam)
        ∧ (scope.toNat ≤ 5 → scopeExists scope.toNat index.toNat = false →
            denied (.hlCounters h scope index first count) rowHlCounters stNoSuch)
        ∧ (inScope → scopeExists scope.toNat index.toNat = true →
            (s.inService = true → s.gives (.hlCounters h scope index first count) (fun t => t.mod.deferred = s.mod.deferred ++
                [.counters scope.toNat index.toNat first count h.conn h.cmdTag]
              ∧ t.sent h.conn 2 (s.reply h rowHlCounters stAccepted false)))
            ∧ (s.inService = false → reads (.hlCounters h scope index first count) rowHlCounters
                ((s.taken h rowHlCounters).counterBody scope.toNat index.toNat first count))))
    ∧ (s.accepts h rowHlRepairMap true → reads (.hlRepairMap h) rowHlRepairMap (Config.layout rowHlRepairMap.op
        ((s.cores.keys.filter (fun k => s.isLevel0 h.conn || s.sessOwns h.conn (s.ownerOf ((s.core k).placeId.getD k)))).flatMap
          s.repairRecord)))
    ∧ (s.accepts h rowHlLedgerRead true → reads (.hlLedgerRead h) rowHlLedgerRead
        (Config.layout rowHlLedgerRead.op (s.taken h rowHlLedgerRead).ledgerView))
    ∧ (s.accepts h rowHlFaults true → reads (.hlFaults h first count) rowHlFaults
        (((s.mod.faults.filter (fun r => decide (first ≤ r.seq) && s.seesFault h.conn r)).take (Nat.min count 512)).flatMap s.recordBytes))
    ∧ (s.accepts h (rowHlBelfry.unless (fieldExists f && s.fieldDenied h.conn f)) true →
        (fieldExists f = true → s.gives (.hlBelfry h f) (fun t => t.cores = s.cores
          ∧ t.fields = ((s.taken h rowHlBelfry).beginWake f).fields ∧ t.parts = s.parts ∧ t.ledger = s.ledger ∧ t.plan = s.plan
          ∧ t.replied s h rowHlBelfry stOk 0 (Config.layout rowHlBelfry.op (s.field f).belfry.registers)))
        ∧ (fieldExists f = false → denied (.hlBelfry h f) rowHlBelfry stNoSuch))

/-- R14, R340, R341, R344, R348, R350, R354, R355, R357, R358, R360: protection. A change of entries or of the core map that
keeps the tables good waits for the boundary, and acts at once where none comes; cores halted under a debug right that it
withdraws go on at once; any other change is refused. An owner's key starts a snapshot; a fragment of an image is kept, and a
whole, good one of a version that may be installed waits for its snapshot; the entries and the map are read as far as the
session sees them, and the module attests, four at a time. The model's own in it: log 76, 78, 129, 153. -/
def Obligations.ProtectionCommands : Prop :=
  ∀ (s : State) (h : Hdr) (op : BitVec 8) (first count : Nat) (entries : List ProtEntry) (bytes rsa slh nonce : List Byte)
    (last commit : Bool) (mask : U64),
    let u := s.taken h rowPrSet
    let a := s.taken h rowPrAttest
    let img := (if first = 0 then [] else s.ledger.fwFrag) ++ bytes
    let waits := fun (t : State) (d : Deferred) =>
      t.mod.deferred = s.mod.deferred ++ [d] ∧ t.mod.coreMap = s.mod.coreMap ∧ t.sent h.conn 2 (s.reply h rowPrSet stAccepted false)
    let goodEntries := entries ≠ [] ∧ first + entries.length ≤ 64 ∧ entries.any protBad = false
      ∧ (u.tablesNext.setEntries first entries).bad = false
    let goodMap := bytes ≠ [] ∧ first + bytes.length ≤ 6800 ∧ (u.tablesNext.setMap first bytes).bad = false
      ∧ ((List.range bytes.length).zip bytes).any (fun x => u.mapBad (first + x.1) x.2.toNat) = false
    let refused := fun (i : Instr) (row : CmdRow) (st : Nat) =>
      s.gives i (fun t => t.mod.deferred = s.mod.deferred ∧ t.mod.coreMap = s.mod.coreMap ∧ t.parts = s.parts
        ∧ t.ledger = s.ledger ∧ t.replied s h row st)
    let sees := fun (p : Nat) => s.isLevel0 h.conn || s.sessOwns h.conn p
    let firmware := Instr.prSetFirmware h last commit first bytes
    let signed := natAt img 0 4 = 0x5746564B ∧ natAt img 4 2 = 1 ∧ img.length = 64 + natAt img 12 4 + sigBytes
      ∧ sigOk img (64 + natAt img 12 4) 0 Config.role0Anchor = true
    (s.accepts h rowPrSet (h.length = 16 + 176 * entries.length) →
      (goodEntries → s.serving = true → s.gives (.prSetEntries h first entries) (fun t =>
        waits t (.prot first entries h.conn h.cmdTag) ∧ (∀ p, (t.part p).entry = (s.part p).entry)
        ∧ ∀ i (hi : i < entries.length) k, (protGrants (s.part (first + i)).entry).rights.getLsbD 3 = true →
            (protGrants entries[i]).rights.getLsbD 3 = false → s.cores.has k = true →
            s.ownerOf ((s.core k).placeId.getD k) = first + i → (s.core k).mode = .halted ∨ (s.core k).mode = .halting →
            (t.core k).mode = .running))
      ∧ (goodEntries → s.serving = false → s.mod.deferred = [] → s.gives (.prSetEntries h first entries) (fun t =>
          t.mod.deferred = [] ∧ (∀ i (hi : i < entries.length), (t.part (first + i)).entry = entries[i])
          ∧ t.sent h.conn 2 (s.reply h rowPrSet stAccepted false)))
      ∧ (¬goodEntries → refused (.prSetEntries h first entries) rowPrSet stBadParam))
    ∧ (s.accepts h rowPrSet (h.length = 16 + bytes.length) →
      (goodMap → s.serving = true → s.gives (.prSetCoreMap h first bytes) (fun t => waits t (.coreMap first bytes h.conn h.cmdTag)))
      ∧ (goodMap → s.serving = false → s.mod.deferred = [] → s.gives (.prSetCoreMap h first bytes) (fun t =>
          t.mod.deferred = [] ∧ (∀ i (hi : i < bytes.length), t.ownerOf (first + i) = bytes[i].toNat)
          ∧ t.sent h.conn 2 (s.reply h rowPrSet stAccepted false)))
      ∧ (¬goodMap → refused (.prSetCoreMap h first bytes) rowPrSet stBadParam))
    ∧ (s.accepts h rowPrSet (h.length = 448) →
        (s.ledger.ownerNext = none → s.gives (.prSetOwnerKey h rsa slh) (fun t =>
          t.ledger.ownerNext = some (keyDigest rsa slh, h.conn, h.cmdTag) ∧ t.ledger.snapping = true ∧ t.ledger.owner = s.ledger.owner
          ∧ t.ledger.snapNext.seq = s.ledger.snapSeq + 1 ∧ t.sent h.conn 2 (s.reply h rowPrSet stAccepted false)))
        ∧ (s.ledger.ownerNext ≠ none → refused (.prSetOwnerKey h rsa slh) rowPrSet stBusy))
    ∧ (s.accepts h rowPrFirmware (h.length = 16 + bytes.length) →
        (first ≠ 0 ∧ first ≠ s.ledger.fwFrag.length ∨ 2199552 < first + bytes.length → refused firmware rowPrFirmware stBadParam)
        ∧ (first = 0 ∨ first = s.ledger.fwFrag.length → first + bytes.length ≤ 2199552 →
            (last = false → s.gives firmware (fun t =>
              t.ledger = { s.ledger with fwFrag := img } ∧ t.replied s h rowPrFirmware stOk))
            ∧ (last = true → s.ledger.fwNext ≠ none → refused firmware rowPrFirmware stBusy)
            ∧ (last = true → s.ledger.fwNext = none → ¬signed → s.gives firmware (fun t =>
                t.ledger = { s.ledger with fwFrag := [] } ∧ t.replied s h rowPrFirmware stBadSignature))
            ∧ (last = true → s.ledger.fwNext = none → signed →
                (s.ledger.minSvn ≤ natAt img 8 4 → s.gives firmware (fun t =>
                  t.ledger.fwNext = some ({ svn := natAt img 8 4, bytes := img, made := false }, commit, h.conn, h.cmdTag)
                  ∧ t.ledger.snapping = true
                  ∧ t.ledger.fw = s.ledger.fw ∧ t.sent h.conn 2 (s.reply h rowPrFirmware stAccepted false)))
                ∧ (natAt img 8 4 < s.ledger.minSvn → s.gives firmware (fun t =>
                  t.ledger = { s.ledger with fwFrag := [] } ∧ t.replied s h rowPrFirmware stVersion)))))
    ∧ (s.accepts h rowPrGet true →
      (1 < op.toNat ∨ count = 0 → refused (.prGet h op first count) rowPrGet stBadParam)
      ∧ (0 < count → first + count ≤ 64 →
          ((∀ i, i < count → sees (first + i) = true) → s.gives (.prGet h 0 first count) (fun t => t.parts = s.parts
            ∧ t.replied s h rowPrGet stOk 0 ((List.range count).flatMap (fun i => protBytes (s.part (first + i)).entry))))
          ∧ ((∃ i, i < count ∧ sees (first + i) = false) → refused (.prGet h 0 first count) rowPrGet stDenied))
      ∧ (0 < count → first + count ≤ 6800 → s.gives (.prGet h 1 first count) (fun t => t.mod.coreMap = s.mod.coreMap
          ∧ t.replied s h rowPrGet stOk 0 ((List.range count).flatMap (fun i => leBytes 1
            (if s.isLevel0 h.conn || (decide (s.ownerOf (first + i) < 64) && sees (s.ownerOf (first + i))) then s.ownerOf (first + i)
              else 255))))))
    ∧ (s.accepts h rowPrAttest (h.length = 56) →
        let ps := (List.range 64).filter (fun p => mask.getLsbD p)
        ((∀ p ∈ ps, sees p = true) →
          (s.mod.attests.length < 4 → s.gives (.prAttest h nonce mask) (fun t => t.parts = s.parts
            ∧ t.mod.attests = s.mod.attests ++ [{ conn := h.conn, cmdTag := h.cmdTag, report := a.attestation ps nonce }]
            ∧ t.sent h.conn 2 (s.reply h rowPrAttest stAccepted false)))
          ∧ (4 ≤ s.mod.attests.length → refused (.prAttest h nonce mask) rowPrAttest stBusy))
        ∧ ((∃ p ∈ ps, sees p = false) → refused (.prAttest h nonce mask) rowPrAttest stDenied))
    ∧ (∀ x xs d o, s.mod.attests = x :: xs → s.owedOn x.conn x.cmdTag = some d →
        (s.conn d).sess.outst.find? (fun o => o.is x.conn x.cmdTag) = some o → o.op = rowPrAttest.op →
        s.attestDone.mod.attests = xs ∧ s.attestDone.sent d 2
          { op := o.op, final := true, partition := o.partition, cmdTag := x.cmdTag, reqTag := o.reqTag, stamp := o.stamp,
            status := stOk, body := x.report })

/-- R169, R212, R215, R233, R324, R335, R336, R382: assists. The mode bits of a partition count from the next boundary, or at
once where none comes. An answer that names no assist of the partition, comes too late or is of another function is refused and
changes nothing, and one whose assist has expired is answered `TIMEOUT`; one that breaks its function's limits is answered
`BAD_PARAM` and has the late outcome; a valid one has its function's: an admission is refused or stands, a kept token is drawn,
a grammar's next state is taken, a refresh gets its start, a replay goes to fault report or not, requests are preferred for the
siding. At a deadline each function has its late outcome: the hardware verdict, the sampler's own draw, the grammar asked again,
the start proposed, the hardware's rule. The model's own in it: log 1, 38, 39, 40, 41, 105, 174. -/
def Obligations.AssistsAndAnswers : Prop :=
  ∀ (s : State) (h h' : Hdr) (modes : BitVec 8) (id : Word) (fn : BitVec 8) (body : List Byte) (a : Assist) (d : Desc) (x : Slot)
    (i period w0 tft st missing : Nat) (pages : List Nat) (l : List (Nat × Nat)) (l' : List Nat),
    let p := h.partition.toNat
    let asked := s.alaok.assists.find? (fun a => a.id = id ∧ a.partition = p)
    let u := s.taken h rowAsAnswer
    let v := u.dropAssist id
    let answer := Instr.asAnswer h id fn body
    let n := natAt body 0 4
    let b := natAt body 0 1
    let left := fun (t : State) => ∀ y ∈ t.alaok.assists, y.id ≠ id
    let late := (s.dropAssist id).countPart a.partition pcAssistLate 1
    let refused := fun (st : Nat) => s.gives answer (fun t =>
      t.alaok.assists = s.alaok.assists ∧ t.reqs = s.reqs ∧ t.plan = s.plan ∧ t.replied s h rowAsAnswer st)
    let planned := fun (t : State) (k : Nat) (start : U64 → U64) =>
      (t.engine k (unpackEngine a.req)).refresh = ((s.engine k (unpackEngine a.req)).refresh.map (fun r =>
        { r with assist := none, startAt := start r.startAt }))
    let decided := fun (t : State) (report : Bool) => t.plan.replays = s.plan.replays.map (fun r =>
      if r.slot.id = a.slot then { r with assist := none, report := report } else r)
    let drawn := fun (t : State) (tok : Nat) (late : Bool) => t.plan.slots = s.plan.slots.map (fun y =>
      if y.id = x.id then { y with draw := some tok, drawStamp := s.stamp, assistLate := y.assistLate || late } else y)
    let opened := fun (t : State) => (t.req i).state = .admitted ∧ (t.req i).desc = d ∧ (t.req i).cls = a.cls
      ∧ (t.req i).pages = pages ∧ (t.req i).period = period ∧ (t.req i).prefill = l ∧ (t.req i).nextVisit = w0
      ∧ ∀ j, j ≠ i → t.req j = s.req j
    let wait := fun (q : State) => q.admission h'.partition.toNat d a.cls (q.since (a.deadline - BitVec.ofNat 64 (assistNs 1)))
    let plain := s.slotOf a.slot = some x ∧ x.id = a.slot
      ∧ ∀ tok, (s.req x.req).advances x.pos tok = false ∨ s.assisted (s.req x.req).partition 3 = false
    (s.accepts h rowAsModeSet (h.length = 4) 0 (if (modes.setWidth 7 : BitVec 7) = 0 then 0 else 0x0200) →
      (s.serving = true → s.gives (.asModeSet h modes) (fun t => t.mod.deferred = s.mod.deferred ++ [.modes p (modes.setWidth 7)]
        ∧ (t.part p).modes = (s.part p).modes ∧ t.replied s h rowAsModeSet stOk))
      ∧ (s.serving = false → s.gives (.asModeSet h modes) (fun t =>
          (t.part p).modes = modes.setWidth 7 ∧ t.mod.deferred = s.mod.deferred ∧ t.replied s h rowAsModeSet stOk)))
    ∧ (s.accepts h rowAsAnswer (decide (h.length = 8 + body.length) && answerLengthOk fn.toNat body) →
      (asked = none → (id, p) ∉ s.alaok.expired → refused stNoSuch)
      ∧ (asked = none → (id, p) ∈ s.alaok.expired → refused stTimeout)
      ∧ (asked = some a →
          let inTime := (a.deadline = 0 ∨ s.now ≤ a.deadline.toNat) ∧ a.fn = fn.toNat ∧ a.sub = 0
          (a.deadline ≠ 0 → a.deadline.toNat < s.now → refused stTimeout)
          ∧ (a.deadline = 0 ∨ s.now ≤ a.deadline.toNat → a.fn ≠ fn.toNat ∨ a.sub ≠ 0 → refused stBadParam)
          ∧ (inTime → v.assistAnswer a body = none → s.gives answer (fun t =>
              t.reqs = (v.assistLate a).reqs ∧ t.plan = (v.assistLate a).plan ∧ t.cores = (v.assistLate a).cores
              ∧ ((∀ d' g, a.desc = some (d', g) → g.conn ≠ h.conn ∨ g.cmdTag ≠ h.cmdTag) → t.replied s h rowAsAnswer stBadParam)))
          ∧ (inTime → fn = 1 → a.desc = some (d, h') →
              (b = 0 → s.gives answer (fun t => t.reqs = s.reqs ∧ left t))
              ∧ (b = 1 → a.verdict ≠ stAccepted → s.gives answer (fun t => t.reqs = s.reqs ∧ left t))
              ∧ (b = 1 → a.verdict = stAccepted → wait v = .refuse st missing → s.gives answer (fun t => t.reqs = s.reqs ∧ left t))
              ∧ (b = 1 → a.verdict = stAccepted → wait v = .ok i pages period l w0 tft → s.gives answer (fun t => opened t ∧ left t)))
          ∧ (inTime → fn = 2 → n ∈ a.kept → plain → s.gives answer (fun t =>
              drawn t n false ∧ t.replied s h rowAsAnswer stOk ∧ left t))
          ∧ (inTime → fn = 3 → (n = noState ∨ (s.gramState (s.req a.req).partition (s.req a.req).desc.grammar.toNat n).isSome = true) →
              s.slotOf a.slot = some x → x.req = a.req → s.gives answer (fun t => t.reqs = s.reqs ∧ left t
                ∧ t.plan.slots = s.plan.slots.map (fun y => if y.id = a.slot then { y with gramNext := some n } else y)))
          ∧ (inTime → fn = 4 → ∀ k, unpackKey a.req = some k →
              natAt body 0 8 ≤ s.now ∨ (s.engine k (unpackEngine a.req)).arrays.vals.any (fun v => v.refDue) = false →
              s.gives answer (fun t => planned t k (fun _ => BitVec.ofNat 64 (natAt body 0 8)) ∧ left t
                ∧ t.replied s h rowAsAnswer stOk))
          ∧ (inTime → fn = 5 → b ≤ 1 → s.gives answer (fun t => decided t (decide (b = 1)) ∧ left t
              ∧ t.replied s h rowAsAnswer stOk))
          ∧ (inTime → fn = 6 → v.movable a.partition ((List.range n).map (fun i => BitVec.ofNat 32 (natAt body (4 + 4 * i) 4))) =
                some l' →
              a.entries.all (fun y => decide (y.2.2 ≤ ((l'.eraseDups.filter (fun i => (s.req i).edition = y.1)).map (fun i =>
                (s.req i).slotsAt y.2.1)).sum)) = true →
              s.gives answer (fun t => t.plan.prefer = s.plan.prefer ++ l' ∧ t.reqs = s.reqs ∧ left t
                ∧ t.replied s h rowAsAnswer stOk))
          ∧ (inTime → fn = 7 → ∀ w, v.repairAnswer a body = some w → s.gives answer (fun t =>
              t.cores = w.cores ∧ t.plan = w.plan ∧ t.ledger = w.ledger))))
    ∧ (s.alaok.assists.find? (fun a => a.id = id) = some a → s.powered = true → s.stopHolds = false → a.deadline ≠ 0 →
        (s.now < a.deadline.toNat → exec (.assistDeadline id) s = .next s)
        ∧ (a.deadline.toNat ≤ s.now →
            (a.fn = 1 → a.desc = some (d, h') → a.verdict = stAccepted → wait late = .ok i pages period l w0 tft →
              s.gives (.assistDeadline id) (fun t => opened t ∧ left t))
            ∧ (a.fn = 1 → a.desc = some (d, h') → a.verdict ≠ stAccepted ∨ wait late = .refuse st missing → s.gives (.assistDeadline id) (fun t =>
                t.reqs = s.reqs ∧ left t))
            ∧ (a.fn = 2 → a.kept ≠ [] → plain → s.gives (.assistDeadline id) (fun t => drawn t a.token true ∧ left t))
            ∧ (a.fn = 2 → a.kept = [] → s.slotOf a.slot = some x → x.id = a.slot → s.gives (.assistDeadline id) (fun t =>
                t.plan.slots = s.plan.slots.map (fun y => if y.id = x.id then { y with drawNone := true, drawStamp := s.stamp } else y)
                ∧ left t))
            ∧ (a.fn = 3 → s.slotOf a.slot = some x → x.req = a.req → x.gramLate = false → s.gives (.assistDeadline id) (fun t =>
                (t.req a.req).assistWait = some a.token ∧ t.plan.slots = s.plan.slots.map (fun y =>
                  if y.id = a.slot then { y with gramLate := true } else y)))
            ∧ (a.fn = 4 → ∀ k, unpackKey a.req = some k → s.gives (.assistDeadline id) (fun t => planned t k (fun z => z) ∧ left t))
            ∧ (a.fn = 5 → s.gives (.assistDeadline id) (fun t => decided t false ∧ left t))
            ∧ (a.fn = 6 → s.gives (.assistDeadline id) (fun t => t.plan = s.plan ∧ t.reqs = s.reqs ∧ left t))
            ∧ (a.fn = 7 → s.gives (.assistDeadline id) (fun t =>
                t.cores = (late.repairDecided a none).cores
                ∧ t.plan = (late.repairDecided a none).plan))))

/-! Debug. -/

/-- R413 to R418: stops. A global stop is noted and taken at its boundary; once the replays are back the module is Stopped. An
immediate one spreads from field to field, each of which stops its cores and latches its snapshot; the last one's latch stops
the module; a stop given again is answered with the first, and one given while Stopped at once. `DB_GO` ends a stop; after an
immediate one the planned boundary is later by the time stopped, and after a global one the next window is released. The model's
own in it: log 42, 43, 45, 46, 89. -/
def Obligations.DebugStops : Prop :=
  ∀ (s : State) (h : Hdr) (f : Nat),
    let quiet := ((List.range 68).map (coreKey f)).all (fun k => (s.core k).unitsQuiet)
    let more := s.stop.cmds ++ [(h.conn, h.cmdTag)]
    (s.accepts h rowDbStop (h.length = 0) →
      (s.mod.state = .stopped → s.gives (.dbStop h) (fun t => t.stop = s.stop ∧ t.replied s h rowDbStop stOk))
      ∧ (s.mod.state ≠ .stopped → s.gives (.dbStop h) (fun t => t.stop.cmds = more
        ∧ t.stop.kind = (if s.stop.kind = .none then .pending else s.stop.kind)
        ∧ t.cores = s.cores ∧ t.plan = s.plan ∧ t.sent h.conn 2 (s.reply h rowDbStop stAccepted false))))
    ∧ (s.powered = true → s.stop.kind = .settling → s.plan.replays.all (fun q => q.returned) = true →
        s.gives .stopSettleDone (fun t => t.mod.state = .stopped ∧ t.stop.kind = .globalStop ∧ t.stop.cmds = []
          ∧ t.plan.window = s.plan.window))
    ∧ (s.accepts h rowDbStopNow (h.length = 0) →
      (s.mod.state = .stopped → s.gives (.dbStopNow h) (fun t => t.stop = s.stop ∧ t.replied s h rowDbStopNow stOk))
      ∧ (s.mod.state ≠ .stopped → s.gives (.dbStopNow h) (fun t => t.stop.kind = .nowSpreading ∧ t.stop.cmds = more
          ∧ t.cores = s.cores ∧ t.sent h.conn 2 (s.reply h rowDbStopNow stAccepted false)
          ∧ (s.stop.kind = .nowSpreading → t.fields = s.fields ∧ t.stop.nowBase = s.stop.nowBase)
          ∧ (s.stop.kind ≠ .nowSpreading → t.stop.nowBase = s.stop.kind
            ∧ t.stop.stamp = (if s.stop.kind = .settling then s.stop.stamp else s.stamp)
            ∧ (t.field f).stopArrived = false ∧ (t.field f).snap = none))))
    ∧ (s.powered = true → s.stop.kind = .nowSpreading → fieldExists f = true →
      ((s.field f).stopArrived = false → s.gives (.stopNowArrival f) (fun t => (t.field f).stopArrived = true
        ∧ (∀ n, n < 68 → t.core (coreKey f n) = { s.core (coreKey f n) with stopped := true })
        ∧ ∀ k, k / 68 ≠ f → t.core k = s.core k))
      ∧ ((s.field f).stopArrived = true → (s.field f).snap = none → quiet = true →
        ((∃ g ∈ allFields, g ≠ f ∧ (s.field g).snap = none) → s.gives (.fieldSnapshotLatch f) (fun t =>
          (t.field f).snap = some (s.snapshot f) ∧ t.mod.state = s.mod.state ∧ t.stop = s.stop))
        ∧ ((∀ g ∈ allFields, g ≠ f → (s.field g).snap.isSome = true) → s.gives (.fieldSnapshotLatch f) (fun t =>
          t.mod.state = .stopped ∧ t.stop.kind = .nowStop ∧ t.stop.cmds = []))))
    ∧ (s.accepts h rowDbGo (h.length = 0) →
      (s.mod.state ≠ .stopped → s.gives (.dbGo h) (fun t => t.stop = s.stop ∧ t.replied s h rowDbGo stBadState))
      ∧ (s.mod.state = .stopped → s.gives (.dbGo h) (fun t => t.mod.state ≠ .stopped))
      ∧ (s.mod.state = .stopped → s.stop.kind ≠ .nowStop → s.gives (.dbGo h) (fun t =>
          t.stop.kind = .none ∧ t.plan.window = s.nextWindow ∧ t.plan.released = true))
      ∧ (s.mod.state = .stopped → s.stop.kind = .nowStop → s.stop.nowBase = .none → s.gives (.dbGo h) (fun t =>
          t.stop.kind = .none ∧ t.plan.window = s.plan.window
          ∧ t.plan.tNext = s.plan.tNext + BitVec.ofNat 64 (s.since s.stop.stamp) ∧ (t.field f).stopArrived = false)))

/-- R126 to R129, R408 to R412: debug access. Watch and breakpoint registers are written with their reserved bits clear and
`halt` only where debug is granted; a halted core, or while Stopped any core, is read, and a halted one goes on; trace buffers
are read, set and cleared, records that waited for room following; probes wait for their boundary, and a digest record reaches
the collector, which writes 32 of a probe as one codeblock and drops what finds 1,024 held. The model's own in it: log 12, 48,
49, 50, 51, 165. -/
def Obligations.DebugAccess : Prop :=
  ∀ (s : State) (h : Hdr) (c : CoreRef) (w : WatchRegs) (f first count : Nat) (consume step fill fault halt : Bool)
    (q : ProbeParams) (probe : BitVec 8) (x : Nat × Nat × List Byte) (rest : List (Nat × Nat × List Byte)),
    let v := s.core c.key
    let b := (s.field f).trace
    let l := b.recordsFrom first count
    let quiet := ∀ n, n < 68 → (s.core (coreKey f n)).traceQ = []
    let held := s.collector.recs
    let waits := fun (i : Instr) (d : Deferred) => s.gives i (fun t =>
      t.mod.deferred = s.mod.deferred ++ [d] ∧ t.sent h.conn 2 (s.reply h rowDbDigest stAccepted false))
    let left := fun (i : Instr) (row : CmdRow) (st : Nat) => s.gives i (fun t => t.cores = s.cores ∧ t.replied s h row st)
    (c.ok = false →
      (s.accepts h rowDbWatchSet true → left (.dbWatchSet h c w) rowDbWatchSet stNoSuch)
      ∧ (s.accepts h rowDbCoreRead true → left (.dbCoreRead h c) rowDbCoreRead stNoSuch)
      ∧ (s.accepts h rowDbCoreGo true → left (.dbCoreGo h c step) rowDbCoreGo stNoSuch))
    ∧ (c.ok = true → s.coreDenied h c.key = false →
      (s.accepts h rowDbWatchSet true → s.gives (.dbWatchSet h c w) (fun t =>
        t.core c.key = { v with bp := w.bp.map (bpWritten (s.grantsDebug c.key)), wpLo := w.wpLo, wpHi := w.wpHi
                                wpCtl := wpWritten (s.grantsDebug c.key) w.wpCtl }
        ∧ (∀ j, j ≠ c.key → t.core j = s.core j) ∧ t.replied s h rowDbWatchSet stOk))
      ∧ (s.accepts h rowDbCoreRead true →
        (s.mod.state = .stopped ∨ v.mode = .halted → s.gives (.dbCoreRead h c) (fun t => t.cores = s.cores
          ∧ t.replied s h rowDbCoreRead stOk 0 (Config.layout rowDbCoreRead.op (s.coreView c.key))))
        ∧ (s.mod.state ≠ .stopped → v.mode ≠ .halted → left (.dbCoreRead h c) rowDbCoreRead stBadState))
      ∧ (s.accepts h rowDbCoreGo true →
        (v.mode = .halted → s.gives (.dbCoreGo h c step) (fun t =>
          t.core c.key = { v with mode := .running, stepping := step, passBp := true }
          ∧ (∀ j, j ≠ c.key → t.core j = s.core j) ∧ t.replied s h rowDbCoreGo stOk))
        ∧ (v.mode ≠ .halted → left (.dbCoreGo h c step) rowDbCoreGo stBadState)))
    ∧ (s.accepts h rowDbTrace (h.length = 16) →
      (fieldExists f = false → left (.dbTraceRead h f first count consume) rowDbTrace stNoSuch)
      ∧ (fieldExists f = true → count = 0 ∨ 2048 < count → left (.dbTraceRead h f first count consume) rowDbTrace stBadParam)
      ∧ (fieldExists f = true → 0 < count → count ≤ 2048 → s.gives (.dbTraceRead h f first count consume) (fun t =>
        (consume = false → t.fields = ((s.taken h rowDbTrace).beginWake f).fields ∧ t.cores = s.cores) ∧ (quiet → consume = true → (t.field f).trace = b.consume l)
        ∧ t.replied s h rowDbTrace stOk 0 (leBytes 8 b.written ++ leBytes 8 b.oldest ++ leBytes 1 b.frozen.toNat ++ leBytes 7 0
            ++ l.flatMap (fun x => s.traceBytes h.conn f x.2))))
      ∧ (fieldExists f = true → s.fieldDenied h.conn f = false → s.mod.state ≠ .outOfService →
        s.gives (.dbTraceConfigure h f fill fault halt) (fun t =>
          (t.field f).trace.fill = fill ∧ (t.field f).trace.freezeFault = fault ∧ (t.field f).trace.freezeHalt = halt
          ∧ (quiet → (t.field f).trace = { b with fill := fill, freezeFault := fault, freezeHalt := halt })
          ∧ t.replied s h rowDbTrace stOk)
        ∧ s.gives (.dbTraceClear h f) (fun t =>
          (quiet → (t.field f).trace = { b with frozen := false, recs := [], written := 0, oldest := 0 })
          ∧ t.replied s h rowDbTrace stOk)))
    ∧ (s.accepts h rowDbDigest (h.length = 32) →
      (q.probe.toNat ≤ 15 → q.kind.toNat ≤ 1 → s.ringBad h.partition.toNat q = false →
        (q.kind = 1 → (unpackKey q.core.toNat).isSome = true) →
        waits (.dbDigestSet h q) (.digest h.partition.toNat (some q.probe.toNat) (some q) h.conn h.cmdTag))
      ∧ (15 < q.probe.toNat ∨ 1 < q.kind.toNat ∨ s.ringBad h.partition.toNat q = true →
        left (.dbDigestSet h q) rowDbDigest stBadParam)
      ∧ (probe.toNat ≤ 15 →
        waits (.dbDigestClear h probe) (.digest h.partition.toNat (some probe.toNat) none h.conn h.cmdTag))
      ∧ (15 < probe.toNat → left (.dbDigestClear h probe) rowDbDigest stBadParam)
      ∧ waits (.dbDigestClearAll h) (.digest h.partition.toNat none none h.conn h.cmdTag))
    ∧ (s.powered = true → s.gateStopped = false → s.collector.waiting = x :: rest → s.gives .digestRecord (fun t =>
        t.collector.waiting = rest
        ∧ (1024 ≤ held.length → t.collector.recs = held)
        ∧ (held.length < 1024 → (s.collector.of x.1 x.2.1).length < 31 → t.collector.recs = held ++ [x])
        ∧ (held.length < 1024 → 31 ≤ (s.collector.of x.1 x.2.1).length →
            t.collector.recs = held.filter (fun r => ¬(r.1 = x.1 ∧ r.2.1 = x.2.1)))))

/-! Bring-up and power failure. -/

/-- R362 to R368, R371, R421 to R423: bring-up and power failure, event by event: power-up from what survives, the loops, the
fields with the gate field first and one outside the recorded positions not started, the ledger path and the boot chain, the
stacks with the alternate link after the home one, their fill, the choice of the service fields, the release of window 0; a feed
out of its range sheds the loads and no window is released any more, and then the module is without power. The model's own in
it: log 4, 68, 79, 80, 81, 82, 172, 183, 200, 201. -/
def Obligations.BringUpAndPower : Prop :=
  ∀ (s : State) (f k milli : Nat) (ok aOk bOk agree : Bool) (p : FieldProbe) (l bad : List Nat) (i : FwImage),
    let up := s.mod.state = .bringUp ∧ s.mod.failure = none ∧ s.mod.powerFail = false
    let a := (ledgerCandidates false).find? (fun f => l.contains f)
    let b := (ledgerCandidates true).find? (fun f => l.contains f)
    let stands := s.copyStands false a = true ∨ s.copyStands true b = true
    let own := s.ledger.ownerRead
    let home := (s.stack k).link = .home ∧ s.carriesStack (stackHome k) = true
    let other := (s.field (stackAlternate k)).brought = true ∧ ((s.stack k).link = .alternate
      ∨ (s.stack k).link = .home ∧ (s.field (stackHome k)).brought = true ∧ s.carriesStack (stackHome k) = false)
    let trains := fun (link : StackLink) => s.gives (.stackTraining k true) (fun t => (t.stack k).trained = true
      ∧ (t.stack k).link = link ∧ (t.stack k).fillDone = s.mod.skipFill ∧ (t.stack k).remap = (s.stack k).factoryMap k
      ∧ ∀ j, j ≠ k → t.stack j = s.stack j)
    (s.mod.state = .noPower → s.gives .feedValid (fun t => t.mod.state = .bringUp ∧ t.mod.phase = 1 ∧ t.mod.feedOk = true
        ∧ t.ledger = s.ledger.kept ∧ t.cores = s.cores.mapVals (fun n _ => (s.coreHeld n).kept) ∧ t.plan = {} ∧ t.clock = {}))
    ∧ (s.mod.powerFail = false → exec .hotSwapCharged s = .next { s with mod := { s.mod with pwrGood := true } })
    ∧ (up → s.mod.phase = 1 →
      ((aOk = true ∨ bOk = true) → s.gives (.timebaseLock aOk bOk agree) (fun t => t.clock.tb = 0 ∧ t.clock.running = true
        ∧ t.clock.loop = (if aOk then .a else .b) ∧ t.mod.phase = 2))
      ∧ (aOk = false → bOk = false → s.gives (.timebaseLock aOk bOk agree) (fun t =>
        t.clock = s.clock ∧ t.mod.failure = some .timebase)))
    ∧ (s.mayBring f = true → s.gives (.fieldBringup f p) (fun t => (t.field f).brought = true
        ∧ (f ≠ gateField → (s.field f).unrecorded = true → (t.field f).code = 0x17 ∧ (t.field f).fenced = true)
        ∧ ((t.field f).fenced = false → (t.bringRoute f).isSome = true)
        ∧ (f = gateField → (t.field f).code = 0x01 → t.mod.phase = 3)
        ∧ (f = gateField → (t.field f).code ≠ 0x01 → t.mod.failure = some .gateField)
        ∧ ∀ g, g ≠ f → (t.field g).brought = (s.field g).brought))
    ∧ (up → s.mod.phase = 3 →
      (stands → own.bestImage = some i → factoryOk = true →
        (∀ n, own.slotRead = some n → s.gives (.bootChain l) (fun t => t.mod.phase = 5 ∧ t.ledger.fwSvn = i.svn
          ∧ t.ledger.fwBytes = i.bytes ∧ t.ledger.owner = own.owner ∧ t.ledger.minSvn = own.minSvn ∧ t.ledger.slot = n))
        ∧ (own.slotRead = none → s.gives (.bootChain l) (fun t => t.mod.failure = some .ledger)))
      ∧ (stands → own.bestImage ≠ none → factoryOk = false → s.gives (.bootChain l) (fun t =>
          t.mod.failure = some .factory ∧ t.romSession = true))
      ∧ (stands → own.bestImage = none → s.gives (.bootChain l) (fun t => t.mod.failure = some .firmware ∧ t.romSession = true))
      ∧ (¬stands → s.gives (.bootChain l) (fun t => t.mod.failure = some .ledger ∧ t.ledger = s.ledger))
      ∧ s.gives (.bootChain l) (fun t => ∀ g ∈ ledgerCandidates false ++ ledgerCandidates true,
          (t.field g).stationOnly = true ∧ (l.contains g = true → (t.core (coreKey g 66)).good = true)))
    ∧ (up → 5 ≤ s.mod.phase → k < 24 → (s.stack k).trained = false →
      (home → trains .home)
      ∧ (home → s.gives (.stackTraining k false) (fun t => (t.stack k).trained = false ∧ (t.stack k).link = .alternate))
      ∧ (other → s.carriesStack (stackAlternate k) = true → trains .alternate)
      ∧ (other → ok = false ∨ s.carriesStack (stackAlternate k) = false → s.gives (.stackTraining k ok) (fun t =>
          (t.stack k).link = .lost ∧ t.mod.failure = some .stackSet)))
    ∧ (k < 24 → s.powered = true → (s.stack k).trained = true → (s.stack k).fillDone = false → (s.stack k).void = false →
        s.gives (.stackFillDone k bad) (fun t => (t.stack k).fillDone = true ∧ (t.stack k).filled = true ∧ (t.stack k).mem = {}
          ∧ (bad = [] → (t.stack k).remap = (s.stack k).remap)
          ∧ (∀ cb ∈ bad, cb / cbPerGranule ∈ (t.stack k).hard
            ∨ ∃ m ∈ (t.stack k).remap ++ (t.stack k).copying ++ (t.stack k).waiting, m.granule = cb / cbPerGranule)
          ∧ ∀ j, j ≠ k → t.stack j = s.stack j))
    ∧ (up → s.mod.phase = 5 → (∀ g ∈ allFields, (s.field g).brought = true) →
      (80 ≤ s.goodFields.length → s.gives .serviceSet (fun t =>
        t.mod.serviceSet = s.chooseService s.goodFields ∧ t.mod.phase = 8))
      ∧ (s.goodFields.length < 80 → exec .serviceSet s = .next { s with mod := { s.mod with failure := some .fieldCount } }))
    ∧ (up → s.mod.phase = 8 → (∀ j, j < 24 → (s.stack j).trained = true ∧ (s.stack j).fillDone = true ∧ (s.stack j).link ≠ .lost) →
        s.gives .coreRelease (fun t => t.mod.state = .inService ∧ t.mod.phase = 9 ∧ t.plan.window = 0 ∧ t.plan.released = true
          ∧ t.plan.tNext = BitVec.ofNat 64 (s.now + t.plan.w) ∧ (t.core f).prog = .empty ∧ (t.core f).cmds = .empty))
    ∧ (s.powered = false → s.mod.powerFail = false → milli < 44000 ∨ 60500 < milli →
        exec (.powerFail milli) s = .next { s with mod := { s.mod with pwrGood := false } })
    ∧ (s.powered = true → s.mod.powerFail = false → milli < 44000 ∨ 60500 < milli → s.gives (.powerFail milli) (fun t =>
        t.ledger.waiting = s.ledger.waiting ∧ t.ledger.inHand = Nat.min 1 s.ledger.waiting.length ∧ t.mod.powerFail = true ∧ t.mod.pwrGood = false ∧ t.plan.released = false ∧ (t.conn 0).up = false ∧ (t.conn 1).up = false))
    ∧ (s.mod.powerFail = true → s.gives .powerFailOff (fun t => t.mod.state = .noPower ∧ t.ledger = s.ledger.kept))

/-! Rules over all commands. -/

/-- R322, R338: a command whose connector carries no frames, or that comes with no power, has no effect at all; one that comes
outside a session, or while its session waits to be resumed, `SS_OPEN` apart, has none but its reply and the counters of
refusals. The model's own in it: log 1, 127. -/
def Obligations.CommandsNeedASession : Prop :=
  ∀ (s : State) (c : Instr) (h : Hdr), c.header = some h →
    (s.powered = false ∨ (s.conn h.conn).carries = false → exec c s = .next s)
    ∧ (s.powered = true → (s.conn h.conn).sess.isOpen = false ∨ (s.conn h.conn).sess.resumeBy ≠ none → (∀ o, c ≠ .ssOpen h o) → s.gives c (fun t =>
        t.cores = s.cores ∧ t.fields = s.fields ∧ t.stackSet = s.stackSet ∧ t.reqs = s.reqs ∧ t.editions = s.editions
        ∧ t.ledger = s.ledger ∧ t.fabric = s.fabric ∧ t.plan = s.plan ∧ t.budget = s.budget ∧ t.stop = s.stop
        ∧ t.clock = s.clock ∧ t.mod.deferred = s.mod.deferred ∧ t.mod.state = s.mod.state
        ∧ ∀ p, t.part p = { s.part p with ctr := (t.part p).ctr }))

/-- R15, and the model's own choice (log 6): with no command waiting, a step is one nanosecond of the timebase and nothing else;
a timebase that does not run stays. -/
def Obligations.IdleStepTicks : Prop :=
  ∀ (s : State), s.pending = [] →
    (s.clock.running = true → step s = .next { s with clock := { s.clock with tb := s.clock.tb + 1 } })
    ∧ (s.clock.running = false → step s = .next s)

/-- R102: register g0 of a control core reads as zero and is never poisoned, whatever is written to it; a write to any other
register is read back with its flag, and no other register changes; `jal` writes its return address to g31, `jalr` to the
register it names. -/
def Obligations.RegisterWritesReadBack : Prop :=
  ∀ (v : Core) (rd r : BitVec 5) (w : Word) (bad : Bool),
    v.reg 0 = 0 ∧ v.bad 0 = false ∧ v.setReg 0 w bad = v
    ∧ (rd ≠ 0 → (v.setReg rd w bad).reg rd = w ∧ (v.setReg rd w bad).bad rd = bad)
    ∧ (r ≠ rd → (v.setReg rd w bad).reg r = v.reg r ∧ (v.setReg rd w bad).bad r = v.bad r)
    ∧ ∀ (s : State) (c : CoreRef) (ra : BitVec 5) (imm : BitVec 16) (off : BitVec 26),
        let u := s.core c.key
        let next := u.pc.toNat + 4
        (s.readyFor c (.jal off) → 0 ≤ next + 4 * off.toInt → next + 4 * off.toInt < 65536 → s.gives (.jal c off) (fun t =>
          (t.core c.key).reg 31 = BitVec.ofNat 32 next ∧ (t.core c.key).bad 31 = false))
        ∧ (s.readyFor c (.jalr rd ra imm) → u.bad ra = false → rd ≠ 0 → ((u.reg ra + imm.signExtend 32) &&& ~~~ 3).toNat < 65536 →
            s.gives (.jalr c rd ra imm) (fun t =>
              (t.core c.key).reg rd = BitVec.ofNat 32 next ∧ (t.core c.key).bad rd = false))

/-- R106, R107, Table 4-2, Table 4-3: no bit of an instruction of a control core is dropped: the word of every instruction reads
back as that instruction. -/
def Obligations.CoreWordsReadBack : Prop :=
  ∀ o : CoreOp, o.wellFormed = true → decodeCore (encodeCore o) = some o

/-- R362: after reset the module is without power, no command waits, no request, region, job or edition exists, no connector
carries a session, and every store is in its canonical form (the values are those of the assumption log where the spec states
none). -/
def Obligations.ResetIsLegal : Prop :=
  State.reset.legal ∧ State.reset.pending = [] ∧ State.reset.powered = false ∧ State.reset.clock.running = false
  ∧ State.reset.reqs = .empty ∧ State.reset.editions = .empty ∧ State.reset.fabric.jobs = []
  ∧ (∀ c, (State.reset.conn c).sess.isOpen = false) ∧ (∀ p, (State.reset.part p).regions = .empty)
  ∧ ∀ k, (State.reset.core k).mode = .idle ∧ (State.reset.core k).residents = []

/-- R20, R35, R99, R273: what every step keeps: the lengths of windows stay in their range, every memory stays in canonical form
with its remap entries distinct, and every waiting command has operands that exist. -/
def Obligations.StepKeepsLegal : Prop :=
  ∀ (s t : State), s.legal → s.stepsTo t → t.legal
end

