-- ==== Sys2Proof/Laws/Store.lean ====
section
/-! SUPPORT. The keyed map and the byte memory: what a read answers after a write, and that every operation keeps the
canonical form. -/

namespace Sys2Proof

/-! The keyed map. -/

theorem Map.findIn_putIn_self {α : Type} (k : Nat) (v : α) (l : List (Nat × α)) : Map.findIn k (Map.putIn k v l) = some v := by
  induction l with
  | nil => simp [Map.putIn, Map.findIn]
  | cons e t ih =>
    obtain ⟨j, w⟩ := e
    unfold Map.putIn
    split
    · simp [Map.findIn]
    · split
      · simp [Map.findIn]
      · simp [Map.findIn, *]

theorem Map.findIn_putIn_ne {α : Type} (k j : Nat) (v : α) (l : List (Nat × α)) (h : j ≠ k) :
    Map.findIn j (Map.putIn k v l) = Map.findIn j l := by
  have hk : ¬ k = j := fun e => h e.symm
  induction l with
  | nil => simp [Map.putIn, Map.findIn, hk]
  | cons e t ih =>
    obtain ⟨i, w⟩ := e
    unfold Map.putIn
    split
    · simp [Map.findIn, hk]
    · split
      · next hi => subst hi; simp [Map.findIn, hk]
      · simp [Map.findIn, ih]

@[simp] theorem Map.find?_put_self {α : Type} (m : Map α) (k : Nat) (v : α) : (m.put k v).find? k = some v :=
  Map.findIn_putIn_self k v m.entries

theorem Map.find?_put_ne {α : Type} (m : Map α) (k j : Nat) (v : α) (h : j ≠ k) : (m.put k v).find? j = m.find? j :=
  Map.findIn_putIn_ne k j v m.entries h

@[simp] theorem Map.find_put_self {α : Type} (m : Map α) (k : Nat) (v d : α) : (m.put k v).find k d = v := by
  simp [Map.find]

theorem Map.find_put_ne {α : Type} (m : Map α) (k j : Nat) (v d : α) (h : j ≠ k) : (m.put k v).find j d = m.find j d := by
  simp [Map.find, Map.find?_put_ne m k j v h]

theorem Map.findIn_map {α β : Type} (f : Nat → α → β) (k : Nat) (l : List (Nat × α)) :
    Map.findIn k (l.map (fun e => (e.1, f e.1 e.2))) = (Map.findIn k l).map (f k) := by
  induction l with
  | nil => rfl
  | cons e t ih =>
    obtain ⟨j, w⟩ := e
    simp only [List.map_cons, Map.findIn]
    split
    · next hj => subst hj; rfl
    · exact ih

theorem Map.find?_mapVals {α β : Type} (f : Nat → α → β) (m : Map α) (k : Nat) : (m.mapVals f).find? k = (m.find? k).map (f k) :=
  Map.findIn_map f k m.entries

@[simp] theorem Map.find?_empty {α : Type} (k : Nat) : (Map.empty : Map α).find? k = none := rfl

@[simp] theorem Map.find_empty {α : Type} (k : Nat) (d : α) : (Map.empty : Map α).find k d = d := rfl

theorem Map.findIn_erase_self {α : Type} (k : Nat) (l : List (Nat × α)) :
    Map.findIn k (l.filter (fun e => e.1 ≠ k)) = none := by
  induction l with
  | nil => rfl
  | cons e t ih =>
    obtain ⟨j, w⟩ := e
    by_cases h : j = k
    · simpa [h] using ih
    · simpa [h, Map.findIn] using ih

@[simp] theorem Map.find?_erase_self {α : Type} (m : Map α) (k : Nat) : (m.erase k).find? k = none :=
  Map.findIn_erase_self k m.entries

theorem Map.findIn_erase_ne {α : Type} (k j : Nat) (h : j ≠ k) (l : List (Nat × α)) :
    Map.findIn j (l.filter (fun e => e.1 ≠ k)) = Map.findIn j l := by
  induction l with
  | nil => rfl
  | cons e t ih =>
    obtain ⟨i, w⟩ := e
    by_cases hi : i = k
    · have hj : ¬ i = j := fun e => h (e ▸ hi)
      simp only [ne_eq, hi, not_true_eq_false, decide_false, Bool.false_eq_true, not_false_eq_true, List.filter_cons_of_neg,
        Map.findIn, hi ▸ hj, if_false]
      simpa using ih
    · simp only [ne_eq, hi, not_false_eq_true, decide_true, List.filter_cons_of_pos, Map.findIn]
      split
      · rfl
      · simpa using ih

theorem Map.find?_erase_ne {α : Type} (m : Map α) (k j : Nat) (h : j ≠ k) : (m.erase k).find? j = m.find? j :=
  Map.findIn_erase_ne k j h m.entries

/-! The byte memory. -/

/-- Every cell of a well-formed list lies above its bound. -/
theorem Memory.wfFrom_lt (l : List Host.Cell) (b : Nat) (h : Memory.wfFrom (some b) l = true) : ∀ c ∈ l, b < c.1 := by
  induction l generalizing b with
  | nil => intro c hc; cases hc
  | cons e t ih =>
    obtain ⟨a, v⟩ := e
    simp only [Memory.wfFrom, Bool.and_eq_true, decide_eq_true_eq] at h
    intro c hc
    rcases List.mem_cons.mp hc with rfl | hc
    · exact h.1.1
    · exact Nat.lt_trans h.1.1 (ih a h.2 c hc)

/-- An address below every listed one reads as an unlisted byte. -/
theorem Memory.readIn_below (l : List Host.Cell) (a : Nat) (h : ∀ c ∈ l, a < c.1) : Memory.readIn a l = Memory.unlisted := by
  induction l with
  | nil => rfl
  | cons e t ih =>
    obtain ⟨b, v⟩ := e
    have hb : ¬ b = a := Nat.ne_of_gt (h _ (List.mem_cons_self ..))
    simp only [Memory.readIn, hb, if_false]
    exact ih (fun c hc => h c (List.mem_cons_of_mem _ hc))

theorem Memory.wfFrom_weaken (l : List Host.Cell) (b : Nat) (h : Memory.wfFrom (some b) l = true) : Memory.wfFrom none l = true := by
  cases l with
  | nil => rfl
  | cons e t => simp only [Memory.wfFrom, Bool.and_eq_true, decide_eq_true_eq] at h ⊢; exact ⟨⟨trivial, h.1.2⟩, h.2⟩

theorem Memory.wfFrom_lower (l : List Host.Cell) (a b : Nat) (hab : a ≤ b) (h : Memory.wfFrom (some b) l = true) :
    Memory.wfFrom (some a) l = true := by
  cases l with
  | nil => rfl
  | cons e t =>
    simp only [Memory.wfFrom, Bool.and_eq_true, decide_eq_true_eq] at h ⊢
    exact ⟨⟨Nat.lt_of_le_of_lt hab h.1.1, h.1.2⟩, h.2⟩

/-- A write keeps the canonical form above any bound that the written address lies above. -/
theorem Memory.wfFrom_writeIn (l : List Host.Cell) (lo : Option Nat) (a : Nat) (v : Byte) (hlo : ∀ b, lo = some b → b < a)
    (h : Memory.wfFrom lo l = true) : Memory.wfFrom lo (Memory.writeIn a v l) = true := by
  induction l generalizing lo with
  | nil =>
    unfold Memory.writeIn
    split
    · exact h
    · next hv =>
      cases lo with
      | none => simp [Memory.wfFrom, hv]
      | some b => simp [Memory.wfFrom, hv, hlo b rfl]
  | cons e t ih =>
    obtain ⟨b, w⟩ := e
    have h' := h
    simp only [Memory.wfFrom, Bool.and_eq_true, decide_eq_true_eq] at h'
    unfold Memory.writeIn
    split
    · next hab =>
      split
      · exact h
      · next hv =>
        cases lo with
        | none => simp [Memory.wfFrom, hv, hab, h'.1.2, h'.2]
        | some c => simp [Memory.wfFrom, hv, hab, h'.1.2, h'.2, hlo c rfl]
    · split
      · next hba =>
        subst hba
        split
        · cases lo with
          | none => exact Memory.wfFrom_weaken _ _ h'.2
          | some c => exact Memory.wfFrom_lower _ _ _ (Nat.le_of_lt (hlo c rfl)) h'.2
        · next hv =>
          cases lo with
          | none => simp [Memory.wfFrom, hv, h'.2]
          | some c => simp [Memory.wfFrom, hv, h'.2, hlo c rfl]
      · next h1 h2 =>
        have hba : b < a := by omega
        have ht := ih (some b) (by intro c hc; cases hc; exact hba) h'.2
        simp only [Memory.wfFrom, Bool.and_eq_true, decide_eq_true_eq]
        exact ⟨⟨h'.1.1, h'.1.2⟩, ht⟩

/-- A write keeps the canonical form. -/
@[simp] theorem Memory.wf_write (m : Memory) (a : Nat) (v : Byte) (h : m.wf = true) : (m.write a v).wf = true :=
  Memory.wfFrom_writeIn m.cells none a v (by intro b hb; cases hb) h

/-- Writing a run of bytes keeps the canonical form. -/
@[simp] theorem Memory.wf_writeAll (l : List Byte) (m : Memory) (a : Nat) (h : m.wf = true) : (m.writeAll a l).wf = true := by
  induction l generalizing m a with
  | nil => exact h
  | cons v t ih => exact ih _ _ (Memory.wf_write m a v h)

theorem Memory.wfFrom_filter (p : Host.Cell → Bool) (l : List Host.Cell) (lo : Option Nat) (h : Memory.wfFrom lo l = true) :
    Memory.wfFrom lo (l.filter p) = true := by
  induction l generalizing lo with
  | nil => exact h
  | cons e t ih =>
    obtain ⟨a, v⟩ := e
    have h' := h
    simp only [Memory.wfFrom, Bool.and_eq_true, decide_eq_true_eq] at h'
    by_cases hp : p (a, v) = true
    · rw [List.filter_cons_of_pos hp]
      simp only [Memory.wfFrom, Bool.and_eq_true, decide_eq_true_eq]
      exact ⟨h'.1, ih _ h'.2⟩
    · rw [List.filter_cons_of_neg hp]
      cases lo with
      | none => exact ih _ (Memory.wfFrom_weaken _ _ h'.2)
      | some b => exact ih _ (Memory.wfFrom_lower _ _ _ (Nat.le_of_lt (by simpa using h'.1.1)) h'.2)

/-- Dropping bytes keeps the canonical form. -/
@[simp] theorem Memory.wf_drop (m : Memory) (p : Nat → Bool) (h : m.wf = true) : (m.drop p).wf = true :=
  Memory.wfFrom_filter _ _ _ h

/-- The empty memory is canonical. -/
theorem Memory.wf_empty : ({} : Memory).wf = true := rfl

theorem Memory.readIn_writeIn_ne (a b : Nat) (v : Byte) (hab : b ≠ a) (l : List Host.Cell) :
    Memory.readIn b (Memory.writeIn a v l) = Memory.readIn b l := by
  have hab' : ¬ a = b := fun e => hab e.symm
  induction l with
  | nil => unfold Memory.writeIn; split <;> simp [Memory.readIn, hab']
  | cons e t ih =>
    obtain ⟨c, w⟩ := e
    unfold Memory.writeIn
    split
    · split <;> simp [Memory.readIn, hab']
    · split
      · next hc => subst hc; split <;> simp [Memory.readIn, hab']
      · simp [Memory.readIn, ih]

/-- A write leaves every other byte alone. -/
theorem Memory.read_write_ne (m : Memory) (a b : Nat) (v : Byte) (h : b ≠ a) : (m.write a v).read b = m.read b :=
  Memory.readIn_writeIn_ne a b v h m.cells

theorem Memory.readIn_writeIn (a : Nat) (v : Byte) (l : List Host.Cell) (lo : Option Nat) (h : Memory.wfFrom lo l = true) :
    Memory.readIn a (Memory.writeIn a v l) = v := by
  induction l generalizing lo with
  | nil =>
    unfold Memory.writeIn
    split
    · next hv => simp [Memory.readIn, hv]
    · simp [Memory.readIn]
  | cons e t ih =>
    obtain ⟨b, w⟩ := e
    simp only [Memory.wfFrom, Bool.and_eq_true, decide_eq_true_eq] at h
    unfold Memory.writeIn
    split
    · next hab =>
      split
      · next hv =>
        rw [hv]
        refine Memory.readIn_below _ _ (fun c hc => ?_)
        rcases List.mem_cons.mp hc with rfl | hc
        · exact hab
        · exact Nat.lt_trans hab (Memory.wfFrom_lt t b h.2 c hc)
      · simp [Memory.readIn]
    · split
      · next hba =>
        subst hba
        split
        · next hv => rw [hv]; exact Memory.readIn_below _ _ (Memory.wfFrom_lt t b h.2)
        · simp [Memory.readIn]
      · next h2 => simp [Memory.readIn, h2, ih _ h.2]

/-- A byte written reads back, in a canonical memory. -/
theorem Memory.read_write_self (m : Memory) (a : Nat) (v : Byte) (h : m.wf = true) : (m.write a v).read a = v :=
  Memory.readIn_writeIn a v m.cells none h

/-! Little-endian bytes. -/

@[simp] theorem length_leBytes (n v : Nat) : (leBytes n v).length = n := by
  induction n generalizing v with
  | zero => rfl
  | succ n ih => simp [leBytes, ih]

/-- Bytes written from a value read back as that value, modulo their width. -/
theorem leNat_leBytes (n v : Nat) : leNat (leBytes n v) = v % 256 ^ n := by
  induction n generalizing v with
  | zero => simp [leBytes, leNat, Nat.mod_one]
  | succ n ih =>
    have h : v % 256 ^ (n + 1) = v % 256 + 256 * (v / 256 % 256 ^ n) := by
      rw [Nat.pow_succ, Nat.mul_comm, Nat.mod_mul]
    simp [leBytes, leNat, ih, h]

/-- A field that stands after others is read where they end. -/
theorem natAt_append (a b c : List Byte) : natAt (a ++ b ++ c) a.length b.length = leNat b := by
  have h : bytesAt (a ++ b ++ c) a.length b.length = b := by
    apply List.ext_getElem
    · simp [bytesAt]
    · intro i h1 h2
      simp [bytesAt, List.getElem?_append_right, List.getElem?_append_left h2, h2]
  rw [natAt, h]

end Sys2Proof
end

