-- ==== Sys2Proof/Laws/State.lean ====
section
/-! SUPPORT. One lemma per field of the state and update of one of its tables: what an update leaves alone, and what a record
reads after it. -/

namespace Sys2Proof.Machine

@[simp] theorem State.setField_clock (s : State) (f : Nat) (v : Field) : (s.setField f v).clock = s.clock := rfl
@[simp] theorem State.setField_mod (s : State) (f : Nat) (v : Field) : (s.setField f v).mod = s.mod := rfl
@[simp] theorem State.setField_budget (s : State) (f : Nat) (v : Field) : (s.setField f v).budget = s.budget := rfl
@[simp] theorem State.setField_plan (s : State) (f : Nat) (v : Field) : (s.setField f v).plan = s.plan := rfl
@[simp] theorem State.setField_cores (s : State) (f : Nat) (v : Field) : (s.setField f v).cores = s.cores := rfl
@[simp] theorem State.setField_stackSet (s : State) (f : Nat) (v : Field) : (s.setField f v).stackSet = s.stackSet := rfl
@[simp] theorem State.setField_parts (s : State) (f : Nat) (v : Field) : (s.setField f v).parts = s.parts := rfl
@[simp] theorem State.setField_editions (s : State) (f : Nat) (v : Field) : (s.setField f v).editions = s.editions := rfl
@[simp] theorem State.setField_reqs (s : State) (f : Nat) (v : Field) : (s.setField f v).reqs = s.reqs := rfl
@[simp] theorem State.setField_alaok (s : State) (f : Nat) (v : Field) : (s.setField f v).alaok = s.alaok := rfl
@[simp] theorem State.setField_ledger (s : State) (f : Nat) (v : Field) : (s.setField f v).ledger = s.ledger := rfl
@[simp] theorem State.setField_fabric (s : State) (f : Nat) (v : Field) : (s.setField f v).fabric = s.fabric := rfl
@[simp] theorem State.setField_stop (s : State) (f : Nat) (v : Field) : (s.setField f v).stop = s.stop := rfl
@[simp] theorem State.setField_collector (s : State) (f : Nat) (v : Field) : (s.setField f v).collector = s.collector := rfl
@[simp] theorem State.setField_free (s : State) (f : Nat) (v : Field) : (s.setField f v).free = s.free := rfl
@[simp] theorem State.setField_pending (s : State) (f : Nat) (v : Field) : (s.setField f v).pending = s.pending := rfl

@[simp] theorem State.updField_clock (s : State) (f : Nat) (g : Field → Field) : (s.updField f g).clock = s.clock := rfl
@[simp] theorem State.updField_mod (s : State) (f : Nat) (g : Field → Field) : (s.updField f g).mod = s.mod := rfl
@[simp] theorem State.updField_budget (s : State) (f : Nat) (g : Field → Field) : (s.updField f g).budget = s.budget := rfl
@[simp] theorem State.updField_plan (s : State) (f : Nat) (g : Field → Field) : (s.updField f g).plan = s.plan := rfl
@[simp] theorem State.updField_cores (s : State) (f : Nat) (g : Field → Field) : (s.updField f g).cores = s.cores := rfl
@[simp] theorem State.updField_stackSet (s : State) (f : Nat) (g : Field → Field) : (s.updField f g).stackSet = s.stackSet := rfl
@[simp] theorem State.updField_parts (s : State) (f : Nat) (g : Field → Field) : (s.updField f g).parts = s.parts := rfl
@[simp] theorem State.updField_editions (s : State) (f : Nat) (g : Field → Field) : (s.updField f g).editions = s.editions := rfl
@[simp] theorem State.updField_reqs (s : State) (f : Nat) (g : Field → Field) : (s.updField f g).reqs = s.reqs := rfl
@[simp] theorem State.updField_alaok (s : State) (f : Nat) (g : Field → Field) : (s.updField f g).alaok = s.alaok := rfl
@[simp] theorem State.updField_ledger (s : State) (f : Nat) (g : Field → Field) : (s.updField f g).ledger = s.ledger := rfl
@[simp] theorem State.updField_fabric (s : State) (f : Nat) (g : Field → Field) : (s.updField f g).fabric = s.fabric := rfl
@[simp] theorem State.updField_stop (s : State) (f : Nat) (g : Field → Field) : (s.updField f g).stop = s.stop := rfl
@[simp] theorem State.updField_collector (s : State) (f : Nat) (g : Field → Field) : (s.updField f g).collector = s.collector := rfl
@[simp] theorem State.updField_free (s : State) (f : Nat) (g : Field → Field) : (s.updField f g).free = s.free := rfl
@[simp] theorem State.updField_pending (s : State) (f : Nat) (g : Field → Field) : (s.updField f g).pending = s.pending := rfl

@[simp] theorem State.updPower_clock (s : State) (f : Nat) (g : FieldPower → FieldPower) : (s.updPower f g).clock = s.clock := rfl
@[simp] theorem State.updPower_mod (s : State) (f : Nat) (g : FieldPower → FieldPower) : (s.updPower f g).mod = s.mod := rfl
@[simp] theorem State.updPower_budget (s : State) (f : Nat) (g : FieldPower → FieldPower) : (s.updPower f g).budget = s.budget := rfl
@[simp] theorem State.updPower_plan (s : State) (f : Nat) (g : FieldPower → FieldPower) : (s.updPower f g).plan = s.plan := rfl
@[simp] theorem State.updPower_cores (s : State) (f : Nat) (g : FieldPower → FieldPower) : (s.updPower f g).cores = s.cores := rfl
@[simp] theorem State.updPower_stackSet (s : State) (f : Nat) (g : FieldPower → FieldPower) : (s.updPower f g).stackSet = s.stackSet := rfl
@[simp] theorem State.updPower_parts (s : State) (f : Nat) (g : FieldPower → FieldPower) : (s.updPower f g).parts = s.parts := rfl
@[simp] theorem State.updPower_editions (s : State) (f : Nat) (g : FieldPower → FieldPower) : (s.updPower f g).editions = s.editions := rfl
@[simp] theorem State.updPower_reqs (s : State) (f : Nat) (g : FieldPower → FieldPower) : (s.updPower f g).reqs = s.reqs := rfl
@[simp] theorem State.updPower_alaok (s : State) (f : Nat) (g : FieldPower → FieldPower) : (s.updPower f g).alaok = s.alaok := rfl
@[simp] theorem State.updPower_ledger (s : State) (f : Nat) (g : FieldPower → FieldPower) : (s.updPower f g).ledger = s.ledger := rfl
@[simp] theorem State.updPower_fabric (s : State) (f : Nat) (g : FieldPower → FieldPower) : (s.updPower f g).fabric = s.fabric := rfl
@[simp] theorem State.updPower_stop (s : State) (f : Nat) (g : FieldPower → FieldPower) : (s.updPower f g).stop = s.stop := rfl
@[simp] theorem State.updPower_collector (s : State) (f : Nat) (g : FieldPower → FieldPower) : (s.updPower f g).collector = s.collector := rfl
@[simp] theorem State.updPower_free (s : State) (f : Nat) (g : FieldPower → FieldPower) : (s.updPower f g).free = s.free := rfl
@[simp] theorem State.updPower_pending (s : State) (f : Nat) (g : FieldPower → FieldPower) : (s.updPower f g).pending = s.pending := rfl

@[simp] theorem State.setCore_clock (s : State) (k : Nat) (v : Core) : (s.setCore k v).clock = s.clock := rfl
@[simp] theorem State.setCore_mod (s : State) (k : Nat) (v : Core) : (s.setCore k v).mod = s.mod := rfl
@[simp] theorem State.setCore_budget (s : State) (k : Nat) (v : Core) : (s.setCore k v).budget = s.budget := rfl
@[simp] theorem State.setCore_plan (s : State) (k : Nat) (v : Core) : (s.setCore k v).plan = s.plan := rfl
@[simp] theorem State.setCore_fields (s : State) (k : Nat) (v : Core) : (s.setCore k v).fields = s.fields := rfl
@[simp] theorem State.setCore_stackSet (s : State) (k : Nat) (v : Core) : (s.setCore k v).stackSet = s.stackSet := rfl
@[simp] theorem State.setCore_parts (s : State) (k : Nat) (v : Core) : (s.setCore k v).parts = s.parts := rfl
@[simp] theorem State.setCore_editions (s : State) (k : Nat) (v : Core) : (s.setCore k v).editions = s.editions := rfl
@[simp] theorem State.setCore_reqs (s : State) (k : Nat) (v : Core) : (s.setCore k v).reqs = s.reqs := rfl
@[simp] theorem State.setCore_alaok (s : State) (k : Nat) (v : Core) : (s.setCore k v).alaok = s.alaok := rfl
@[simp] theorem State.setCore_ledger (s : State) (k : Nat) (v : Core) : (s.setCore k v).ledger = s.ledger := rfl
@[simp] theorem State.setCore_fabric (s : State) (k : Nat) (v : Core) : (s.setCore k v).fabric = s.fabric := rfl
@[simp] theorem State.setCore_stop (s : State) (k : Nat) (v : Core) : (s.setCore k v).stop = s.stop := rfl
@[simp] theorem State.setCore_collector (s : State) (k : Nat) (v : Core) : (s.setCore k v).collector = s.collector := rfl
@[simp] theorem State.setCore_free (s : State) (k : Nat) (v : Core) : (s.setCore k v).free = s.free := rfl
@[simp] theorem State.setCore_pending (s : State) (k : Nat) (v : Core) : (s.setCore k v).pending = s.pending := rfl

@[simp] theorem State.updCore_clock (s : State) (k : Nat) (g : Core → Core) : (s.updCore k g).clock = s.clock := rfl
@[simp] theorem State.updCore_mod (s : State) (k : Nat) (g : Core → Core) : (s.updCore k g).mod = s.mod := rfl
@[simp] theorem State.updCore_budget (s : State) (k : Nat) (g : Core → Core) : (s.updCore k g).budget = s.budget := rfl
@[simp] theorem State.updCore_plan (s : State) (k : Nat) (g : Core → Core) : (s.updCore k g).plan = s.plan := rfl
@[simp] theorem State.updCore_fields (s : State) (k : Nat) (g : Core → Core) : (s.updCore k g).fields = s.fields := rfl
@[simp] theorem State.updCore_stackSet (s : State) (k : Nat) (g : Core → Core) : (s.updCore k g).stackSet = s.stackSet := rfl
@[simp] theorem State.updCore_parts (s : State) (k : Nat) (g : Core → Core) : (s.updCore k g).parts = s.parts := rfl
@[simp] theorem State.updCore_editions (s : State) (k : Nat) (g : Core → Core) : (s.updCore k g).editions = s.editions := rfl
@[simp] theorem State.updCore_reqs (s : State) (k : Nat) (g : Core → Core) : (s.updCore k g).reqs = s.reqs := rfl
@[simp] theorem State.updCore_alaok (s : State) (k : Nat) (g : Core → Core) : (s.updCore k g).alaok = s.alaok := rfl
@[simp] theorem State.updCore_ledger (s : State) (k : Nat) (g : Core → Core) : (s.updCore k g).ledger = s.ledger := rfl
@[simp] theorem State.updCore_fabric (s : State) (k : Nat) (g : Core → Core) : (s.updCore k g).fabric = s.fabric := rfl
@[simp] theorem State.updCore_stop (s : State) (k : Nat) (g : Core → Core) : (s.updCore k g).stop = s.stop := rfl
@[simp] theorem State.updCore_collector (s : State) (k : Nat) (g : Core → Core) : (s.updCore k g).collector = s.collector := rfl
@[simp] theorem State.updCore_free (s : State) (k : Nat) (g : Core → Core) : (s.updCore k g).free = s.free := rfl
@[simp] theorem State.updCore_pending (s : State) (k : Nat) (g : Core → Core) : (s.updCore k g).pending = s.pending := rfl

@[simp] theorem State.updEngine_clock (s : State) (k e : Nat) (g : Engine → Engine) : (s.updEngine k e g).clock = s.clock := rfl
@[simp] theorem State.updEngine_mod (s : State) (k e : Nat) (g : Engine → Engine) : (s.updEngine k e g).mod = s.mod := rfl
@[simp] theorem State.updEngine_budget (s : State) (k e : Nat) (g : Engine → Engine) : (s.updEngine k e g).budget = s.budget := rfl
@[simp] theorem State.updEngine_plan (s : State) (k e : Nat) (g : Engine → Engine) : (s.updEngine k e g).plan = s.plan := rfl
@[simp] theorem State.updEngine_fields (s : State) (k e : Nat) (g : Engine → Engine) : (s.updEngine k e g).fields = s.fields := rfl
@[simp] theorem State.updEngine_stackSet (s : State) (k e : Nat) (g : Engine → Engine) : (s.updEngine k e g).stackSet = s.stackSet := rfl
@[simp] theorem State.updEngine_parts (s : State) (k e : Nat) (g : Engine → Engine) : (s.updEngine k e g).parts = s.parts := rfl
@[simp] theorem State.updEngine_editions (s : State) (k e : Nat) (g : Engine → Engine) : (s.updEngine k e g).editions = s.editions := rfl
@[simp] theorem State.updEngine_reqs (s : State) (k e : Nat) (g : Engine → Engine) : (s.updEngine k e g).reqs = s.reqs := rfl
@[simp] theorem State.updEngine_alaok (s : State) (k e : Nat) (g : Engine → Engine) : (s.updEngine k e g).alaok = s.alaok := rfl
@[simp] theorem State.updEngine_ledger (s : State) (k e : Nat) (g : Engine → Engine) : (s.updEngine k e g).ledger = s.ledger := rfl
@[simp] theorem State.updEngine_fabric (s : State) (k e : Nat) (g : Engine → Engine) : (s.updEngine k e g).fabric = s.fabric := rfl
@[simp] theorem State.updEngine_stop (s : State) (k e : Nat) (g : Engine → Engine) : (s.updEngine k e g).stop = s.stop := rfl
@[simp] theorem State.updEngine_collector (s : State) (k e : Nat) (g : Engine → Engine) : (s.updEngine k e g).collector = s.collector := rfl
@[simp] theorem State.updEngine_free (s : State) (k e : Nat) (g : Engine → Engine) : (s.updEngine k e g).free = s.free := rfl
@[simp] theorem State.updEngine_pending (s : State) (k e : Nat) (g : Engine → Engine) : (s.updEngine k e g).pending = s.pending := rfl

@[simp] theorem State.updArray_clock (s : State) (k e a : Nat) (g : Array → Array) : (s.updArray k e a g).clock = s.clock := rfl
@[simp] theorem State.updArray_mod (s : State) (k e a : Nat) (g : Array → Array) : (s.updArray k e a g).mod = s.mod := rfl
@[simp] theorem State.updArray_budget (s : State) (k e a : Nat) (g : Array → Array) : (s.updArray k e a g).budget = s.budget := rfl
@[simp] theorem State.updArray_plan (s : State) (k e a : Nat) (g : Array → Array) : (s.updArray k e a g).plan = s.plan := rfl
@[simp] theorem State.updArray_fields (s : State) (k e a : Nat) (g : Array → Array) : (s.updArray k e a g).fields = s.fields := rfl
@[simp] theorem State.updArray_stackSet (s : State) (k e a : Nat) (g : Array → Array) : (s.updArray k e a g).stackSet = s.stackSet := rfl
@[simp] theorem State.updArray_parts (s : State) (k e a : Nat) (g : Array → Array) : (s.updArray k e a g).parts = s.parts := rfl
@[simp] theorem State.updArray_editions (s : State) (k e a : Nat) (g : Array → Array) : (s.updArray k e a g).editions = s.editions := rfl
@[simp] theorem State.updArray_reqs (s : State) (k e a : Nat) (g : Array → Array) : (s.updArray k e a g).reqs = s.reqs := rfl
@[simp] theorem State.updArray_alaok (s : State) (k e a : Nat) (g : Array → Array) : (s.updArray k e a g).alaok = s.alaok := rfl
@[simp] theorem State.updArray_ledger (s : State) (k e a : Nat) (g : Array → Array) : (s.updArray k e a g).ledger = s.ledger := rfl
@[simp] theorem State.updArray_fabric (s : State) (k e a : Nat) (g : Array → Array) : (s.updArray k e a g).fabric = s.fabric := rfl
@[simp] theorem State.updArray_stop (s : State) (k e a : Nat) (g : Array → Array) : (s.updArray k e a g).stop = s.stop := rfl
@[simp] theorem State.updArray_collector (s : State) (k e a : Nat) (g : Array → Array) : (s.updArray k e a g).collector = s.collector := rfl
@[simp] theorem State.updArray_free (s : State) (k e a : Nat) (g : Array → Array) : (s.updArray k e a g).free = s.free := rfl
@[simp] theorem State.updArray_pending (s : State) (k e a : Nat) (g : Array → Array) : (s.updArray k e a g).pending = s.pending := rfl

@[simp] theorem State.updSp_clock (s : State) (k : Nat) (g : Scratch → Scratch) : (s.updSp k g).clock = s.clock := rfl
@[simp] theorem State.updSp_mod (s : State) (k : Nat) (g : Scratch → Scratch) : (s.updSp k g).mod = s.mod := rfl
@[simp] theorem State.updSp_budget (s : State) (k : Nat) (g : Scratch → Scratch) : (s.updSp k g).budget = s.budget := rfl
@[simp] theorem State.updSp_plan (s : State) (k : Nat) (g : Scratch → Scratch) : (s.updSp k g).plan = s.plan := rfl
@[simp] theorem State.updSp_fields (s : State) (k : Nat) (g : Scratch → Scratch) : (s.updSp k g).fields = s.fields := rfl
@[simp] theorem State.updSp_stackSet (s : State) (k : Nat) (g : Scratch → Scratch) : (s.updSp k g).stackSet = s.stackSet := rfl
@[simp] theorem State.updSp_parts (s : State) (k : Nat) (g : Scratch → Scratch) : (s.updSp k g).parts = s.parts := rfl
@[simp] theorem State.updSp_editions (s : State) (k : Nat) (g : Scratch → Scratch) : (s.updSp k g).editions = s.editions := rfl
@[simp] theorem State.updSp_reqs (s : State) (k : Nat) (g : Scratch → Scratch) : (s.updSp k g).reqs = s.reqs := rfl
@[simp] theorem State.updSp_alaok (s : State) (k : Nat) (g : Scratch → Scratch) : (s.updSp k g).alaok = s.alaok := rfl
@[simp] theorem State.updSp_ledger (s : State) (k : Nat) (g : Scratch → Scratch) : (s.updSp k g).ledger = s.ledger := rfl
@[simp] theorem State.updSp_fabric (s : State) (k : Nat) (g : Scratch → Scratch) : (s.updSp k g).fabric = s.fabric := rfl
@[simp] theorem State.updSp_stop (s : State) (k : Nat) (g : Scratch → Scratch) : (s.updSp k g).stop = s.stop := rfl
@[simp] theorem State.updSp_collector (s : State) (k : Nat) (g : Scratch → Scratch) : (s.updSp k g).collector = s.collector := rfl
@[simp] theorem State.updSp_free (s : State) (k : Nat) (g : Scratch → Scratch) : (s.updSp k g).free = s.free := rfl
@[simp] theorem State.updSp_pending (s : State) (k : Nat) (g : Scratch → Scratch) : (s.updSp k g).pending = s.pending := rfl

@[simp] theorem State.updStack_clock (s : State) (k : Nat) (g : Stack → Stack) : (s.updStack k g).clock = s.clock := rfl
@[simp] theorem State.updStack_mod (s : State) (k : Nat) (g : Stack → Stack) : (s.updStack k g).mod = s.mod := rfl
@[simp] theorem State.updStack_budget (s : State) (k : Nat) (g : Stack → Stack) : (s.updStack k g).budget = s.budget := rfl
@[simp] theorem State.updStack_plan (s : State) (k : Nat) (g : Stack → Stack) : (s.updStack k g).plan = s.plan := rfl
@[simp] theorem State.updStack_fields (s : State) (k : Nat) (g : Stack → Stack) : (s.updStack k g).fields = s.fields := rfl
@[simp] theorem State.updStack_cores (s : State) (k : Nat) (g : Stack → Stack) : (s.updStack k g).cores = s.cores := rfl
@[simp] theorem State.updStack_parts (s : State) (k : Nat) (g : Stack → Stack) : (s.updStack k g).parts = s.parts := rfl
@[simp] theorem State.updStack_editions (s : State) (k : Nat) (g : Stack → Stack) : (s.updStack k g).editions = s.editions := rfl
@[simp] theorem State.updStack_reqs (s : State) (k : Nat) (g : Stack → Stack) : (s.updStack k g).reqs = s.reqs := rfl
@[simp] theorem State.updStack_alaok (s : State) (k : Nat) (g : Stack → Stack) : (s.updStack k g).alaok = s.alaok := rfl
@[simp] theorem State.updStack_ledger (s : State) (k : Nat) (g : Stack → Stack) : (s.updStack k g).ledger = s.ledger := rfl
@[simp] theorem State.updStack_fabric (s : State) (k : Nat) (g : Stack → Stack) : (s.updStack k g).fabric = s.fabric := rfl
@[simp] theorem State.updStack_stop (s : State) (k : Nat) (g : Stack → Stack) : (s.updStack k g).stop = s.stop := rfl
@[simp] theorem State.updStack_collector (s : State) (k : Nat) (g : Stack → Stack) : (s.updStack k g).collector = s.collector := rfl
@[simp] theorem State.updStack_free (s : State) (k : Nat) (g : Stack → Stack) : (s.updStack k g).free = s.free := rfl
@[simp] theorem State.updStack_pending (s : State) (k : Nat) (g : Stack → Stack) : (s.updStack k g).pending = s.pending := rfl

@[simp] theorem State.updPart_clock (s : State) (p : Nat) (g : Partition → Partition) : (s.updPart p g).clock = s.clock := rfl
@[simp] theorem State.updPart_mod (s : State) (p : Nat) (g : Partition → Partition) : (s.updPart p g).mod = s.mod := rfl
@[simp] theorem State.updPart_budget (s : State) (p : Nat) (g : Partition → Partition) : (s.updPart p g).budget = s.budget := rfl
@[simp] theorem State.updPart_plan (s : State) (p : Nat) (g : Partition → Partition) : (s.updPart p g).plan = s.plan := rfl
@[simp] theorem State.updPart_fields (s : State) (p : Nat) (g : Partition → Partition) : (s.updPart p g).fields = s.fields := rfl
@[simp] theorem State.updPart_cores (s : State) (p : Nat) (g : Partition → Partition) : (s.updPart p g).cores = s.cores := rfl
@[simp] theorem State.updPart_stackSet (s : State) (p : Nat) (g : Partition → Partition) : (s.updPart p g).stackSet = s.stackSet := rfl
@[simp] theorem State.updPart_editions (s : State) (p : Nat) (g : Partition → Partition) : (s.updPart p g).editions = s.editions := rfl
@[simp] theorem State.updPart_reqs (s : State) (p : Nat) (g : Partition → Partition) : (s.updPart p g).reqs = s.reqs := rfl
@[simp] theorem State.updPart_alaok (s : State) (p : Nat) (g : Partition → Partition) : (s.updPart p g).alaok = s.alaok := rfl
@[simp] theorem State.updPart_ledger (s : State) (p : Nat) (g : Partition → Partition) : (s.updPart p g).ledger = s.ledger := rfl
@[simp] theorem State.updPart_fabric (s : State) (p : Nat) (g : Partition → Partition) : (s.updPart p g).fabric = s.fabric := rfl
@[simp] theorem State.updPart_stop (s : State) (p : Nat) (g : Partition → Partition) : (s.updPart p g).stop = s.stop := rfl
@[simp] theorem State.updPart_collector (s : State) (p : Nat) (g : Partition → Partition) : (s.updPart p g).collector = s.collector := rfl
@[simp] theorem State.updPart_free (s : State) (p : Nat) (g : Partition → Partition) : (s.updPart p g).free = s.free := rfl
@[simp] theorem State.updPart_pending (s : State) (p : Nat) (g : Partition → Partition) : (s.updPart p g).pending = s.pending := rfl

@[simp] theorem State.updEdition_clock (s : State) (e : Nat) (g : Edition → Edition) : (s.updEdition e g).clock = s.clock := rfl
@[simp] theorem State.updEdition_mod (s : State) (e : Nat) (g : Edition → Edition) : (s.updEdition e g).mod = s.mod := rfl
@[simp] theorem State.updEdition_budget (s : State) (e : Nat) (g : Edition → Edition) : (s.updEdition e g).budget = s.budget := rfl
@[simp] theorem State.updEdition_plan (s : State) (e : Nat) (g : Edition → Edition) : (s.updEdition e g).plan = s.plan := rfl
@[simp] theorem State.updEdition_fields (s : State) (e : Nat) (g : Edition → Edition) : (s.updEdition e g).fields = s.fields := rfl
@[simp] theorem State.updEdition_cores (s : State) (e : Nat) (g : Edition → Edition) : (s.updEdition e g).cores = s.cores := rfl
@[simp] theorem State.updEdition_stackSet (s : State) (e : Nat) (g : Edition → Edition) : (s.updEdition e g).stackSet = s.stackSet := rfl
@[simp] theorem State.updEdition_parts (s : State) (e : Nat) (g : Edition → Edition) : (s.updEdition e g).parts = s.parts := rfl
@[simp] theorem State.updEdition_reqs (s : State) (e : Nat) (g : Edition → Edition) : (s.updEdition e g).reqs = s.reqs := rfl
@[simp] theorem State.updEdition_alaok (s : State) (e : Nat) (g : Edition → Edition) : (s.updEdition e g).alaok = s.alaok := rfl
@[simp] theorem State.updEdition_ledger (s : State) (e : Nat) (g : Edition → Edition) : (s.updEdition e g).ledger = s.ledger := rfl
@[simp] theorem State.updEdition_fabric (s : State) (e : Nat) (g : Edition → Edition) : (s.updEdition e g).fabric = s.fabric := rfl
@[simp] theorem State.updEdition_stop (s : State) (e : Nat) (g : Edition → Edition) : (s.updEdition e g).stop = s.stop := rfl
@[simp] theorem State.updEdition_collector (s : State) (e : Nat) (g : Edition → Edition) : (s.updEdition e g).collector = s.collector := rfl
@[simp] theorem State.updEdition_free (s : State) (e : Nat) (g : Edition → Edition) : (s.updEdition e g).free = s.free := rfl
@[simp] theorem State.updEdition_pending (s : State) (e : Nat) (g : Edition → Edition) : (s.updEdition e g).pending = s.pending := rfl

@[simp] theorem State.updReq_clock (s : State) (i : Nat) (g : Req → Req) : (s.updReq i g).clock = s.clock := rfl
@[simp] theorem State.updReq_mod (s : State) (i : Nat) (g : Req → Req) : (s.updReq i g).mod = s.mod := rfl
@[simp] theorem State.updReq_budget (s : State) (i : Nat) (g : Req → Req) : (s.updReq i g).budget = s.budget := rfl
@[simp] theorem State.updReq_plan (s : State) (i : Nat) (g : Req → Req) : (s.updReq i g).plan = s.plan := rfl
@[simp] theorem State.updReq_fields (s : State) (i : Nat) (g : Req → Req) : (s.updReq i g).fields = s.fields := rfl
@[simp] theorem State.updReq_cores (s : State) (i : Nat) (g : Req → Req) : (s.updReq i g).cores = s.cores := rfl
@[simp] theorem State.updReq_stackSet (s : State) (i : Nat) (g : Req → Req) : (s.updReq i g).stackSet = s.stackSet := rfl
@[simp] theorem State.updReq_parts (s : State) (i : Nat) (g : Req → Req) : (s.updReq i g).parts = s.parts := rfl
@[simp] theorem State.updReq_editions (s : State) (i : Nat) (g : Req → Req) : (s.updReq i g).editions = s.editions := rfl
@[simp] theorem State.updReq_alaok (s : State) (i : Nat) (g : Req → Req) : (s.updReq i g).alaok = s.alaok := rfl
@[simp] theorem State.updReq_ledger (s : State) (i : Nat) (g : Req → Req) : (s.updReq i g).ledger = s.ledger := rfl
@[simp] theorem State.updReq_fabric (s : State) (i : Nat) (g : Req → Req) : (s.updReq i g).fabric = s.fabric := rfl
@[simp] theorem State.updReq_stop (s : State) (i : Nat) (g : Req → Req) : (s.updReq i g).stop = s.stop := rfl
@[simp] theorem State.updReq_collector (s : State) (i : Nat) (g : Req → Req) : (s.updReq i g).collector = s.collector := rfl
@[simp] theorem State.updReq_free (s : State) (i : Nat) (g : Req → Req) : (s.updReq i g).free = s.free := rfl
@[simp] theorem State.updReq_pending (s : State) (i : Nat) (g : Req → Req) : (s.updReq i g).pending = s.pending := rfl

@[simp] theorem State.updConn_clock (s : State) (c : Nat) (g : Connector → Connector) : (s.updConn c g).clock = s.clock := rfl
@[simp] theorem State.updConn_mod (s : State) (c : Nat) (g : Connector → Connector) : (s.updConn c g).mod = s.mod := rfl
@[simp] theorem State.updConn_budget (s : State) (c : Nat) (g : Connector → Connector) : (s.updConn c g).budget = s.budget := rfl
@[simp] theorem State.updConn_plan (s : State) (c : Nat) (g : Connector → Connector) : (s.updConn c g).plan = s.plan := rfl
@[simp] theorem State.updConn_fields (s : State) (c : Nat) (g : Connector → Connector) : (s.updConn c g).fields = s.fields := rfl
@[simp] theorem State.updConn_cores (s : State) (c : Nat) (g : Connector → Connector) : (s.updConn c g).cores = s.cores := rfl
@[simp] theorem State.updConn_stackSet (s : State) (c : Nat) (g : Connector → Connector) : (s.updConn c g).stackSet = s.stackSet := rfl
@[simp] theorem State.updConn_parts (s : State) (c : Nat) (g : Connector → Connector) : (s.updConn c g).parts = s.parts := rfl
@[simp] theorem State.updConn_editions (s : State) (c : Nat) (g : Connector → Connector) : (s.updConn c g).editions = s.editions := rfl
@[simp] theorem State.updConn_reqs (s : State) (c : Nat) (g : Connector → Connector) : (s.updConn c g).reqs = s.reqs := rfl
@[simp] theorem State.updConn_ledger (s : State) (c : Nat) (g : Connector → Connector) : (s.updConn c g).ledger = s.ledger := rfl
@[simp] theorem State.updConn_fabric (s : State) (c : Nat) (g : Connector → Connector) : (s.updConn c g).fabric = s.fabric := rfl
@[simp] theorem State.updConn_stop (s : State) (c : Nat) (g : Connector → Connector) : (s.updConn c g).stop = s.stop := rfl
@[simp] theorem State.updConn_collector (s : State) (c : Nat) (g : Connector → Connector) : (s.updConn c g).collector = s.collector := rfl
@[simp] theorem State.updConn_free (s : State) (c : Nat) (g : Connector → Connector) : (s.updConn c g).free = s.free := rfl
@[simp] theorem State.updConn_pending (s : State) (c : Nat) (g : Connector → Connector) : (s.updConn c g).pending = s.pending := rfl

@[simp] theorem State.updSess_clock (s : State) (c : Nat) (g : Session → Session) : (s.updSess c g).clock = s.clock := rfl
@[simp] theorem State.updSess_mod (s : State) (c : Nat) (g : Session → Session) : (s.updSess c g).mod = s.mod := rfl
@[simp] theorem State.updSess_budget (s : State) (c : Nat) (g : Session → Session) : (s.updSess c g).budget = s.budget := rfl
@[simp] theorem State.updSess_plan (s : State) (c : Nat) (g : Session → Session) : (s.updSess c g).plan = s.plan := rfl
@[simp] theorem State.updSess_fields (s : State) (c : Nat) (g : Session → Session) : (s.updSess c g).fields = s.fields := rfl
@[simp] theorem State.updSess_cores (s : State) (c : Nat) (g : Session → Session) : (s.updSess c g).cores = s.cores := rfl
@[simp] theorem State.updSess_stackSet (s : State) (c : Nat) (g : Session → Session) : (s.updSess c g).stackSet = s.stackSet := rfl
@[simp] theorem State.updSess_parts (s : State) (c : Nat) (g : Session → Session) : (s.updSess c g).parts = s.parts := rfl
@[simp] theorem State.updSess_editions (s : State) (c : Nat) (g : Session → Session) : (s.updSess c g).editions = s.editions := rfl
@[simp] theorem State.updSess_reqs (s : State) (c : Nat) (g : Session → Session) : (s.updSess c g).reqs = s.reqs := rfl
@[simp] theorem State.updSess_ledger (s : State) (c : Nat) (g : Session → Session) : (s.updSess c g).ledger = s.ledger := rfl
@[simp] theorem State.updSess_fabric (s : State) (c : Nat) (g : Session → Session) : (s.updSess c g).fabric = s.fabric := rfl
@[simp] theorem State.updSess_stop (s : State) (c : Nat) (g : Session → Session) : (s.updSess c g).stop = s.stop := rfl
@[simp] theorem State.updSess_collector (s : State) (c : Nat) (g : Session → Session) : (s.updSess c g).collector = s.collector := rfl
@[simp] theorem State.updSess_free (s : State) (c : Nat) (g : Session → Session) : (s.updSess c g).free = s.free := rfl
@[simp] theorem State.updSess_pending (s : State) (c : Nat) (g : Session → Session) : (s.updSess c g).pending = s.pending := rfl

@[simp] theorem State.updPort_clock (s : State) (p : Nat) (g : Port → Port) : (s.updPort p g).clock = s.clock := rfl
@[simp] theorem State.updPort_mod (s : State) (p : Nat) (g : Port → Port) : (s.updPort p g).mod = s.mod := rfl
@[simp] theorem State.updPort_budget (s : State) (p : Nat) (g : Port → Port) : (s.updPort p g).budget = s.budget := rfl
@[simp] theorem State.updPort_plan (s : State) (p : Nat) (g : Port → Port) : (s.updPort p g).plan = s.plan := rfl
@[simp] theorem State.updPort_fields (s : State) (p : Nat) (g : Port → Port) : (s.updPort p g).fields = s.fields := rfl
@[simp] theorem State.updPort_cores (s : State) (p : Nat) (g : Port → Port) : (s.updPort p g).cores = s.cores := rfl
@[simp] theorem State.updPort_stackSet (s : State) (p : Nat) (g : Port → Port) : (s.updPort p g).stackSet = s.stackSet := rfl
@[simp] theorem State.updPort_parts (s : State) (p : Nat) (g : Port → Port) : (s.updPort p g).parts = s.parts := rfl
@[simp] theorem State.updPort_editions (s : State) (p : Nat) (g : Port → Port) : (s.updPort p g).editions = s.editions := rfl
@[simp] theorem State.updPort_reqs (s : State) (p : Nat) (g : Port → Port) : (s.updPort p g).reqs = s.reqs := rfl
@[simp] theorem State.updPort_alaok (s : State) (p : Nat) (g : Port → Port) : (s.updPort p g).alaok = s.alaok := rfl
@[simp] theorem State.updPort_ledger (s : State) (p : Nat) (g : Port → Port) : (s.updPort p g).ledger = s.ledger := rfl
@[simp] theorem State.updPort_stop (s : State) (p : Nat) (g : Port → Port) : (s.updPort p g).stop = s.stop := rfl
@[simp] theorem State.updPort_collector (s : State) (p : Nat) (g : Port → Port) : (s.updPort p g).collector = s.collector := rfl
@[simp] theorem State.updPort_free (s : State) (p : Nat) (g : Port → Port) : (s.updPort p g).free = s.free := rfl
@[simp] theorem State.updPort_pending (s : State) (p : Nat) (g : Port → Port) : (s.updPort p g).pending = s.pending := rfl

@[simp] theorem State.drawn_clock (s : State) : (s.drawn).clock = s.clock := rfl
@[simp] theorem State.drawn_mod (s : State) : (s.drawn).mod = s.mod := rfl
@[simp] theorem State.drawn_budget (s : State) : (s.drawn).budget = s.budget := rfl
@[simp] theorem State.drawn_plan (s : State) : (s.drawn).plan = s.plan := rfl
@[simp] theorem State.drawn_fields (s : State) : (s.drawn).fields = s.fields := rfl
@[simp] theorem State.drawn_cores (s : State) : (s.drawn).cores = s.cores := rfl
@[simp] theorem State.drawn_stackSet (s : State) : (s.drawn).stackSet = s.stackSet := rfl
@[simp] theorem State.drawn_parts (s : State) : (s.drawn).parts = s.parts := rfl
@[simp] theorem State.drawn_editions (s : State) : (s.drawn).editions = s.editions := rfl
@[simp] theorem State.drawn_reqs (s : State) : (s.drawn).reqs = s.reqs := rfl
@[simp] theorem State.drawn_alaok (s : State) : (s.drawn).alaok = s.alaok := rfl
@[simp] theorem State.drawn_ledger (s : State) : (s.drawn).ledger = s.ledger := rfl
@[simp] theorem State.drawn_fabric (s : State) : (s.drawn).fabric = s.fabric := rfl
@[simp] theorem State.drawn_stop (s : State) : (s.drawn).stop = s.stop := rfl
@[simp] theorem State.drawn_collector (s : State) : (s.drawn).collector = s.collector := rfl
@[simp] theorem State.drawn_pending (s : State) : (s.drawn).pending = s.pending := rfl

@[simp] theorem State.defer_clock (s : State) (d : Deferred) : (s.defer d).clock = s.clock := rfl
@[simp] theorem State.defer_budget (s : State) (d : Deferred) : (s.defer d).budget = s.budget := rfl
@[simp] theorem State.defer_plan (s : State) (d : Deferred) : (s.defer d).plan = s.plan := rfl
@[simp] theorem State.defer_fields (s : State) (d : Deferred) : (s.defer d).fields = s.fields := rfl
@[simp] theorem State.defer_cores (s : State) (d : Deferred) : (s.defer d).cores = s.cores := rfl
@[simp] theorem State.defer_stackSet (s : State) (d : Deferred) : (s.defer d).stackSet = s.stackSet := rfl
@[simp] theorem State.defer_parts (s : State) (d : Deferred) : (s.defer d).parts = s.parts := rfl
@[simp] theorem State.defer_editions (s : State) (d : Deferred) : (s.defer d).editions = s.editions := rfl
@[simp] theorem State.defer_reqs (s : State) (d : Deferred) : (s.defer d).reqs = s.reqs := rfl
@[simp] theorem State.defer_alaok (s : State) (d : Deferred) : (s.defer d).alaok = s.alaok := rfl
@[simp] theorem State.defer_ledger (s : State) (d : Deferred) : (s.defer d).ledger = s.ledger := rfl
@[simp] theorem State.defer_fabric (s : State) (d : Deferred) : (s.defer d).fabric = s.fabric := rfl
@[simp] theorem State.defer_stop (s : State) (d : Deferred) : (s.defer d).stop = s.stop := rfl
@[simp] theorem State.defer_collector (s : State) (d : Deferred) : (s.defer d).collector = s.collector := rfl
@[simp] theorem State.defer_free (s : State) (d : Deferred) : (s.defer d).free = s.free := rfl
@[simp] theorem State.defer_pending (s : State) (d : Deferred) : (s.defer d).pending = s.pending := rfl

@[simp] theorem State.dropAssist_clock (s : State) (id : Word) : (s.dropAssist id).clock = s.clock := rfl
@[simp] theorem State.dropAssist_mod (s : State) (id : Word) : (s.dropAssist id).mod = s.mod := rfl
@[simp] theorem State.dropAssist_budget (s : State) (id : Word) : (s.dropAssist id).budget = s.budget := rfl
@[simp] theorem State.dropAssist_plan (s : State) (id : Word) : (s.dropAssist id).plan = s.plan := rfl
@[simp] theorem State.dropAssist_fields (s : State) (id : Word) : (s.dropAssist id).fields = s.fields := rfl
@[simp] theorem State.dropAssist_cores (s : State) (id : Word) : (s.dropAssist id).cores = s.cores := rfl
@[simp] theorem State.dropAssist_stackSet (s : State) (id : Word) : (s.dropAssist id).stackSet = s.stackSet := rfl
@[simp] theorem State.dropAssist_parts (s : State) (id : Word) : (s.dropAssist id).parts = s.parts := rfl
@[simp] theorem State.dropAssist_editions (s : State) (id : Word) : (s.dropAssist id).editions = s.editions := rfl
@[simp] theorem State.dropAssist_reqs (s : State) (id : Word) : (s.dropAssist id).reqs = s.reqs := rfl
@[simp] theorem State.dropAssist_ledger (s : State) (id : Word) : (s.dropAssist id).ledger = s.ledger := rfl
@[simp] theorem State.dropAssist_fabric (s : State) (id : Word) : (s.dropAssist id).fabric = s.fabric := rfl
@[simp] theorem State.dropAssist_stop (s : State) (id : Word) : (s.dropAssist id).stop = s.stop := rfl
@[simp] theorem State.dropAssist_collector (s : State) (id : Word) : (s.dropAssist id).collector = s.collector := rfl
@[simp] theorem State.dropAssist_free (s : State) (id : Word) : (s.dropAssist id).free = s.free := rfl
@[simp] theorem State.dropAssist_pending (s : State) (id : Word) : (s.dropAssist id).pending = s.pending := rfl

@[simp] theorem State.updField_field (s : State) (f : Nat) (g : Field → Field) : (s.updField f g).field f = g (s.field f) :=
  Map.find_put_self _ _ _ _
theorem State.updField_field_ne (s : State) (f j : Nat) (g : Field → Field) (h : j ≠ f) : (s.updField f g).field j = s.field j :=
  Map.find_put_ne _ _ _ _ _ h
@[simp] theorem State.updCore_core (s : State) (k : Nat) (g : Core → Core) : (s.updCore k g).core k = g (s.core k) :=
  Map.find_put_self _ _ _ _
theorem State.updCore_core_ne (s : State) (k j : Nat) (g : Core → Core) (h : j ≠ k) : (s.updCore k g).core j = s.core j :=
  Map.find_put_ne _ _ _ _ _ h
@[simp] theorem State.updStack_stack (s : State) (k : Nat) (g : Stack → Stack) : (s.updStack k g).stack k = g (s.stack k) :=
  Map.find_put_self _ _ _ _
theorem State.updStack_stack_ne (s : State) (k j : Nat) (g : Stack → Stack) (h : j ≠ k) : (s.updStack k g).stack j = s.stack j :=
  Map.find_put_ne _ _ _ _ _ h
@[simp] theorem State.updPart_part (s : State) (p : Nat) (g : Partition → Partition) : (s.updPart p g).part p = g (s.part p) :=
  Map.find_put_self _ _ _ _
theorem State.updPart_part_ne (s : State) (p j : Nat) (g : Partition → Partition) (h : j ≠ p) : (s.updPart p g).part j = s.part j :=
  Map.find_put_ne _ _ _ _ _ h
@[simp] theorem State.updEdition_edition (s : State) (e : Nat) (g : Edition → Edition) : (s.updEdition e g).edition e = g (s.edition e) :=
  Map.find_put_self _ _ _ _
theorem State.updEdition_edition_ne (s : State) (e j : Nat) (g : Edition → Edition) (h : j ≠ e) : (s.updEdition e g).edition j = s.edition j :=
  Map.find_put_ne _ _ _ _ _ h
@[simp] theorem State.updReq_req (s : State) (i : Nat) (g : Req → Req) : (s.updReq i g).req i = g (s.req i) :=
  Map.find_put_self _ _ _ _
theorem State.updReq_req_ne (s : State) (i j : Nat) (g : Req → Req) (h : j ≠ i) : (s.updReq i g).req j = s.req j :=
  Map.find_put_ne _ _ _ _ _ h
@[simp] theorem State.updConn_conn (s : State) (c : Nat) (g : Connector → Connector) : (s.updConn c g).conn c = g (s.conn c) :=
  Map.find_put_self _ _ _ _
theorem State.updConn_conn_ne (s : State) (c j : Nat) (g : Connector → Connector) (h : j ≠ c) : (s.updConn c g).conn j = s.conn j :=
  Map.find_put_ne _ _ _ _ _ h
@[simp] theorem State.updPort_port (s : State) (p : Nat) (g : Port → Port) : (s.updPort p g).port p = g (s.port p) :=
  Map.find_put_self _ _ _ _
theorem State.updPort_port_ne (s : State) (p j : Nat) (g : Port → Port) (h : j ≠ p) : (s.updPort p g).port j = s.port j :=
  Map.find_put_ne _ _ _ _ _ h

end Sys2Proof.Machine
end

