-- ==== Sys2Proof/Laws/Frames.lean ====
section
/-! SUPPORT. What the counters, the fault records, the reports and the replies leave alone: a reply changes nothing but the
links to the control node. -/

namespace Sys2Proof.Machine

@[simp] theorem State.countModule_clock (s : State) (k n : Nat) : (s.countModule k n).clock = s.clock := by
  unfold State.countModule; split <;> rfl
@[simp] theorem State.countModule_budget (s : State) (k n : Nat) : (s.countModule k n).budget = s.budget := by
  unfold State.countModule; split <;> rfl
@[simp] theorem State.countModule_plan (s : State) (k n : Nat) : (s.countModule k n).plan = s.plan := by
  unfold State.countModule; split <;> rfl
@[simp] theorem State.countModule_fields (s : State) (k n : Nat) : (s.countModule k n).fields = s.fields := by
  unfold State.countModule; split <;> rfl
@[simp] theorem State.countModule_cores (s : State) (k n : Nat) : (s.countModule k n).cores = s.cores := by
  unfold State.countModule; split <;> rfl
@[simp] theorem State.countModule_stackSet (s : State) (k n : Nat) : (s.countModule k n).stackSet = s.stackSet := by
  unfold State.countModule; split <;> rfl
@[simp] theorem State.countModule_parts (s : State) (k n : Nat) : (s.countModule k n).parts = s.parts := by
  unfold State.countModule; split <;> rfl
@[simp] theorem State.countModule_editions (s : State) (k n : Nat) : (s.countModule k n).editions = s.editions := by
  unfold State.countModule; split <;> rfl
@[simp] theorem State.countModule_reqs (s : State) (k n : Nat) : (s.countModule k n).reqs = s.reqs := by
  unfold State.countModule; split <;> rfl
@[simp] theorem State.countModule_alaok (s : State) (k n : Nat) : (s.countModule k n).alaok = s.alaok := by
  unfold State.countModule; split <;> rfl
@[simp] theorem State.countModule_ledger (s : State) (k n : Nat) : (s.countModule k n).ledger = s.ledger := by
  unfold State.countModule; split <;> rfl
@[simp] theorem State.countModule_fabric (s : State) (k n : Nat) : (s.countModule k n).fabric = s.fabric := by
  unfold State.countModule; split <;> rfl
@[simp] theorem State.countModule_stop (s : State) (k n : Nat) : (s.countModule k n).stop = s.stop := by
  unfold State.countModule; split <;> rfl
@[simp] theorem State.countModule_collector (s : State) (k n : Nat) : (s.countModule k n).collector = s.collector := by
  unfold State.countModule; split <;> rfl
@[simp] theorem State.countModule_free (s : State) (k n : Nat) : (s.countModule k n).free = s.free := by
  unfold State.countModule; split <;> rfl
@[simp] theorem State.countModule_pending (s : State) (k n : Nat) : (s.countModule k n).pending = s.pending := by
  unfold State.countModule; split <;> rfl

@[simp] theorem State.countField_clock (s : State) (f k n : Nat) : (s.countField f k n).clock = s.clock := by
  unfold State.countField; split <;> rfl
@[simp] theorem State.countField_mod (s : State) (f k n : Nat) : (s.countField f k n).mod = s.mod := by
  unfold State.countField; split <;> rfl
@[simp] theorem State.countField_budget (s : State) (f k n : Nat) : (s.countField f k n).budget = s.budget := by
  unfold State.countField; split <;> rfl
@[simp] theorem State.countField_plan (s : State) (f k n : Nat) : (s.countField f k n).plan = s.plan := by
  unfold State.countField; split <;> rfl
@[simp] theorem State.countField_cores (s : State) (f k n : Nat) : (s.countField f k n).cores = s.cores := by
  unfold State.countField; split <;> rfl
@[simp] theorem State.countField_stackSet (s : State) (f k n : Nat) : (s.countField f k n).stackSet = s.stackSet := by
  unfold State.countField; split <;> rfl
@[simp] theorem State.countField_parts (s : State) (f k n : Nat) : (s.countField f k n).parts = s.parts := by
  unfold State.countField; split <;> rfl
@[simp] theorem State.countField_editions (s : State) (f k n : Nat) : (s.countField f k n).editions = s.editions := by
  unfold State.countField; split <;> rfl
@[simp] theorem State.countField_reqs (s : State) (f k n : Nat) : (s.countField f k n).reqs = s.reqs := by
  unfold State.countField; split <;> rfl
@[simp] theorem State.countField_alaok (s : State) (f k n : Nat) : (s.countField f k n).alaok = s.alaok := by
  unfold State.countField; split <;> rfl
@[simp] theorem State.countField_ledger (s : State) (f k n : Nat) : (s.countField f k n).ledger = s.ledger := by
  unfold State.countField; split <;> rfl
@[simp] theorem State.countField_fabric (s : State) (f k n : Nat) : (s.countField f k n).fabric = s.fabric := by
  unfold State.countField; split <;> rfl
@[simp] theorem State.countField_stop (s : State) (f k n : Nat) : (s.countField f k n).stop = s.stop := by
  unfold State.countField; split <;> rfl
@[simp] theorem State.countField_collector (s : State) (f k n : Nat) : (s.countField f k n).collector = s.collector := by
  unfold State.countField; split <;> rfl
@[simp] theorem State.countField_free (s : State) (f k n : Nat) : (s.countField f k n).free = s.free := by
  unfold State.countField; split <;> rfl
@[simp] theorem State.countField_pending (s : State) (f k n : Nat) : (s.countField f k n).pending = s.pending := by
  unfold State.countField; split <;> rfl

@[simp] theorem State.countStack_clock (s : State) (t k n : Nat) : (s.countStack t k n).clock = s.clock := by
  unfold State.countStack; split <;> rfl
@[simp] theorem State.countStack_mod (s : State) (t k n : Nat) : (s.countStack t k n).mod = s.mod := by
  unfold State.countStack; split <;> rfl
@[simp] theorem State.countStack_budget (s : State) (t k n : Nat) : (s.countStack t k n).budget = s.budget := by
  unfold State.countStack; split <;> rfl
@[simp] theorem State.countStack_plan (s : State) (t k n : Nat) : (s.countStack t k n).plan = s.plan := by
  unfold State.countStack; split <;> rfl
@[simp] theorem State.countStack_fields (s : State) (t k n : Nat) : (s.countStack t k n).fields = s.fields := by
  unfold State.countStack; split <;> rfl
@[simp] theorem State.countStack_cores (s : State) (t k n : Nat) : (s.countStack t k n).cores = s.cores := by
  unfold State.countStack; split <;> rfl
@[simp] theorem State.countStack_parts (s : State) (t k n : Nat) : (s.countStack t k n).parts = s.parts := by
  unfold State.countStack; split <;> rfl
@[simp] theorem State.countStack_editions (s : State) (t k n : Nat) : (s.countStack t k n).editions = s.editions := by
  unfold State.countStack; split <;> rfl
@[simp] theorem State.countStack_reqs (s : State) (t k n : Nat) : (s.countStack t k n).reqs = s.reqs := by
  unfold State.countStack; split <;> rfl
@[simp] theorem State.countStack_alaok (s : State) (t k n : Nat) : (s.countStack t k n).alaok = s.alaok := by
  unfold State.countStack; split <;> rfl
@[simp] theorem State.countStack_ledger (s : State) (t k n : Nat) : (s.countStack t k n).ledger = s.ledger := by
  unfold State.countStack; split <;> rfl
@[simp] theorem State.countStack_fabric (s : State) (t k n : Nat) : (s.countStack t k n).fabric = s.fabric := by
  unfold State.countStack; split <;> rfl
@[simp] theorem State.countStack_stop (s : State) (t k n : Nat) : (s.countStack t k n).stop = s.stop := by
  unfold State.countStack; split <;> rfl
@[simp] theorem State.countStack_collector (s : State) (t k n : Nat) : (s.countStack t k n).collector = s.collector := by
  unfold State.countStack; split <;> rfl
@[simp] theorem State.countStack_free (s : State) (t k n : Nat) : (s.countStack t k n).free = s.free := by
  unfold State.countStack; split <;> rfl
@[simp] theorem State.countStack_pending (s : State) (t k n : Nat) : (s.countStack t k n).pending = s.pending := by
  unfold State.countStack; split <;> rfl

@[simp] theorem State.countPart_clock (s : State) (p k n : Nat) : (s.countPart p k n).clock = s.clock := by
  unfold State.countPart; split <;> rfl
@[simp] theorem State.countPart_mod (s : State) (p k n : Nat) : (s.countPart p k n).mod = s.mod := by
  unfold State.countPart; split <;> rfl
@[simp] theorem State.countPart_budget (s : State) (p k n : Nat) : (s.countPart p k n).budget = s.budget := by
  unfold State.countPart; split <;> rfl
@[simp] theorem State.countPart_plan (s : State) (p k n : Nat) : (s.countPart p k n).plan = s.plan := by
  unfold State.countPart; split <;> rfl
@[simp] theorem State.countPart_fields (s : State) (p k n : Nat) : (s.countPart p k n).fields = s.fields := by
  unfold State.countPart; split <;> rfl
@[simp] theorem State.countPart_cores (s : State) (p k n : Nat) : (s.countPart p k n).cores = s.cores := by
  unfold State.countPart; split <;> rfl
@[simp] theorem State.countPart_stackSet (s : State) (p k n : Nat) : (s.countPart p k n).stackSet = s.stackSet := by
  unfold State.countPart; split <;> rfl
@[simp] theorem State.countPart_editions (s : State) (p k n : Nat) : (s.countPart p k n).editions = s.editions := by
  unfold State.countPart; split <;> rfl
@[simp] theorem State.countPart_reqs (s : State) (p k n : Nat) : (s.countPart p k n).reqs = s.reqs := by
  unfold State.countPart; split <;> rfl
@[simp] theorem State.countPart_alaok (s : State) (p k n : Nat) : (s.countPart p k n).alaok = s.alaok := by
  unfold State.countPart; split <;> rfl
@[simp] theorem State.countPart_ledger (s : State) (p k n : Nat) : (s.countPart p k n).ledger = s.ledger := by
  unfold State.countPart; split <;> rfl
@[simp] theorem State.countPart_fabric (s : State) (p k n : Nat) : (s.countPart p k n).fabric = s.fabric := by
  unfold State.countPart; split <;> rfl
@[simp] theorem State.countPart_stop (s : State) (p k n : Nat) : (s.countPart p k n).stop = s.stop := by
  unfold State.countPart; split <;> rfl
@[simp] theorem State.countPart_collector (s : State) (p k n : Nat) : (s.countPart p k n).collector = s.collector := by
  unfold State.countPart; split <;> rfl
@[simp] theorem State.countPart_free (s : State) (p k n : Nat) : (s.countPart p k n).free = s.free := by
  unfold State.countPart; split <;> rfl
@[simp] theorem State.countPart_pending (s : State) (p k n : Nat) : (s.countPart p k n).pending = s.pending := by
  unfold State.countPart; split <;> rfl

@[simp] theorem State.countPort_clock (s : State) (p k n : Nat) : (s.countPort p k n).clock = s.clock := by
  unfold State.countPort; split <;> rfl
@[simp] theorem State.countPort_mod (s : State) (p k n : Nat) : (s.countPort p k n).mod = s.mod := by
  unfold State.countPort; split <;> rfl
@[simp] theorem State.countPort_budget (s : State) (p k n : Nat) : (s.countPort p k n).budget = s.budget := by
  unfold State.countPort; split <;> rfl
@[simp] theorem State.countPort_plan (s : State) (p k n : Nat) : (s.countPort p k n).plan = s.plan := by
  unfold State.countPort; split <;> rfl
@[simp] theorem State.countPort_fields (s : State) (p k n : Nat) : (s.countPort p k n).fields = s.fields := by
  unfold State.countPort; split <;> rfl
@[simp] theorem State.countPort_cores (s : State) (p k n : Nat) : (s.countPort p k n).cores = s.cores := by
  unfold State.countPort; split <;> rfl
@[simp] theorem State.countPort_stackSet (s : State) (p k n : Nat) : (s.countPort p k n).stackSet = s.stackSet := by
  unfold State.countPort; split <;> rfl
@[simp] theorem State.countPort_parts (s : State) (p k n : Nat) : (s.countPort p k n).parts = s.parts := by
  unfold State.countPort; split <;> rfl
@[simp] theorem State.countPort_editions (s : State) (p k n : Nat) : (s.countPort p k n).editions = s.editions := by
  unfold State.countPort; split <;> rfl
@[simp] theorem State.countPort_reqs (s : State) (p k n : Nat) : (s.countPort p k n).reqs = s.reqs := by
  unfold State.countPort; split <;> rfl
@[simp] theorem State.countPort_alaok (s : State) (p k n : Nat) : (s.countPort p k n).alaok = s.alaok := by
  unfold State.countPort; split <;> rfl
@[simp] theorem State.countPort_ledger (s : State) (p k n : Nat) : (s.countPort p k n).ledger = s.ledger := by
  unfold State.countPort; split <;> rfl
@[simp] theorem State.countPort_stop (s : State) (p k n : Nat) : (s.countPort p k n).stop = s.stop := by
  unfold State.countPort; split <;> rfl
@[simp] theorem State.countPort_collector (s : State) (p k n : Nat) : (s.countPort p k n).collector = s.collector := by
  unfold State.countPort; split <;> rfl
@[simp] theorem State.countPort_free (s : State) (p k n : Nat) : (s.countPort p k n).free = s.free := by
  unfold State.countPort; split <;> rfl
@[simp] theorem State.countPort_pending (s : State) (p k n : Nat) : (s.countPort p k n).pending = s.pending := by
  unfold State.countPort; split <;> rfl

@[simp] theorem State.takeOut_clock (s : State) (unit : Nat) (kind : UnitKind) : (s.takeOut unit kind).clock = s.clock := by
  unfold State.takeOut; split <;> rfl
@[simp] theorem State.takeOut_mod (s : State) (unit : Nat) (kind : UnitKind) : (s.takeOut unit kind).mod = s.mod := by
  unfold State.takeOut; split <;> rfl
@[simp] theorem State.takeOut_budget (s : State) (unit : Nat) (kind : UnitKind) : (s.takeOut unit kind).budget = s.budget := by
  unfold State.takeOut; split <;> rfl
@[simp] theorem State.takeOut_fields (s : State) (unit : Nat) (kind : UnitKind) : (s.takeOut unit kind).fields = s.fields := by
  unfold State.takeOut; split <;> rfl
@[simp] theorem State.takeOut_cores (s : State) (unit : Nat) (kind : UnitKind) : (s.takeOut unit kind).cores = s.cores := by
  unfold State.takeOut; split <;> rfl
@[simp] theorem State.takeOut_stackSet (s : State) (unit : Nat) (kind : UnitKind) : (s.takeOut unit kind).stackSet = s.stackSet := by
  unfold State.takeOut; split <;> rfl
@[simp] theorem State.takeOut_parts (s : State) (unit : Nat) (kind : UnitKind) : (s.takeOut unit kind).parts = s.parts := by
  unfold State.takeOut; split <;> rfl
@[simp] theorem State.takeOut_editions (s : State) (unit : Nat) (kind : UnitKind) : (s.takeOut unit kind).editions = s.editions := by
  unfold State.takeOut; split <;> rfl
@[simp] theorem State.takeOut_reqs (s : State) (unit : Nat) (kind : UnitKind) : (s.takeOut unit kind).reqs = s.reqs := by
  unfold State.takeOut; split <;> rfl
@[simp] theorem State.takeOut_alaok (s : State) (unit : Nat) (kind : UnitKind) : (s.takeOut unit kind).alaok = s.alaok := by
  unfold State.takeOut; split <;> rfl
@[simp] theorem State.takeOut_ledger (s : State) (unit : Nat) (kind : UnitKind) : (s.takeOut unit kind).ledger = s.ledger := by
  unfold State.takeOut; split <;> rfl
@[simp] theorem State.takeOut_fabric (s : State) (unit : Nat) (kind : UnitKind) : (s.takeOut unit kind).fabric = s.fabric := by
  unfold State.takeOut; split <;> rfl
@[simp] theorem State.takeOut_stop (s : State) (unit : Nat) (kind : UnitKind) : (s.takeOut unit kind).stop = s.stop := by
  unfold State.takeOut; split <;> rfl
@[simp] theorem State.takeOut_collector (s : State) (unit : Nat) (kind : UnitKind) : (s.takeOut unit kind).collector = s.collector := by
  unfold State.takeOut; split <;> rfl
@[simp] theorem State.takeOut_free (s : State) (unit : Nat) (kind : UnitKind) : (s.takeOut unit kind).free = s.free := by
  unfold State.takeOut; split <;> rfl
@[simp] theorem State.takeOut_pending (s : State) (unit : Nat) (kind : UnitKind) : (s.takeOut unit kind).pending = s.pending := by
  unfold State.takeOut; split <;> rfl

theorem State.setMod_clock (s : State) (m : ModStatus) : (s.setMod m).clock = s.clock := rfl
theorem State.setMod_budget (s : State) (m : ModStatus) : (s.setMod m).budget = s.budget := rfl
theorem State.setMod_plan (s : State) (m : ModStatus) : (s.setMod m).plan = s.plan := rfl
theorem State.setMod_fields (s : State) (m : ModStatus) : (s.setMod m).fields = s.fields := rfl
theorem State.setMod_cores (s : State) (m : ModStatus) : (s.setMod m).cores = s.cores := rfl
theorem State.setMod_stackSet (s : State) (m : ModStatus) : (s.setMod m).stackSet = s.stackSet := rfl
theorem State.setMod_parts (s : State) (m : ModStatus) : (s.setMod m).parts = s.parts := rfl
theorem State.setMod_editions (s : State) (m : ModStatus) : (s.setMod m).editions = s.editions := rfl
theorem State.setMod_reqs (s : State) (m : ModStatus) : (s.setMod m).reqs = s.reqs := rfl
theorem State.setMod_alaok (s : State) (m : ModStatus) : (s.setMod m).alaok = s.alaok := rfl
theorem State.setMod_ledger (s : State) (m : ModStatus) : (s.setMod m).ledger = s.ledger := rfl
theorem State.setMod_fabric (s : State) (m : ModStatus) : (s.setMod m).fabric = s.fabric := rfl
theorem State.setMod_stop (s : State) (m : ModStatus) : (s.setMod m).stop = s.stop := rfl
theorem State.setMod_collector (s : State) (m : ModStatus) : (s.setMod m).collector = s.collector := rfl
theorem State.setMod_free (s : State) (m : ModStatus) : (s.setMod m).free = s.free := rfl
theorem State.setMod_pending (s : State) (m : ModStatus) : (s.setMod m).pending = s.pending := rfl
@[simp] theorem State.fault_clock (s : State) (r : FaultRec) : (s.fault r).clock = s.clock := by
  exact State.setMod_clock ..
@[simp] theorem State.fault_budget (s : State) (r : FaultRec) : (s.fault r).budget = s.budget := by
  exact State.setMod_budget ..
@[simp] theorem State.fault_plan (s : State) (r : FaultRec) : (s.fault r).plan = s.plan := by
  exact State.setMod_plan ..
@[simp] theorem State.fault_fields (s : State) (r : FaultRec) : (s.fault r).fields = s.fields := by
  exact State.setMod_fields ..
@[simp] theorem State.fault_cores (s : State) (r : FaultRec) : (s.fault r).cores = s.cores := by
  exact State.setMod_cores ..
@[simp] theorem State.fault_stackSet (s : State) (r : FaultRec) : (s.fault r).stackSet = s.stackSet := by
  exact State.setMod_stackSet ..
@[simp] theorem State.fault_parts (s : State) (r : FaultRec) : (s.fault r).parts = s.parts := by
  exact State.setMod_parts ..
@[simp] theorem State.fault_editions (s : State) (r : FaultRec) : (s.fault r).editions = s.editions := by
  exact State.setMod_editions ..
@[simp] theorem State.fault_reqs (s : State) (r : FaultRec) : (s.fault r).reqs = s.reqs := by
  exact State.setMod_reqs ..
@[simp] theorem State.fault_alaok (s : State) (r : FaultRec) : (s.fault r).alaok = s.alaok := by
  exact State.setMod_alaok ..
@[simp] theorem State.fault_ledger (s : State) (r : FaultRec) : (s.fault r).ledger = s.ledger := by
  exact State.setMod_ledger ..
@[simp] theorem State.fault_fabric (s : State) (r : FaultRec) : (s.fault r).fabric = s.fabric := by
  exact State.setMod_fabric ..
@[simp] theorem State.fault_stop (s : State) (r : FaultRec) : (s.fault r).stop = s.stop := by
  exact State.setMod_stop ..
@[simp] theorem State.fault_collector (s : State) (r : FaultRec) : (s.fault r).collector = s.collector := by
  exact State.setMod_collector ..
@[simp] theorem State.fault_free (s : State) (r : FaultRec) : (s.fault r).free = s.free := by
  exact State.setMod_free ..
@[simp] theorem State.fault_pending (s : State) (r : FaultRec) : (s.fault r).pending = s.pending := by
  exact State.setMod_pending ..
theorem State.fault_mod (s : State) (r : FaultRec) : (s.fault r).mod =
    { s.mod with faultSeq := s.mod.faultSeq + 1, faults := addFault s.mod.faults (s.faultRec r) } :=
  rfl

@[simp] theorem State.takePacket_clock (s : State) (h : Hdr) : (s.takePacket h).clock = s.clock := by
  unfold State.takePacket; dsimp only; split <;> rfl
@[simp] theorem State.takePacket_mod (s : State) (h : Hdr) : (s.takePacket h).mod = s.mod := by
  unfold State.takePacket; dsimp only; split <;> rfl
@[simp] theorem State.takePacket_budget (s : State) (h : Hdr) : (s.takePacket h).budget = s.budget := by
  unfold State.takePacket; dsimp only; split <;> rfl
@[simp] theorem State.takePacket_plan (s : State) (h : Hdr) : (s.takePacket h).plan = s.plan := by
  unfold State.takePacket; dsimp only; split <;> rfl
@[simp] theorem State.takePacket_fields (s : State) (h : Hdr) : (s.takePacket h).fields = s.fields := by
  unfold State.takePacket; dsimp only; split <;> rfl
@[simp] theorem State.takePacket_cores (s : State) (h : Hdr) : (s.takePacket h).cores = s.cores := by
  unfold State.takePacket; dsimp only; split <;> rfl
@[simp] theorem State.takePacket_stackSet (s : State) (h : Hdr) : (s.takePacket h).stackSet = s.stackSet := by
  unfold State.takePacket; dsimp only; split <;> rfl
@[simp] theorem State.takePacket_parts (s : State) (h : Hdr) : (s.takePacket h).parts = s.parts := by
  unfold State.takePacket; dsimp only; split <;> rfl
@[simp] theorem State.takePacket_editions (s : State) (h : Hdr) : (s.takePacket h).editions = s.editions := by
  unfold State.takePacket; dsimp only; split <;> rfl
@[simp] theorem State.takePacket_reqs (s : State) (h : Hdr) : (s.takePacket h).reqs = s.reqs := by
  unfold State.takePacket; dsimp only; split <;> rfl
@[simp] theorem State.takePacket_ledger (s : State) (h : Hdr) : (s.takePacket h).ledger = s.ledger := by
  unfold State.takePacket; dsimp only; split <;> rfl
@[simp] theorem State.takePacket_fabric (s : State) (h : Hdr) : (s.takePacket h).fabric = s.fabric := by
  unfold State.takePacket; dsimp only; split <;> rfl
@[simp] theorem State.takePacket_stop (s : State) (h : Hdr) : (s.takePacket h).stop = s.stop := by
  unfold State.takePacket; dsimp only; split <;> rfl
@[simp] theorem State.takePacket_collector (s : State) (h : Hdr) : (s.takePacket h).collector = s.collector := by
  unfold State.takePacket; dsimp only; split <;> rfl
@[simp] theorem State.takePacket_free (s : State) (h : Hdr) : (s.takePacket h).free = s.free := by
  unfold State.takePacket; dsimp only; split <;> rfl
@[simp] theorem State.takePacket_pending (s : State) (h : Hdr) : (s.takePacket h).pending = s.pending := by
  unfold State.takePacket; dsimp only; split <;> rfl
@[simp] theorem State.pumpOn_clock (s : State) (c k : Nat) : (s.pumpOn c k).clock = s.clock := by
  rfl
@[simp] theorem State.pumpOn_mod (s : State) (c k : Nat) : (s.pumpOn c k).mod = s.mod := by
  rfl
@[simp] theorem State.pumpOn_budget (s : State) (c k : Nat) : (s.pumpOn c k).budget = s.budget := by
  rfl
@[simp] theorem State.pumpOn_plan (s : State) (c k : Nat) : (s.pumpOn c k).plan = s.plan := by
  rfl
@[simp] theorem State.pumpOn_fields (s : State) (c k : Nat) : (s.pumpOn c k).fields = s.fields := by
  rfl
@[simp] theorem State.pumpOn_cores (s : State) (c k : Nat) : (s.pumpOn c k).cores = s.cores := by
  rfl
@[simp] theorem State.pumpOn_stackSet (s : State) (c k : Nat) : (s.pumpOn c k).stackSet = s.stackSet := by
  rfl
@[simp] theorem State.pumpOn_parts (s : State) (c k : Nat) : (s.pumpOn c k).parts = s.parts := by
  rfl
@[simp] theorem State.pumpOn_editions (s : State) (c k : Nat) : (s.pumpOn c k).editions = s.editions := by
  rfl
@[simp] theorem State.pumpOn_reqs (s : State) (c k : Nat) : (s.pumpOn c k).reqs = s.reqs := by
  rfl
@[simp] theorem State.pumpOn_ledger (s : State) (c k : Nat) : (s.pumpOn c k).ledger = s.ledger := by
  rfl
@[simp] theorem State.pumpOn_fabric (s : State) (c k : Nat) : (s.pumpOn c k).fabric = s.fabric := by
  rfl
@[simp] theorem State.pumpOn_stop (s : State) (c k : Nat) : (s.pumpOn c k).stop = s.stop := by
  rfl
@[simp] theorem State.pumpOn_collector (s : State) (c k : Nat) : (s.pumpOn c k).collector = s.collector := by
  rfl
@[simp] theorem State.pumpOn_free (s : State) (c k : Nat) : (s.pumpOn c k).free = s.free := by
  rfl
@[simp] theorem State.pumpOn_pending (s : State) (c k : Nat) : (s.pumpOn c k).pending = s.pending := by
  rfl
@[simp] theorem State.sendOn_clock (s : State) (c : Nat) (p : OutPkt) : (s.sendOn c p).clock = s.clock := by
  rfl
@[simp] theorem State.sendOn_mod (s : State) (c : Nat) (p : OutPkt) : (s.sendOn c p).mod = s.mod := by
  rfl
@[simp] theorem State.sendOn_budget (s : State) (c : Nat) (p : OutPkt) : (s.sendOn c p).budget = s.budget := by
  rfl
@[simp] theorem State.sendOn_plan (s : State) (c : Nat) (p : OutPkt) : (s.sendOn c p).plan = s.plan := by
  rfl
@[simp] theorem State.sendOn_fields (s : State) (c : Nat) (p : OutPkt) : (s.sendOn c p).fields = s.fields := by
  rfl
@[simp] theorem State.sendOn_cores (s : State) (c : Nat) (p : OutPkt) : (s.sendOn c p).cores = s.cores := by
  rfl
@[simp] theorem State.sendOn_stackSet (s : State) (c : Nat) (p : OutPkt) : (s.sendOn c p).stackSet = s.stackSet := by
  rfl
@[simp] theorem State.sendOn_parts (s : State) (c : Nat) (p : OutPkt) : (s.sendOn c p).parts = s.parts := by
  rfl
@[simp] theorem State.sendOn_editions (s : State) (c : Nat) (p : OutPkt) : (s.sendOn c p).editions = s.editions := by
  rfl
@[simp] theorem State.sendOn_reqs (s : State) (c : Nat) (p : OutPkt) : (s.sendOn c p).reqs = s.reqs := by
  rfl
@[simp] theorem State.sendOn_ledger (s : State) (c : Nat) (p : OutPkt) : (s.sendOn c p).ledger = s.ledger := by
  rfl
@[simp] theorem State.sendOn_fabric (s : State) (c : Nat) (p : OutPkt) : (s.sendOn c p).fabric = s.fabric := by
  rfl
@[simp] theorem State.sendOn_stop (s : State) (c : Nat) (p : OutPkt) : (s.sendOn c p).stop = s.stop := by
  rfl
@[simp] theorem State.sendOn_collector (s : State) (c : Nat) (p : OutPkt) : (s.sendOn c p).collector = s.collector := by
  rfl
@[simp] theorem State.sendOn_free (s : State) (c : Nat) (p : OutPkt) : (s.sendOn c p).free = s.free := by
  rfl
@[simp] theorem State.sendOn_pending (s : State) (c : Nat) (p : OutPkt) : (s.sendOn c p).pending = s.pending := by
  rfl
@[simp] theorem State.sendRefusal_clock (s : State) (c : Nat) (p : OutPkt) : (s.sendRefusal c p).clock = s.clock := by
  unfold State.sendRefusal; split <;> rfl
@[simp] theorem State.sendRefusal_mod (s : State) (c : Nat) (p : OutPkt) : (s.sendRefusal c p).mod = s.mod := by
  unfold State.sendRefusal; split <;> rfl
@[simp] theorem State.sendRefusal_budget (s : State) (c : Nat) (p : OutPkt) : (s.sendRefusal c p).budget = s.budget := by
  unfold State.sendRefusal; split <;> rfl
@[simp] theorem State.sendRefusal_plan (s : State) (c : Nat) (p : OutPkt) : (s.sendRefusal c p).plan = s.plan := by
  unfold State.sendRefusal; split <;> rfl
@[simp] theorem State.sendRefusal_fields (s : State) (c : Nat) (p : OutPkt) : (s.sendRefusal c p).fields = s.fields := by
  unfold State.sendRefusal; split <;> rfl
@[simp] theorem State.sendRefusal_cores (s : State) (c : Nat) (p : OutPkt) : (s.sendRefusal c p).cores = s.cores := by
  unfold State.sendRefusal; split <;> rfl
@[simp] theorem State.sendRefusal_stackSet (s : State) (c : Nat) (p : OutPkt) : (s.sendRefusal c p).stackSet = s.stackSet := by
  unfold State.sendRefusal; split <;> rfl
@[simp] theorem State.sendRefusal_parts (s : State) (c : Nat) (p : OutPkt) : (s.sendRefusal c p).parts = s.parts := by
  unfold State.sendRefusal; split <;> rfl
@[simp] theorem State.sendRefusal_editions (s : State) (c : Nat) (p : OutPkt) : (s.sendRefusal c p).editions = s.editions := by
  unfold State.sendRefusal; split <;> rfl
@[simp] theorem State.sendRefusal_reqs (s : State) (c : Nat) (p : OutPkt) : (s.sendRefusal c p).reqs = s.reqs := by
  unfold State.sendRefusal; split <;> rfl
@[simp] theorem State.sendRefusal_ledger (s : State) (c : Nat) (p : OutPkt) : (s.sendRefusal c p).ledger = s.ledger := by
  unfold State.sendRefusal; split <;> rfl
@[simp] theorem State.sendRefusal_fabric (s : State) (c : Nat) (p : OutPkt) : (s.sendRefusal c p).fabric = s.fabric := by
  unfold State.sendRefusal; split <;> rfl
@[simp] theorem State.sendRefusal_stop (s : State) (c : Nat) (p : OutPkt) : (s.sendRefusal c p).stop = s.stop := by
  unfold State.sendRefusal; split <;> rfl
@[simp] theorem State.sendRefusal_collector (s : State) (c : Nat) (p : OutPkt) : (s.sendRefusal c p).collector = s.collector := by
  unfold State.sendRefusal; split <;> rfl
@[simp] theorem State.sendRefusal_free (s : State) (c : Nat) (p : OutPkt) : (s.sendRefusal c p).free = s.free := by
  unfold State.sendRefusal; split <;> rfl
@[simp] theorem State.sendRefusal_pending (s : State) (c : Nat) (p : OutPkt) : (s.sendRefusal c p).pending = s.pending := by
  unfold State.sendRefusal; split <;> rfl
@[simp] theorem State.answer_clock (s : State) (c : Nat) (tag : Word) (final : Bool) (st d : Nat) (req : Option Word) (body : List Byte) : (s.answer c tag final st d req body).clock = s.clock := by
  unfold State.answer; split
  · rfl
  · split
    · rfl
    · dsimp only; rw [State.sendOn_clock]; split <;> rfl
@[simp] theorem State.answer_mod (s : State) (c : Nat) (tag : Word) (final : Bool) (st d : Nat) (req : Option Word) (body : List Byte) : (s.answer c tag final st d req body).mod = s.mod := by
  unfold State.answer; split
  · rfl
  · split
    · rfl
    · dsimp only; rw [State.sendOn_mod]; split <;> rfl
@[simp] theorem State.answer_budget (s : State) (c : Nat) (tag : Word) (final : Bool) (st d : Nat) (req : Option Word) (body : List Byte) : (s.answer c tag final st d req body).budget = s.budget := by
  unfold State.answer; split
  · rfl
  · split
    · rfl
    · dsimp only; rw [State.sendOn_budget]; split <;> rfl
@[simp] theorem State.answer_plan (s : State) (c : Nat) (tag : Word) (final : Bool) (st d : Nat) (req : Option Word) (body : List Byte) : (s.answer c tag final st d req body).plan = s.plan := by
  unfold State.answer; split
  · rfl
  · split
    · rfl
    · dsimp only; rw [State.sendOn_plan]; split <;> rfl
@[simp] theorem State.answer_fields (s : State) (c : Nat) (tag : Word) (final : Bool) (st d : Nat) (req : Option Word) (body : List Byte) : (s.answer c tag final st d req body).fields = s.fields := by
  unfold State.answer; split
  · rfl
  · split
    · rfl
    · dsimp only; rw [State.sendOn_fields]; split <;> rfl
@[simp] theorem State.answer_cores (s : State) (c : Nat) (tag : Word) (final : Bool) (st d : Nat) (req : Option Word) (body : List Byte) : (s.answer c tag final st d req body).cores = s.cores := by
  unfold State.answer; split
  · rfl
  · split
    · rfl
    · dsimp only; rw [State.sendOn_cores]; split <;> rfl
@[simp] theorem State.answer_stackSet (s : State) (c : Nat) (tag : Word) (final : Bool) (st d : Nat) (req : Option Word) (body : List Byte) : (s.answer c tag final st d req body).stackSet = s.stackSet := by
  unfold State.answer; split
  · rfl
  · split
    · rfl
    · dsimp only; rw [State.sendOn_stackSet]; split <;> rfl
@[simp] theorem State.answer_parts (s : State) (c : Nat) (tag : Word) (final : Bool) (st d : Nat) (req : Option Word) (body : List Byte) : (s.answer c tag final st d req body).parts = s.parts := by
  unfold State.answer; split
  · rfl
  · split
    · rfl
    · dsimp only; rw [State.sendOn_parts]; split <;> rfl
@[simp] theorem State.answer_editions (s : State) (c : Nat) (tag : Word) (final : Bool) (st d : Nat) (req : Option Word) (body : List Byte) : (s.answer c tag final st d req body).editions = s.editions := by
  unfold State.answer; split
  · rfl
  · split
    · rfl
    · dsimp only; rw [State.sendOn_editions]; split <;> rfl
@[simp] theorem State.answer_reqs (s : State) (c : Nat) (tag : Word) (final : Bool) (st d : Nat) (req : Option Word) (body : List Byte) : (s.answer c tag final st d req body).reqs = s.reqs := by
  unfold State.answer; split
  · rfl
  · split
    · rfl
    · dsimp only; rw [State.sendOn_reqs]; split <;> rfl
@[simp] theorem State.answer_ledger (s : State) (c : Nat) (tag : Word) (final : Bool) (st d : Nat) (req : Option Word) (body : List Byte) : (s.answer c tag final st d req body).ledger = s.ledger := by
  unfold State.answer; split
  · rfl
  · split
    · rfl
    · dsimp only; rw [State.sendOn_ledger]; split <;> rfl
@[simp] theorem State.answer_fabric (s : State) (c : Nat) (tag : Word) (final : Bool) (st d : Nat) (req : Option Word) (body : List Byte) : (s.answer c tag final st d req body).fabric = s.fabric := by
  unfold State.answer; split
  · rfl
  · split
    · rfl
    · dsimp only; rw [State.sendOn_fabric]; split <;> rfl
@[simp] theorem State.answer_stop (s : State) (c : Nat) (tag : Word) (final : Bool) (st d : Nat) (req : Option Word) (body : List Byte) : (s.answer c tag final st d req body).stop = s.stop := by
  unfold State.answer; split
  · rfl
  · split
    · rfl
    · dsimp only; rw [State.sendOn_stop]; split <;> rfl
@[simp] theorem State.answer_collector (s : State) (c : Nat) (tag : Word) (final : Bool) (st d : Nat) (req : Option Word) (body : List Byte) : (s.answer c tag final st d req body).collector = s.collector := by
  unfold State.answer; split
  · rfl
  · split
    · rfl
    · dsimp only; rw [State.sendOn_collector]; split <;> rfl
@[simp] theorem State.answer_free (s : State) (c : Nat) (tag : Word) (final : Bool) (st d : Nat) (req : Option Word) (body : List Byte) : (s.answer c tag final st d req body).free = s.free := by
  unfold State.answer; split
  · rfl
  · split
    · rfl
    · dsimp only; rw [State.sendOn_free]; split <;> rfl
@[simp] theorem State.answer_pending (s : State) (c : Nat) (tag : Word) (final : Bool) (st d : Nat) (req : Option Word) (body : List Byte) : (s.answer c tag final st d req body).pending = s.pending := by
  unfold State.answer; split
  · rfl
  · split
    · rfl
    · dsimp only; rw [State.sendOn_pending]; split <;> rfl
@[simp] theorem State.finish_clock (s : State) (c : Nat) (tag : Word) (st d : Nat) (req : Option Word) (body : List Byte) :
    (s.finish c tag st d req body).clock = s.clock := State.answer_clock ..
@[simp] theorem State.ok_clock (s : State) (h : Hdr) (st d : Nat) (body : List Byte) : (s.ok h st d body).clock = s.clock :=
  State.answer_clock ..
@[simp] theorem State.interim_clock (s : State) (h : Hdr) (st d : Nat) (body : List Byte) : (s.interim h st d body).clock = s.clock :=
  State.answer_clock ..
@[simp] theorem State.reportOn_clock (s : State) (c op : Nat) (part : Option Nat) (tag : Word) (st cause d : Nat) (body : List Byte) :
    (s.reportOn c op part tag st cause d body).clock = s.clock := State.sendOn_clock ..
@[simp] theorem State.report_clock (s : State) (op : Nat) (part : Option Nat) (tag : Word) (st cause d : Nat) (body : List Byte) :
    (s.report op part tag st cause d body).clock = s.clock := by
  unfold State.report; split
  · exact State.reportOn_clock ..
  · rfl
@[simp] theorem State.event_clock (s : State) (code a : Nat) (part : Option Nat) (data : Nat) :
    (s.event code a part data).clock = s.clock := by
  unfold State.event; split
  · rfl
  · exact State.report_clock ..
@[simp] theorem State.owe_clock (s : State) (h : Hdr) (r : CmdRow) : (s.owe h r).clock = s.clock := State.countModule_clock ..
@[simp] theorem State.refuse_clock (s : State) (h : Hdr) (r : CmdRow) (st d : Nat) (body : List Byte) :
    (s.refuse h r st d body).clock = s.clock := by
  unfold State.refuse; dsimp only; rw [State.sendRefusal_clock]; (repeat' split) <;> simp
@[simp] theorem State.sendAssist_clock (s : State) (a : Assist) (tag : Word) (body : List Byte) :
    (s.sendAssist a tag body).clock = s.clock := by
  simp only [State.sendAssist, State.sendOn_clock, State.countModule_clock]
@[simp] theorem State.finish_mod (s : State) (c : Nat) (tag : Word) (st d : Nat) (req : Option Word) (body : List Byte) :
    (s.finish c tag st d req body).mod = s.mod := State.answer_mod ..
@[simp] theorem State.ok_mod (s : State) (h : Hdr) (st d : Nat) (body : List Byte) : (s.ok h st d body).mod = s.mod :=
  State.answer_mod ..
@[simp] theorem State.interim_mod (s : State) (h : Hdr) (st d : Nat) (body : List Byte) : (s.interim h st d body).mod = s.mod :=
  State.answer_mod ..
@[simp] theorem State.reportOn_mod (s : State) (c op : Nat) (part : Option Nat) (tag : Word) (st cause d : Nat) (body : List Byte) :
    (s.reportOn c op part tag st cause d body).mod = s.mod := State.sendOn_mod ..
@[simp] theorem State.report_mod (s : State) (op : Nat) (part : Option Nat) (tag : Word) (st cause d : Nat) (body : List Byte) :
    (s.report op part tag st cause d body).mod = s.mod := by
  unfold State.report; split
  · exact State.reportOn_mod ..
  · rfl
@[simp] theorem State.event_mod (s : State) (code a : Nat) (part : Option Nat) (data : Nat) :
    (s.event code a part data).mod = s.mod := by
  unfold State.event; split
  · rfl
  · exact State.report_mod ..
@[simp] theorem State.finish_budget (s : State) (c : Nat) (tag : Word) (st d : Nat) (req : Option Word) (body : List Byte) :
    (s.finish c tag st d req body).budget = s.budget := State.answer_budget ..
@[simp] theorem State.ok_budget (s : State) (h : Hdr) (st d : Nat) (body : List Byte) : (s.ok h st d body).budget = s.budget :=
  State.answer_budget ..
@[simp] theorem State.interim_budget (s : State) (h : Hdr) (st d : Nat) (body : List Byte) : (s.interim h st d body).budget = s.budget :=
  State.answer_budget ..
@[simp] theorem State.reportOn_budget (s : State) (c op : Nat) (part : Option Nat) (tag : Word) (st cause d : Nat) (body : List Byte) :
    (s.reportOn c op part tag st cause d body).budget = s.budget := State.sendOn_budget ..
@[simp] theorem State.report_budget (s : State) (op : Nat) (part : Option Nat) (tag : Word) (st cause d : Nat) (body : List Byte) :
    (s.report op part tag st cause d body).budget = s.budget := by
  unfold State.report; split
  · exact State.reportOn_budget ..
  · rfl
@[simp] theorem State.event_budget (s : State) (code a : Nat) (part : Option Nat) (data : Nat) :
    (s.event code a part data).budget = s.budget := by
  unfold State.event; split
  · rfl
  · exact State.report_budget ..
@[simp] theorem State.owe_budget (s : State) (h : Hdr) (r : CmdRow) : (s.owe h r).budget = s.budget := State.countModule_budget ..
@[simp] theorem State.refuse_budget (s : State) (h : Hdr) (r : CmdRow) (st d : Nat) (body : List Byte) :
    (s.refuse h r st d body).budget = s.budget := by
  unfold State.refuse; dsimp only; rw [State.sendRefusal_budget]; (repeat' split) <;> simp
@[simp] theorem State.sendAssist_budget (s : State) (a : Assist) (tag : Word) (body : List Byte) :
    (s.sendAssist a tag body).budget = s.budget := by
  simp only [State.sendAssist, State.sendOn_budget, State.countModule_budget]
@[simp] theorem State.finish_plan (s : State) (c : Nat) (tag : Word) (st d : Nat) (req : Option Word) (body : List Byte) :
    (s.finish c tag st d req body).plan = s.plan := State.answer_plan ..
@[simp] theorem State.ok_plan (s : State) (h : Hdr) (st d : Nat) (body : List Byte) : (s.ok h st d body).plan = s.plan :=
  State.answer_plan ..
@[simp] theorem State.interim_plan (s : State) (h : Hdr) (st d : Nat) (body : List Byte) : (s.interim h st d body).plan = s.plan :=
  State.answer_plan ..
@[simp] theorem State.reportOn_plan (s : State) (c op : Nat) (part : Option Nat) (tag : Word) (st cause d : Nat) (body : List Byte) :
    (s.reportOn c op part tag st cause d body).plan = s.plan := State.sendOn_plan ..
@[simp] theorem State.report_plan (s : State) (op : Nat) (part : Option Nat) (tag : Word) (st cause d : Nat) (body : List Byte) :
    (s.report op part tag st cause d body).plan = s.plan := by
  unfold State.report; split
  · exact State.reportOn_plan ..
  · rfl
@[simp] theorem State.event_plan (s : State) (code a : Nat) (part : Option Nat) (data : Nat) :
    (s.event code a part data).plan = s.plan := by
  unfold State.event; split
  · rfl
  · exact State.report_plan ..
@[simp] theorem State.owe_plan (s : State) (h : Hdr) (r : CmdRow) : (s.owe h r).plan = s.plan := State.countModule_plan ..
@[simp] theorem State.refuse_plan (s : State) (h : Hdr) (r : CmdRow) (st d : Nat) (body : List Byte) :
    (s.refuse h r st d body).plan = s.plan := by
  unfold State.refuse; dsimp only; rw [State.sendRefusal_plan]; (repeat' split) <;> simp
@[simp] theorem State.sendAssist_plan (s : State) (a : Assist) (tag : Word) (body : List Byte) :
    (s.sendAssist a tag body).plan = s.plan := by
  simp only [State.sendAssist, State.sendOn_plan, State.countModule_plan]
@[simp] theorem State.finish_fields (s : State) (c : Nat) (tag : Word) (st d : Nat) (req : Option Word) (body : List Byte) :
    (s.finish c tag st d req body).fields = s.fields := State.answer_fields ..
@[simp] theorem State.ok_fields (s : State) (h : Hdr) (st d : Nat) (body : List Byte) : (s.ok h st d body).fields = s.fields :=
  State.answer_fields ..
@[simp] theorem State.interim_fields (s : State) (h : Hdr) (st d : Nat) (body : List Byte) : (s.interim h st d body).fields = s.fields :=
  State.answer_fields ..
@[simp] theorem State.reportOn_fields (s : State) (c op : Nat) (part : Option Nat) (tag : Word) (st cause d : Nat) (body : List Byte) :
    (s.reportOn c op part tag st cause d body).fields = s.fields := State.sendOn_fields ..
@[simp] theorem State.report_fields (s : State) (op : Nat) (part : Option Nat) (tag : Word) (st cause d : Nat) (body : List Byte) :
    (s.report op part tag st cause d body).fields = s.fields := by
  unfold State.report; split
  · exact State.reportOn_fields ..
  · rfl
@[simp] theorem State.event_fields (s : State) (code a : Nat) (part : Option Nat) (data : Nat) :
    (s.event code a part data).fields = s.fields := by
  unfold State.event; split
  · rfl
  · exact State.report_fields ..
@[simp] theorem State.owe_fields (s : State) (h : Hdr) (r : CmdRow) : (s.owe h r).fields = s.fields := State.countModule_fields ..
@[simp] theorem State.refuse_fields (s : State) (h : Hdr) (r : CmdRow) (st d : Nat) (body : List Byte) :
    (s.refuse h r st d body).fields = s.fields := by
  unfold State.refuse; dsimp only; rw [State.sendRefusal_fields]; (repeat' split) <;> simp
@[simp] theorem State.sendAssist_fields (s : State) (a : Assist) (tag : Word) (body : List Byte) :
    (s.sendAssist a tag body).fields = s.fields := by
  simp only [State.sendAssist, State.sendOn_fields, State.countModule_fields]
@[simp] theorem State.finish_cores (s : State) (c : Nat) (tag : Word) (st d : Nat) (req : Option Word) (body : List Byte) :
    (s.finish c tag st d req body).cores = s.cores := State.answer_cores ..
@[simp] theorem State.ok_cores (s : State) (h : Hdr) (st d : Nat) (body : List Byte) : (s.ok h st d body).cores = s.cores :=
  State.answer_cores ..
@[simp] theorem State.interim_cores (s : State) (h : Hdr) (st d : Nat) (body : List Byte) : (s.interim h st d body).cores = s.cores :=
  State.answer_cores ..
@[simp] theorem State.reportOn_cores (s : State) (c op : Nat) (part : Option Nat) (tag : Word) (st cause d : Nat) (body : List Byte) :
    (s.reportOn c op part tag st cause d body).cores = s.cores := State.sendOn_cores ..
@[simp] theorem State.report_cores (s : State) (op : Nat) (part : Option Nat) (tag : Word) (st cause d : Nat) (body : List Byte) :
    (s.report op part tag st cause d body).cores = s.cores := by
  unfold State.report; split
  · exact State.reportOn_cores ..
  · rfl
@[simp] theorem State.event_cores (s : State) (code a : Nat) (part : Option Nat) (data : Nat) :
    (s.event code a part data).cores = s.cores := by
  unfold State.event; split
  · rfl
  · exact State.report_cores ..
@[simp] theorem State.owe_cores (s : State) (h : Hdr) (r : CmdRow) : (s.owe h r).cores = s.cores := State.countModule_cores ..
@[simp] theorem State.refuse_cores (s : State) (h : Hdr) (r : CmdRow) (st d : Nat) (body : List Byte) :
    (s.refuse h r st d body).cores = s.cores := by
  unfold State.refuse; dsimp only; rw [State.sendRefusal_cores]; (repeat' split) <;> simp
@[simp] theorem State.sendAssist_cores (s : State) (a : Assist) (tag : Word) (body : List Byte) :
    (s.sendAssist a tag body).cores = s.cores := by
  simp only [State.sendAssist, State.sendOn_cores, State.countModule_cores]
@[simp] theorem State.finish_stackSet (s : State) (c : Nat) (tag : Word) (st d : Nat) (req : Option Word) (body : List Byte) :
    (s.finish c tag st d req body).stackSet = s.stackSet := State.answer_stackSet ..
@[simp] theorem State.ok_stackSet (s : State) (h : Hdr) (st d : Nat) (body : List Byte) : (s.ok h st d body).stackSet = s.stackSet :=
  State.answer_stackSet ..
@[simp] theorem State.interim_stackSet (s : State) (h : Hdr) (st d : Nat) (body : List Byte) : (s.interim h st d body).stackSet = s.stackSet :=
  State.answer_stackSet ..
@[simp] theorem State.reportOn_stackSet (s : State) (c op : Nat) (part : Option Nat) (tag : Word) (st cause d : Nat) (body : List Byte) :
    (s.reportOn c op part tag st cause d body).stackSet = s.stackSet := State.sendOn_stackSet ..
@[simp] theorem State.report_stackSet (s : State) (op : Nat) (part : Option Nat) (tag : Word) (st cause d : Nat) (body : List Byte) :
    (s.report op part tag st cause d body).stackSet = s.stackSet := by
  unfold State.report; split
  · exact State.reportOn_stackSet ..
  · rfl
@[simp] theorem State.event_stackSet (s : State) (code a : Nat) (part : Option Nat) (data : Nat) :
    (s.event code a part data).stackSet = s.stackSet := by
  unfold State.event; split
  · rfl
  · exact State.report_stackSet ..
@[simp] theorem State.owe_stackSet (s : State) (h : Hdr) (r : CmdRow) : (s.owe h r).stackSet = s.stackSet := State.countModule_stackSet ..
@[simp] theorem State.refuse_stackSet (s : State) (h : Hdr) (r : CmdRow) (st d : Nat) (body : List Byte) :
    (s.refuse h r st d body).stackSet = s.stackSet := by
  unfold State.refuse; dsimp only; rw [State.sendRefusal_stackSet]; (repeat' split) <;> simp
@[simp] theorem State.sendAssist_stackSet (s : State) (a : Assist) (tag : Word) (body : List Byte) :
    (s.sendAssist a tag body).stackSet = s.stackSet := by
  simp only [State.sendAssist, State.sendOn_stackSet, State.countModule_stackSet]
@[simp] theorem State.finish_parts (s : State) (c : Nat) (tag : Word) (st d : Nat) (req : Option Word) (body : List Byte) :
    (s.finish c tag st d req body).parts = s.parts := State.answer_parts ..
@[simp] theorem State.ok_parts (s : State) (h : Hdr) (st d : Nat) (body : List Byte) : (s.ok h st d body).parts = s.parts :=
  State.answer_parts ..
@[simp] theorem State.interim_parts (s : State) (h : Hdr) (st d : Nat) (body : List Byte) : (s.interim h st d body).parts = s.parts :=
  State.answer_parts ..
@[simp] theorem State.reportOn_parts (s : State) (c op : Nat) (part : Option Nat) (tag : Word) (st cause d : Nat) (body : List Byte) :
    (s.reportOn c op part tag st cause d body).parts = s.parts := State.sendOn_parts ..
@[simp] theorem State.report_parts (s : State) (op : Nat) (part : Option Nat) (tag : Word) (st cause d : Nat) (body : List Byte) :
    (s.report op part tag st cause d body).parts = s.parts := by
  unfold State.report; split
  · exact State.reportOn_parts ..
  · rfl
@[simp] theorem State.event_parts (s : State) (code a : Nat) (part : Option Nat) (data : Nat) :
    (s.event code a part data).parts = s.parts := by
  unfold State.event; split
  · rfl
  · exact State.report_parts ..
@[simp] theorem State.owe_parts (s : State) (h : Hdr) (r : CmdRow) : (s.owe h r).parts = s.parts := State.countModule_parts ..
@[simp] theorem State.sendAssist_parts (s : State) (a : Assist) (tag : Word) (body : List Byte) :
    (s.sendAssist a tag body).parts = s.parts := by
  simp only [State.sendAssist, State.sendOn_parts, State.countModule_parts]
@[simp] theorem State.finish_editions (s : State) (c : Nat) (tag : Word) (st d : Nat) (req : Option Word) (body : List Byte) :
    (s.finish c tag st d req body).editions = s.editions := State.answer_editions ..
@[simp] theorem State.ok_editions (s : State) (h : Hdr) (st d : Nat) (body : List Byte) : (s.ok h st d body).editions = s.editions :=
  State.answer_editions ..
@[simp] theorem State.interim_editions (s : State) (h : Hdr) (st d : Nat) (body : List Byte) : (s.interim h st d body).editions = s.editions :=
  State.answer_editions ..
@[simp] theorem State.reportOn_editions (s : State) (c op : Nat) (part : Option Nat) (tag : Word) (st cause d : Nat) (body : List Byte) :
    (s.reportOn c op part tag st cause d body).editions = s.editions := State.sendOn_editions ..
@[simp] theorem State.report_editions (s : State) (op : Nat) (part : Option Nat) (tag : Word) (st cause d : Nat) (body : List Byte) :
    (s.report op part tag st cause d body).editions = s.editions := by
  unfold State.report; split
  · exact State.reportOn_editions ..
  · rfl
@[simp] theorem State.event_editions (s : State) (code a : Nat) (part : Option Nat) (data : Nat) :
    (s.event code a part data).editions = s.editions := by
  unfold State.event; split
  · rfl
  · exact State.report_editions ..
@[simp] theorem State.owe_editions (s : State) (h : Hdr) (r : CmdRow) : (s.owe h r).editions = s.editions := State.countModule_editions ..
@[simp] theorem State.refuse_editions (s : State) (h : Hdr) (r : CmdRow) (st d : Nat) (body : List Byte) :
    (s.refuse h r st d body).editions = s.editions := by
  unfold State.refuse; dsimp only; rw [State.sendRefusal_editions]; (repeat' split) <;> simp
@[simp] theorem State.sendAssist_editions (s : State) (a : Assist) (tag : Word) (body : List Byte) :
    (s.sendAssist a tag body).editions = s.editions := by
  simp only [State.sendAssist, State.sendOn_editions, State.countModule_editions]
@[simp] theorem State.finish_reqs (s : State) (c : Nat) (tag : Word) (st d : Nat) (req : Option Word) (body : List Byte) :
    (s.finish c tag st d req body).reqs = s.reqs := State.answer_reqs ..
@[simp] theorem State.ok_reqs (s : State) (h : Hdr) (st d : Nat) (body : List Byte) : (s.ok h st d body).reqs = s.reqs :=
  State.answer_reqs ..
@[simp] theorem State.interim_reqs (s : State) (h : Hdr) (st d : Nat) (body : List Byte) : (s.interim h st d body).reqs = s.reqs :=
  State.answer_reqs ..
@[simp] theorem State.reportOn_reqs (s : State) (c op : Nat) (part : Option Nat) (tag : Word) (st cause d : Nat) (body : List Byte) :
    (s.reportOn c op part tag st cause d body).reqs = s.reqs := State.sendOn_reqs ..
@[simp] theorem State.report_reqs (s : State) (op : Nat) (part : Option Nat) (tag : Word) (st cause d : Nat) (body : List Byte) :
    (s.report op part tag st cause d body).reqs = s.reqs := by
  unfold State.report; split
  · exact State.reportOn_reqs ..
  · rfl
@[simp] theorem State.event_reqs (s : State) (code a : Nat) (part : Option Nat) (data : Nat) :
    (s.event code a part data).reqs = s.reqs := by
  unfold State.event; split
  · rfl
  · exact State.report_reqs ..
@[simp] theorem State.owe_reqs (s : State) (h : Hdr) (r : CmdRow) : (s.owe h r).reqs = s.reqs := State.countModule_reqs ..
@[simp] theorem State.refuse_reqs (s : State) (h : Hdr) (r : CmdRow) (st d : Nat) (body : List Byte) :
    (s.refuse h r st d body).reqs = s.reqs := by
  unfold State.refuse; dsimp only; rw [State.sendRefusal_reqs]; (repeat' split) <;> simp
@[simp] theorem State.sendAssist_reqs (s : State) (a : Assist) (tag : Word) (body : List Byte) :
    (s.sendAssist a tag body).reqs = s.reqs := by
  simp only [State.sendAssist, State.sendOn_reqs, State.countModule_reqs]
@[simp] theorem State.finish_ledger (s : State) (c : Nat) (tag : Word) (st d : Nat) (req : Option Word) (body : List Byte) :
    (s.finish c tag st d req body).ledger = s.ledger := State.answer_ledger ..
@[simp] theorem State.ok_ledger (s : State) (h : Hdr) (st d : Nat) (body : List Byte) : (s.ok h st d body).ledger = s.ledger :=
  State.answer_ledger ..
@[simp] theorem State.interim_ledger (s : State) (h : Hdr) (st d : Nat) (body : List Byte) : (s.interim h st d body).ledger = s.ledger :=
  State.answer_ledger ..
@[simp] theorem State.reportOn_ledger (s : State) (c op : Nat) (part : Option Nat) (tag : Word) (st cause d : Nat) (body : List Byte) :
    (s.reportOn c op part tag st cause d body).ledger = s.ledger := State.sendOn_ledger ..
@[simp] theorem State.report_ledger (s : State) (op : Nat) (part : Option Nat) (tag : Word) (st cause d : Nat) (body : List Byte) :
    (s.report op part tag st cause d body).ledger = s.ledger := by
  unfold State.report; split
  · exact State.reportOn_ledger ..
  · rfl
@[simp] theorem State.event_ledger (s : State) (code a : Nat) (part : Option Nat) (data : Nat) :
    (s.event code a part data).ledger = s.ledger := by
  unfold State.event; split
  · rfl
  · exact State.report_ledger ..
@[simp] theorem State.owe_ledger (s : State) (h : Hdr) (r : CmdRow) : (s.owe h r).ledger = s.ledger := State.countModule_ledger ..
@[simp] theorem State.refuse_ledger (s : State) (h : Hdr) (r : CmdRow) (st d : Nat) (body : List Byte) :
    (s.refuse h r st d body).ledger = s.ledger := by
  unfold State.refuse; dsimp only; rw [State.sendRefusal_ledger]; (repeat' split) <;> simp
@[simp] theorem State.sendAssist_ledger (s : State) (a : Assist) (tag : Word) (body : List Byte) :
    (s.sendAssist a tag body).ledger = s.ledger := by
  simp only [State.sendAssist, State.sendOn_ledger, State.countModule_ledger]
@[simp] theorem State.finish_fabric (s : State) (c : Nat) (tag : Word) (st d : Nat) (req : Option Word) (body : List Byte) :
    (s.finish c tag st d req body).fabric = s.fabric := State.answer_fabric ..
@[simp] theorem State.ok_fabric (s : State) (h : Hdr) (st d : Nat) (body : List Byte) : (s.ok h st d body).fabric = s.fabric :=
  State.answer_fabric ..
@[simp] theorem State.interim_fabric (s : State) (h : Hdr) (st d : Nat) (body : List Byte) : (s.interim h st d body).fabric = s.fabric :=
  State.answer_fabric ..
@[simp] theorem State.reportOn_fabric (s : State) (c op : Nat) (part : Option Nat) (tag : Word) (st cause d : Nat) (body : List Byte) :
    (s.reportOn c op part tag st cause d body).fabric = s.fabric := State.sendOn_fabric ..
@[simp] theorem State.report_fabric (s : State) (op : Nat) (part : Option Nat) (tag : Word) (st cause d : Nat) (body : List Byte) :
    (s.report op part tag st cause d body).fabric = s.fabric := by
  unfold State.report; split
  · exact State.reportOn_fabric ..
  · rfl
@[simp] theorem State.event_fabric (s : State) (code a : Nat) (part : Option Nat) (data : Nat) :
    (s.event code a part data).fabric = s.fabric := by
  unfold State.event; split
  · rfl
  · exact State.report_fabric ..
@[simp] theorem State.owe_fabric (s : State) (h : Hdr) (r : CmdRow) : (s.owe h r).fabric = s.fabric := State.countModule_fabric ..
@[simp] theorem State.refuse_fabric (s : State) (h : Hdr) (r : CmdRow) (st d : Nat) (body : List Byte) :
    (s.refuse h r st d body).fabric = s.fabric := by
  unfold State.refuse; dsimp only; rw [State.sendRefusal_fabric]; (repeat' split) <;> simp
@[simp] theorem State.sendAssist_fabric (s : State) (a : Assist) (tag : Word) (body : List Byte) :
    (s.sendAssist a tag body).fabric = s.fabric := by
  simp only [State.sendAssist, State.sendOn_fabric, State.countModule_fabric]
@[simp] theorem State.finish_stop (s : State) (c : Nat) (tag : Word) (st d : Nat) (req : Option Word) (body : List Byte) :
    (s.finish c tag st d req body).stop = s.stop := State.answer_stop ..
@[simp] theorem State.ok_stop (s : State) (h : Hdr) (st d : Nat) (body : List Byte) : (s.ok h st d body).stop = s.stop :=
  State.answer_stop ..
@[simp] theorem State.interim_stop (s : State) (h : Hdr) (st d : Nat) (body : List Byte) : (s.interim h st d body).stop = s.stop :=
  State.answer_stop ..
@[simp] theorem State.reportOn_stop (s : State) (c op : Nat) (part : Option Nat) (tag : Word) (st cause d : Nat) (body : List Byte) :
    (s.reportOn c op part tag st cause d body).stop = s.stop := State.sendOn_stop ..
@[simp] theorem State.report_stop (s : State) (op : Nat) (part : Option Nat) (tag : Word) (st cause d : Nat) (body : List Byte) :
    (s.report op part tag st cause d body).stop = s.stop := by
  unfold State.report; split
  · exact State.reportOn_stop ..
  · rfl
@[simp] theorem State.event_stop (s : State) (code a : Nat) (part : Option Nat) (data : Nat) :
    (s.event code a part data).stop = s.stop := by
  unfold State.event; split
  · rfl
  · exact State.report_stop ..
@[simp] theorem State.owe_stop (s : State) (h : Hdr) (r : CmdRow) : (s.owe h r).stop = s.stop := State.countModule_stop ..
@[simp] theorem State.refuse_stop (s : State) (h : Hdr) (r : CmdRow) (st d : Nat) (body : List Byte) :
    (s.refuse h r st d body).stop = s.stop := by
  unfold State.refuse; dsimp only; rw [State.sendRefusal_stop]; (repeat' split) <;> simp
@[simp] theorem State.sendAssist_stop (s : State) (a : Assist) (tag : Word) (body : List Byte) :
    (s.sendAssist a tag body).stop = s.stop := by
  simp only [State.sendAssist, State.sendOn_stop, State.countModule_stop]
@[simp] theorem State.finish_collector (s : State) (c : Nat) (tag : Word) (st d : Nat) (req : Option Word) (body : List Byte) :
    (s.finish c tag st d req body).collector = s.collector := State.answer_collector ..
@[simp] theorem State.ok_collector (s : State) (h : Hdr) (st d : Nat) (body : List Byte) : (s.ok h st d body).collector = s.collector :=
  State.answer_collector ..
@[simp] theorem State.interim_collector (s : State) (h : Hdr) (st d : Nat) (body : List Byte) : (s.interim h st d body).collector = s.collector :=
  State.answer_collector ..
@[simp] theorem State.reportOn_collector (s : State) (c op : Nat) (part : Option Nat) (tag : Word) (st cause d : Nat) (body : List Byte) :
    (s.reportOn c op part tag st cause d body).collector = s.collector := State.sendOn_collector ..
@[simp] theorem State.report_collector (s : State) (op : Nat) (part : Option Nat) (tag : Word) (st cause d : Nat) (body : List Byte) :
    (s.report op part tag st cause d body).collector = s.collector := by
  unfold State.report; split
  · exact State.reportOn_collector ..
  · rfl
@[simp] theorem State.event_collector (s : State) (code a : Nat) (part : Option Nat) (data : Nat) :
    (s.event code a part data).collector = s.collector := by
  unfold State.event; split
  · rfl
  · exact State.report_collector ..
@[simp] theorem State.owe_collector (s : State) (h : Hdr) (r : CmdRow) : (s.owe h r).collector = s.collector := State.countModule_collector ..
@[simp] theorem State.refuse_collector (s : State) (h : Hdr) (r : CmdRow) (st d : Nat) (body : List Byte) :
    (s.refuse h r st d body).collector = s.collector := by
  unfold State.refuse; dsimp only; rw [State.sendRefusal_collector]; (repeat' split) <;> simp
@[simp] theorem State.sendAssist_collector (s : State) (a : Assist) (tag : Word) (body : List Byte) :
    (s.sendAssist a tag body).collector = s.collector := by
  simp only [State.sendAssist, State.sendOn_collector, State.countModule_collector]
@[simp] theorem State.finish_free (s : State) (c : Nat) (tag : Word) (st d : Nat) (req : Option Word) (body : List Byte) :
    (s.finish c tag st d req body).free = s.free := State.answer_free ..
@[simp] theorem State.ok_free (s : State) (h : Hdr) (st d : Nat) (body : List Byte) : (s.ok h st d body).free = s.free :=
  State.answer_free ..
@[simp] theorem State.interim_free (s : State) (h : Hdr) (st d : Nat) (body : List Byte) : (s.interim h st d body).free = s.free :=
  State.answer_free ..
@[simp] theorem State.reportOn_free (s : State) (c op : Nat) (part : Option Nat) (tag : Word) (st cause d : Nat) (body : List Byte) :
    (s.reportOn c op part tag st cause d body).free = s.free := State.sendOn_free ..
@[simp] theorem State.report_free (s : State) (op : Nat) (part : Option Nat) (tag : Word) (st cause d : Nat) (body : List Byte) :
    (s.report op part tag st cause d body).free = s.free := by
  unfold State.report; split
  · exact State.reportOn_free ..
  · rfl
@[simp] theorem State.event_free (s : State) (code a : Nat) (part : Option Nat) (data : Nat) :
    (s.event code a part data).free = s.free := by
  unfold State.event; split
  · rfl
  · exact State.report_free ..
@[simp] theorem State.owe_free (s : State) (h : Hdr) (r : CmdRow) : (s.owe h r).free = s.free := State.countModule_free ..
@[simp] theorem State.refuse_free (s : State) (h : Hdr) (r : CmdRow) (st d : Nat) (body : List Byte) :
    (s.refuse h r st d body).free = s.free := by
  unfold State.refuse; dsimp only; rw [State.sendRefusal_free]; (repeat' split) <;> simp
@[simp] theorem State.sendAssist_free (s : State) (a : Assist) (tag : Word) (body : List Byte) :
    (s.sendAssist a tag body).free = s.free := by
  simp only [State.sendAssist, State.sendOn_free, State.countModule_free]
@[simp] theorem State.finish_pending (s : State) (c : Nat) (tag : Word) (st d : Nat) (req : Option Word) (body : List Byte) :
    (s.finish c tag st d req body).pending = s.pending := State.answer_pending ..
@[simp] theorem State.ok_pending (s : State) (h : Hdr) (st d : Nat) (body : List Byte) : (s.ok h st d body).pending = s.pending :=
  State.answer_pending ..
@[simp] theorem State.interim_pending (s : State) (h : Hdr) (st d : Nat) (body : List Byte) : (s.interim h st d body).pending = s.pending :=
  State.answer_pending ..
@[simp] theorem State.reportOn_pending (s : State) (c op : Nat) (part : Option Nat) (tag : Word) (st cause d : Nat) (body : List Byte) :
    (s.reportOn c op part tag st cause d body).pending = s.pending := State.sendOn_pending ..
@[simp] theorem State.report_pending (s : State) (op : Nat) (part : Option Nat) (tag : Word) (st cause d : Nat) (body : List Byte) :
    (s.report op part tag st cause d body).pending = s.pending := by
  unfold State.report; split
  · exact State.reportOn_pending ..
  · rfl
@[simp] theorem State.event_pending (s : State) (code a : Nat) (part : Option Nat) (data : Nat) :
    (s.event code a part data).pending = s.pending := by
  unfold State.event; split
  · rfl
  · exact State.report_pending ..
@[simp] theorem State.owe_pending (s : State) (h : Hdr) (r : CmdRow) : (s.owe h r).pending = s.pending := State.countModule_pending ..
@[simp] theorem State.refuse_pending (s : State) (h : Hdr) (r : CmdRow) (st d : Nat) (body : List Byte) :
    (s.refuse h r st d body).pending = s.pending := by
  unfold State.refuse; dsimp only; rw [State.sendRefusal_pending]; (repeat' split) <;> simp
@[simp] theorem State.sendAssist_pending (s : State) (a : Assist) (tag : Word) (body : List Byte) :
    (s.sendAssist a tag body).pending = s.pending := by
  simp only [State.sendAssist, State.sendOn_pending, State.countModule_pending]
@[simp] theorem State.countModule_mod_state (s : State) (k n : Nat) : (s.countModule k n).mod.state = s.mod.state := by
  unfold State.countModule; split <;> rfl
@[simp] theorem State.owe_mod_state (s : State) (h : Hdr) (r : CmdRow) : (s.owe h r).mod.state = s.mod.state := State.countModule_mod_state ..
@[simp] theorem State.fault_mod_state (s : State) (r : FaultRec) : (s.fault r).mod.state = s.mod.state := by rw [State.fault_mod]
@[simp] theorem State.countModule_mod_phase (s : State) (k n : Nat) : (s.countModule k n).mod.phase = s.mod.phase := by
  unfold State.countModule; split <;> rfl
@[simp] theorem State.owe_mod_phase (s : State) (h : Hdr) (r : CmdRow) : (s.owe h r).mod.phase = s.mod.phase := State.countModule_mod_phase ..
@[simp] theorem State.fault_mod_phase (s : State) (r : FaultRec) : (s.fault r).mod.phase = s.mod.phase := by rw [State.fault_mod]
@[simp] theorem State.countModule_mod_failure (s : State) (k n : Nat) : (s.countModule k n).mod.failure = s.mod.failure := by
  unfold State.countModule; split <;> rfl
@[simp] theorem State.owe_mod_failure (s : State) (h : Hdr) (r : CmdRow) : (s.owe h r).mod.failure = s.mod.failure := State.countModule_mod_failure ..
@[simp] theorem State.fault_mod_failure (s : State) (r : FaultRec) : (s.fault r).mod.failure = s.mod.failure := by rw [State.fault_mod]
@[simp] theorem State.countModule_mod_skipFill (s : State) (k n : Nat) : (s.countModule k n).mod.skipFill = s.mod.skipFill := by
  unfold State.countModule; split <;> rfl
@[simp] theorem State.owe_mod_skipFill (s : State) (h : Hdr) (r : CmdRow) : (s.owe h r).mod.skipFill = s.mod.skipFill := State.countModule_mod_skipFill ..
@[simp] theorem State.fault_mod_skipFill (s : State) (r : FaultRec) : (s.fault r).mod.skipFill = s.mod.skipFill := by rw [State.fault_mod]
@[simp] theorem State.countModule_mod_fast (s : State) (k n : Nat) : (s.countModule k n).mod.fast = s.mod.fast := by
  unfold State.countModule; split <;> rfl
@[simp] theorem State.owe_mod_fast (s : State) (h : Hdr) (r : CmdRow) : (s.owe h r).mod.fast = s.mod.fast := State.countModule_mod_fast ..
@[simp] theorem State.fault_mod_fast (s : State) (r : FaultRec) : (s.fault r).mod.fast = s.mod.fast := by rw [State.fault_mod]
@[simp] theorem State.countModule_mod_pwrGood (s : State) (k n : Nat) : (s.countModule k n).mod.pwrGood = s.mod.pwrGood := by
  unfold State.countModule; split <;> rfl
@[simp] theorem State.owe_mod_pwrGood (s : State) (h : Hdr) (r : CmdRow) : (s.owe h r).mod.pwrGood = s.mod.pwrGood := State.countModule_mod_pwrGood ..
@[simp] theorem State.fault_mod_pwrGood (s : State) (r : FaultRec) : (s.fault r).mod.pwrGood = s.mod.pwrGood := by rw [State.fault_mod]
@[simp] theorem State.countModule_mod_feedOk (s : State) (k n : Nat) : (s.countModule k n).mod.feedOk = s.mod.feedOk := by
  unfold State.countModule; split <;> rfl
@[simp] theorem State.owe_mod_feedOk (s : State) (h : Hdr) (r : CmdRow) : (s.owe h r).mod.feedOk = s.mod.feedOk := State.countModule_mod_feedOk ..
@[simp] theorem State.fault_mod_feedOk (s : State) (r : FaultRec) : (s.fault r).mod.feedOk = s.mod.feedOk := by rw [State.fault_mod]
@[simp] theorem State.countModule_mod_powerFail (s : State) (k n : Nat) : (s.countModule k n).mod.powerFail = s.mod.powerFail := by
  unfold State.countModule; split <;> rfl
@[simp] theorem State.owe_mod_powerFail (s : State) (h : Hdr) (r : CmdRow) : (s.owe h r).mod.powerFail = s.mod.powerFail := State.countModule_mod_powerFail ..
@[simp] theorem State.fault_mod_powerFail (s : State) (r : FaultRec) : (s.fault r).mod.powerFail = s.mod.powerFail := by rw [State.fault_mod]
@[simp] theorem State.countModule_mod_deferred (s : State) (k n : Nat) : (s.countModule k n).mod.deferred = s.mod.deferred := by
  unfold State.countModule; split <;> rfl
@[simp] theorem State.owe_mod_deferred (s : State) (h : Hdr) (r : CmdRow) : (s.owe h r).mod.deferred = s.mod.deferred := State.countModule_mod_deferred ..
@[simp] theorem State.fault_mod_deferred (s : State) (r : FaultRec) : (s.fault r).mod.deferred = s.mod.deferred := by rw [State.fault_mod]
@[simp] theorem State.countModule_mod_tests (s : State) (k n : Nat) : (s.countModule k n).mod.tests = s.mod.tests := by
  unfold State.countModule; split <;> rfl
@[simp] theorem State.owe_mod_tests (s : State) (h : Hdr) (r : CmdRow) : (s.owe h r).mod.tests = s.mod.tests := State.countModule_mod_tests ..
@[simp] theorem State.fault_mod_tests (s : State) (r : FaultRec) : (s.fault r).mod.tests = s.mod.tests := by rw [State.fault_mod]
@[simp] theorem State.countModule_mod_serviceSet (s : State) (k n : Nat) : (s.countModule k n).mod.serviceSet = s.mod.serviceSet := by
  unfold State.countModule; split <;> rfl
@[simp] theorem State.owe_mod_serviceSet (s : State) (h : Hdr) (r : CmdRow) : (s.owe h r).mod.serviceSet = s.mod.serviceSet := State.countModule_mod_serviceSet ..
@[simp] theorem State.fault_mod_serviceSet (s : State) (r : FaultRec) : (s.fault r).mod.serviceSet = s.mod.serviceSet := by rw [State.fault_mod]
@[simp] theorem State.countModule_mod_coreMap (s : State) (k n : Nat) : (s.countModule k n).mod.coreMap = s.mod.coreMap := by
  unfold State.countModule; split <;> rfl
@[simp] theorem State.owe_mod_coreMap (s : State) (h : Hdr) (r : CmdRow) : (s.owe h r).mod.coreMap = s.mod.coreMap := State.countModule_mod_coreMap ..
@[simp] theorem State.fault_mod_coreMap (s : State) (r : FaultRec) : (s.fault r).mod.coreMap = s.mod.coreMap := by rw [State.fault_mod]
@[simp] theorem State.countModule_mod_signal (s : State) (k n : Nat) : (s.countModule k n).mod.signal = s.mod.signal := by
  unfold State.countModule; split <;> rfl
@[simp] theorem State.owe_mod_signal (s : State) (h : Hdr) (r : CmdRow) : (s.owe h r).mod.signal = s.mod.signal := State.countModule_mod_signal ..
@[simp] theorem State.fault_mod_signal (s : State) (r : FaultRec) : (s.fault r).mod.signal = s.mod.signal := by rw [State.fault_mod]
@[simp] theorem State.countModule_mod_sampler (s : State) (k n : Nat) : (s.countModule k n).mod.sampler = s.mod.sampler := by
  unfold State.countModule; split <;> rfl
@[simp] theorem State.owe_mod_sampler (s : State) (h : Hdr) (r : CmdRow) : (s.owe h r).mod.sampler = s.mod.sampler := State.countModule_mod_sampler ..
@[simp] theorem State.fault_mod_sampler (s : State) (r : FaultRec) : (s.fault r).mod.sampler = s.mod.sampler := by rw [State.fault_mod]
@[simp] theorem State.countModule_mod_faults (s : State) (k n : Nat) : (s.countModule k n).mod.faults = s.mod.faults := by
  unfold State.countModule; split <;> rfl
@[simp] theorem State.owe_mod_faults (s : State) (h : Hdr) (r : CmdRow) : (s.owe h r).mod.faults = s.mod.faults := State.countModule_mod_faults ..
@[simp] theorem State.countModule_mod_faultSeq (s : State) (k n : Nat) : (s.countModule k n).mod.faultSeq = s.mod.faultSeq := by
  unfold State.countModule; split <;> rfl
@[simp] theorem State.owe_mod_faultSeq (s : State) (h : Hdr) (r : CmdRow) : (s.owe h r).mod.faultSeq = s.mod.faultSeq := State.countModule_mod_faultSeq ..
@[simp] theorem State.fault_mod_ctr (s : State) (r : FaultRec) : (s.fault r).mod.ctr = s.mod.ctr := by rw [State.fault_mod]
@[simp] theorem State.countModule_mod_eventsSeen (s : State) (k n : Nat) : (s.countModule k n).mod.eventsSeen = s.mod.eventsSeen := by
  unfold State.countModule; split <;> rfl
@[simp] theorem State.owe_mod_eventsSeen (s : State) (h : Hdr) (r : CmdRow) : (s.owe h r).mod.eventsSeen = s.mod.eventsSeen := State.countModule_mod_eventsSeen ..
@[simp] theorem State.fault_mod_eventsSeen (s : State) (r : FaultRec) : (s.fault r).mod.eventsSeen = s.mod.eventsSeen := by rw [State.fault_mod]
@[simp] theorem State.updConn_alaok_active (s : State) (c : Nat) (f : Connector → Connector) : (s.updConn c f).alaok.active = s.alaok.active := rfl
@[simp] theorem State.updConn_alaok_assists (s : State) (c : Nat) (f : Connector → Connector) : (s.updConn c f).alaok.assists = s.alaok.assists := rfl
@[simp] theorem State.updConn_alaok_nextAssist (s : State) (c : Nat) (f : Connector → Connector) : (s.updConn c f).alaok.nextAssist = s.alaok.nextAssist := rfl
@[simp] theorem State.updConn_alaok_accepted (s : State) (c : Nat) (f : Connector → Connector) : (s.updConn c f).alaok.accepted = s.alaok.accepted := rfl
@[simp] theorem State.updConn_alaok_wall (s : State) (c : Nat) (f : Connector → Connector) : (s.updConn c f).alaok.wall = s.alaok.wall := rfl
@[simp] theorem State.updConn_alaok_nextSession (s : State) (c : Nat) (f : Connector → Connector) : (s.updConn c f).alaok.nextSession = s.alaok.nextSession := rfl
@[simp] theorem State.updConn_alaok_discards (s : State) (c : Nat) (f : Connector → Connector) : (s.updConn c f).alaok.discards = s.alaok.discards := rfl

end Sys2Proof.Machine
end

