-- ==== Sys2Proof/Laws/Core.lean ====
section
/-! SUPPORT. What a core's instruction does to the state once its operands are checked: the trace it leaves, its retirement, and
its fault. -/

namespace Sys2Proof.Machine

theorem State.coreFrame_refl (s : State) (k : Nat) : s.coreFrame s k := ⟨fun _ _ => rfl, fun _ => rfl, rfl⟩

theorem State.coreFrame_trans {s t u : State} {k : Nat} (a : s.coreFrame t k) (b : t.coreFrame u k) : s.coreFrame u k := by
  refine ⟨fun j h => (b.cores j h).trans (a.cores j h), fun f => ?_, ?_⟩
  · have h1 := b.fields f
    rw [a.fields f] at h1
    exact h1
  · have h1 := b.rest
    rw [a.rest] at h1
    exact h1

theorem State.updCore_coreFrame (s : State) (k : Nat) (g : Core → Core) : s.coreFrame (s.updCore k g) k :=
  ⟨fun j h => State.updCore_core_ne s k j g h, fun _ => rfl, rfl⟩

/-- A change of a field's trace buffer and counters. -/
theorem State.updField_coreFrame (s : State) (k f : Nat) (g : Field → Field)
    (h : ∀ v, g v = { v with trace := (g v).trace, ctr := (g v).ctr }) : s.coreFrame (s.updField f g) k := by
  refine ⟨fun _ _ => rfl, fun j => ?_, rfl⟩
  by_cases e : j = f
  · subst e
    rw [State.updField_field]
    exact h _
  · rw [State.updField_field_ne _ _ _ _ e]

theorem State.countField_coreFrame (s : State) (k f i n : Nat) : s.coreFrame (s.countField f i n) k := by
  unfold State.countField
  split
  · exact State.updField_coreFrame _ _ _ _ (fun _ => rfl)
  · exact State.coreFrame_refl _ _

@[simp] theorem State.countField_core (s : State) (f i n j : Nat) : (s.countField f i n).core j = s.core j := by
  unfold State.core; rw [State.countField_cores]

@[simp] theorem State.updField_core (s : State) (f : Nat) (g : Field → Field) (j : Nat) : (s.updField f g).core j = s.core j := rfl

/-- R125: a trace record changes nothing but the core's queue of records and its field's buffer and counters. -/
theorem State.trace_frame (s : State) (k kind pc : Nat) (data : Word) :
    s.coreFrame (s.trace k kind pc data) k ∧ ∃ q, (s.trace k kind pc data).core k = { s.core k with traceQ := q } := by
  unfold State.trace
  dsimp only
  split
  · split
    · exact ⟨State.countField_coreFrame _ _ _ _ _, (s.core k).traceQ, by rw [State.countField_core]⟩
    · refine ⟨State.coreFrame_trans (State.coreFrame_trans (State.updCore_coreFrame _ _ _)
        (State.updField_coreFrame _ _ _ _ (fun _ => rfl))) (State.countField_coreFrame _ _ _ _ _), ?_⟩
      exact ⟨_, (State.countField_core ..).trans ((State.updField_core ..).trans (State.updCore_core ..))⟩
  · exact ⟨State.coreFrame_refl _ _, (s.core k).traceQ, rfl⟩

theorem State.traces_frame (k at' : Nat) (l : List (Nat × Word)) (s : State) :
    s.coreFrame (l.foldl (fun (t : State) (r : Nat × Word) => t.trace k r.1 at' r.2) s) k ∧
      ∃ q, (l.foldl (fun (t : State) (r : Nat × Word) => t.trace k r.1 at' r.2) s).core k = { s.core k with traceQ := q } := by
  induction l generalizing s with
  | nil => exact ⟨State.coreFrame_refl _ _, (s.core k).traceQ, rfl⟩
  | cons r l ih =>
    rw [List.foldl_cons]
    obtain ⟨f1, q1, e1⟩ := State.trace_frame s k r.1 at' r.2
    obtain ⟨f2, q2, e2⟩ := ih (s.trace k r.1 at' r.2)
    refine ⟨State.coreFrame_trans f1 f2, q2, ?_⟩
    rw [e2, e1]

theorem State.coreHalt_frame (s : State) (k : Nat) :
    s.coreFrame (s.coreHalt k) k ∧ (s.coreHalt k).core k = { s.core k with mode := .halting, stepping := false } := by
  refine ⟨State.coreFrame_trans (State.updCore_coreFrame _ _ _) (State.updField_coreFrame _ _ _ _ (fun _ => rfl)), ?_⟩
  unfold State.coreHalt
  rw [State.updField_core, State.updCore_core]

/-- R107, R125, R129: a retirement. -/
theorem State.coreRetire_frame (s : State) (k : Nat) (w : Word) (pc : Nat) (recs : List (Nat × Word)) (at' : Nat) :
    s.coreFrame (s.coreRetire k w pc recs at') k ∧ ((s.coreRetire k w pc recs at').core k).afterRetire (s.core k) pc := by
  obtain ⟨f1, q, e1⟩ := State.traces_frame k at' (recs ++ [(0x03, w)]) s
  unfold State.coreRetire
  dsimp only
  split
  · next h =>
    refine ⟨State.coreFrame_trans f1 (State.coreFrame_trans (State.updCore_coreFrame _ _ _) (State.updCore_coreFrame _ _ _)), q, ?_⟩
    rw [State.updCore_core, State.updCore_core, e1, if_pos h]
  · next h =>
    refine ⟨State.coreFrame_trans f1 (State.updCore_coreFrame _ _ _), q, ?_⟩
    rw [State.updCore_core, e1, if_neg h]

theorem State.noHalt {s : State} {k : Nat} (b : s.haltsAt k = false ∨ (s.core k).passBp = true) :
    ¬ (s.haltsAt k = true ∧ (!(s.core k).passBp) = true) := by
  rintro ⟨x, y⟩
  rcases b with b | b
  · rw [b] at x
    cases x
  · rw [b] at y
    cases y

/-- A core that is ready for an instruction which retires. -/
theorem State.runCore_retires (s : State) (c : CoreRef) (o : CoreOp) (r : s.readyFor c o) (s1 : State) (pc : Nat)
    (recs : List (Nat × Word))
    (e : s.coreExec c.key ((s.core c.key).instrAt (s.core c.key).pc.toNat) o = .retire s1 pc recs) :
    ∃ l, s.runCore c o = s1.coreRetire c.key ((s.core c.key).instrAt (s.core c.key).pc.toNat) pc l (s.core c.key).pc.toNat := by
  obtain ⟨a, d, b, n⟩ := r
  unfold State.runCore
  dsimp only
  rw [a, d]
  simp only [Bool.not_true, Bool.false_eq_true, if_false, ne_eq, not_true_eq_false]
  have nb := State.noHalt b
  rw [if_neg nb, e]
  simp only [State.retireAt, n, Bool.false_eq_true, if_false]
  exact ⟨_, rfl⟩

/-- The retirement of an instruction whose effect is a change of the core alone. -/
theorem State.retires_of (s : State) (c : CoreRef) (i : Instr) (o : CoreOp) (s1 : State) (v : Core) (pc : Nat)
    (recs : List (Nat × Word)) (x : exec i s = .next (s.runCore c o)) (r : s.readyFor c o)
    (e : s.coreExec c.key ((s.core c.key).instrAt (s.core c.key).pc.toNat) o = .retire s1 pc recs)
    (f : s.coreFrame s1 c.key) (hv : s1.core c.key = v) : s.retires c i v pc := by
  obtain ⟨l, hl⟩ := State.runCore_retires s c o r s1 pc recs e
  obtain ⟨f1, a1⟩ := State.coreRetire_frame s1 c.key ((s.core c.key).instrAt (s.core c.key).pc.toNat) pc l (s.core c.key).pc.toNat
  refine ⟨_, x, ?_, ?_⟩
  · rw [hl, ← hv]; exact a1
  · rw [hl]; exact State.coreFrame_trans f f1

/-- A register result. -/
theorem State.retires_reg (s : State) (c : CoreRef) (i : Instr) (o : CoreOp) (rd : BitVec 5) (w : Word) (bad : Bool)
    (x : exec i s = .next (s.runCore c o)) (r : s.readyFor c o)
    (e : s.coreExec c.key ((s.core c.key).instrAt (s.core c.key).pc.toNat) o = s.retireReg c.key rd w bad) :
    s.retires c i ((s.core c.key).setReg rd w bad) ((s.core c.key).pc.toNat + 4) :=
  State.retires_of s c i o _ _ _ [] x r e (State.updCore_coreFrame _ _ _) (State.updCore_core _ _ _)

@[simp] theorem State.takeOut_core (s : State) (u : Nat) (k : UnitKind) (j : Nat) : (s.takeOut u k).core j = s.core j := by
  unfold State.core; rw [State.takeOut_cores]

theorem State.faultCore_cores (s : State) (k unit kind action : Nat) (uk : UnitKind) (data : List Byte) (tag : Word) (layer : Nat) :
    (s.faultCore k unit kind action uk data tag layer).cores = s.cores := by
  unfold State.faultCore; simp

theorem State.ite_takeOut_cores (s : State) (b : Bool) (u : Nat) (k : UnitKind) :
    (if b = true then s.takeOut u k else s).cores = s.cores := by
  cases b
  · rfl
  · exact State.takeOut_cores ..

/-- R116: a fault stops the core before the instruction takes effect. -/
theorem State.coreFault_core (s : State) (k cause : Nat) :
    ∃ q, (s.coreFault k cause).core k = { s.core k with
      mode := .faulted, faultCause := BitVec.ofNat 32 cause, faultPc := (s.core k).pc.setWidth 32, faultedWin := true,
      faultAt := some s.stamp, waitMask := none, stepping := false, passBp := false, traceQ := q } := by
  unfold State.coreFault
  dsimp only
  obtain ⟨-, q, e⟩ := State.trace_frame (s.updCore k (fun v => { v with
    mode := .faulted, faultCause := BitVec.ofNat 32 cause, faultPc := (s.core k).pc.setWidth 32, faultedWin := true,
    faultAt := some s.stamp, waitMask := none, stepping := false, passBp := false })) k 0x06 (s.core k).pc.toNat (BitVec.ofNat 32 cause)
  rw [State.updCore_core] at e
  refine ⟨q, Eq.trans ?_ e⟩
  unfold State.core
  rw [State.faultCore_cores, State.ite_takeOut_cores]

/-- A core that is ready for an instruction which faults. -/
theorem State.coreFaults_of (s : State) (c : CoreRef) (i : Instr) (o : CoreOp) (cause : Nat) (x : exec i s = .next (s.runCore c o))
    (r : s.readyFor c o)
    (e : s.coreExec c.key ((s.core c.key).instrAt (s.core c.key).pc.toNat) o = .fault cause) : s.coreFaults c i cause := by
  obtain ⟨a, d, b, n⟩ := r
  have nb := State.noHalt b
  obtain ⟨-, q0, h0⟩ := State.traces_frame c.key (s.core c.key).pc.toNat (s.matchRecs c.key) s
  have h : s.runCore c o = ((s.matchRecs c.key).foldl (fun (t : State) (r : Nat × Word) =>
      t.trace c.key r.1 (s.core c.key).pc.toNat r.2) s).coreFault c.key cause := by
    unfold State.runCore
    dsimp only
    rw [a, d]
    simp only [Bool.not_true, Bool.false_eq_true, if_false, ne_eq, not_true_eq_false]
    rw [if_neg nb, e]
    simp only [State.faultAt, n, Bool.false_eq_true, if_false]
  obtain ⟨q, hq⟩ := State.coreFault_core ((s.matchRecs c.key).foldl (fun (t : State) (r : Nat × Word) =>
      t.trace c.key r.1 (s.core c.key).pc.toNat r.2) s) c.key cause
  rw [h0] at hq
  rw [h] at x
  refine ⟨_, x, ?_, ?_, ?_, ?_, ?_, ?_, ?_⟩ <;> rw [hq]

end Sys2Proof.Machine
end

