-- ==== Sys2Proof/Laws/Keeps.lean ====
section
/-! SUPPORT. What every operation of the module keeps: the queue of waiting commands, a legal window length, and the canonical
form of every memory. One lemma per shape of update. -/

namespace Sys2Proof

theorem Map.mem_putIn {α : Type} (k : Nat) (v : α) (l : List (Nat × α)) (x : α) (h : x ∈ (Map.putIn k v l).map Prod.snd) :
    x = v ∨ x ∈ l.map Prod.snd := by
  induction l with
  | nil => simpa [Map.putIn] using h
  | cons e t ih =>
    obtain ⟨j, w⟩ := e
    unfold Map.putIn at h
    split at h
    · simpa using h
    · split at h
      · simp only [List.map_cons, List.mem_cons] at h ⊢
        rcases h with h | h
        · exact Or.inl h
        · exact Or.inr (Or.inr h)
      · simp only [List.map_cons, List.mem_cons] at h ⊢
        rcases h with h | h
        · exact Or.inr (Or.inl h)
        · rcases ih h with h | h
          · exact Or.inl h
          · exact Or.inr (Or.inr h)

theorem Map.mem_put {α : Type} (m : Map α) (k : Nat) (v x : α) (h : x ∈ (m.put k v).vals) : x = v ∨ x ∈ m.vals :=
  Map.mem_putIn k v m.entries x h

theorem Map.findIn_mem {α : Type} (k : Nat) (l : List (Nat × α)) (v : α) (h : Map.findIn k l = some v) : v ∈ l.map Prod.snd := by
  induction l with
  | nil => cases h
  | cons e t ih =>
    obtain ⟨j, w⟩ := e
    unfold Map.findIn at h
    split at h
    · cases h
      exact List.mem_cons_self ..
    · exact List.mem_cons_of_mem _ (ih h)

/-- What holds of every record of a map and of the default record holds of what a key finds. -/
theorem Map.find_all {α : Type} (P : α → Prop) (m : Map α) (k : Nat) (d : α) (h : ∀ x ∈ m.vals, P x) (hd : P d) :
    P (m.find k d) := by
  unfold Map.find Map.find?
  cases e : Map.findIn k m.entries with
  | none => exact hd
  | some v => exact h v (Map.findIn_mem k m.entries v e)

theorem Map.put_all {α : Type} (P : α → Prop) (m : Map α) (k : Nat) (v : α) (h : ∀ x ∈ m.vals, P x) (hv : P v) :
    ∀ x ∈ (m.put k v).vals, P x := by
  intro x hx
  rcases Map.mem_put m k v x hx with e | e
  · exact e ▸ hv
  · exact h x e

theorem Map.mapVals_all {α β : Type} (P : α → Prop) (Q : β → Prop) (f : Nat → α → β) (m : Map α) (h : ∀ x ∈ m.vals, P x)
    (hf : ∀ k x, P x → Q (f k x)) : ∀ x ∈ (m.mapVals f).vals, Q x := by
  intro x hx
  simp only [Map.vals, Map.mapVals, List.map_map, List.mem_map] at hx
  obtain ⟨e, he, rfl⟩ := hx
  exact hf _ _ (h _ (List.mem_map_of_mem he))

namespace Machine

/-- The levels of an engine's arrays are canonical. -/
def Engine.legal (e : Engine) : Prop := ∀ a ∈ e.arrays.vals, a.levels.wf = true

theorem Scratch.legal_default : ({} : Scratch).legal := ⟨rfl, List.nodup_nil, List.nodup_nil⟩

theorem Core.legal_default : ({} : Core).legal := ⟨Scratch.legal_default, fun _ h => by cases h⟩

theorem Stack.legal_default : ({} : Stack).legal := ⟨rfl, List.nodup_nil, List.nodup_nil⟩

/-- What an operation keeps. -/
def State.Keeps (s t : State) : Prop :=
  t.pending = s.pending ∧ (s.windowLegal → t.windowLegal) ∧ (s.memoryLegal → t.memoryLegal)

theorem Keeps.refl (s : State) : s.Keeps s := ⟨rfl, id, id⟩

theorem Keeps.trans {s t u : State} (a : s.Keeps t) (b : t.Keeps u) : s.Keeps u :=
  ⟨b.1.trans a.1, fun h => b.2.1 (a.2.1 h), fun h => b.2.2 (a.2.2 h)⟩

/-- A state written field by field, under a name of its own, so that a lemma about a record update meets only record updates. -/
def State.build (cl : Clock) (mo : ModStatus) (bu : Budget) (pl : Plan) (fi : Map Field) (co : Map Core) (sk : Map Stack)
    (pa : Map Partition) (ed : Map Edition) (re : Map Req) (al : Alaok) (le : Ledger) (fa : Fabric) (st : Stop) (cc : Collector)
    (fr : Nat) (pe : List Instr) : State :=
  State.mk cl mo bu pl fi co sk pa ed re al le fa st cc fr pe

theorem State.mk_eq (cl : Clock) (mo : ModStatus) (bu : Budget) (pl : Plan) (fi : Map Field) (co : Map Core) (sk : Map Stack)
    (pa : Map Partition) (ed : Map Edition) (re : Map Req) (al : Alaok) (le : Ledger) (fa : Fabric) (st : Stop) (cc : Collector)
    (fr : Nat) (pe : List Instr) :
    State.mk cl mo bu pl fi co sk pa ed re al le fa st cc fr pe = State.build cl mo bu pl fi co sk pa ed re al le fa st cc fr pe := rfl

/-- An update that touches neither the queue, the window length, the cores nor the stacks. -/
theorem keeps_mk (t : State) (cl : Clock) (mo : ModStatus) (bu : Budget) (pl : Plan) (fi : Map Field) (pa : Map Partition)
    (ed : Map Edition) (re : Map Req) (al : Alaok) (le : Ledger) (fa : Fabric) (st : Stop) (co : Collector) (fr : Nat)
    (h1 : pl.w = t.plan.w) (h2 : pl.wNext = t.plan.wNext) :
    t.Keeps (State.build cl mo bu pl fi t.cores t.stackSet pa ed re al le fa st co fr t.pending) := by
  refine ⟨rfl, fun h => ?_, id⟩
  unfold State.windowLegal at h ⊢
  unfold State.build
  dsimp only
  rw [h1, h2]
  exact h

theorem keeps_mk0 (t : State) (cl : Clock) (mo : ModStatus) (bu : Budget) (fi : Map Field) (pa : Map Partition)
    (ed : Map Edition) (re : Map Req) (al : Alaok) (le : Ledger) (fa : Fabric) (st : Stop) (co : Collector) (fr : Nat) :
    t.Keeps (State.build cl mo bu t.plan fi t.cores t.stackSet pa ed re al le fa st co fr t.pending) := ⟨rfl, id, id⟩

/-- An update that puts a legal window length in place, and keeps the rest. -/
theorem keeps_plan (t : State) (cl : Clock) (mo : ModStatus) (bu : Budget) (pl : Plan) (fi : Map Field) (pa : Map Partition)
    (ed : Map Edition) (re : Map Req) (al : Alaok) (le : Ledger) (fa : Fabric) (st : Stop) (co : Collector) (fr : Nat)
    (h : t.windowLegal → 500 ≤ pl.w ∧ pl.w ≤ 65536 ∧ 500 ≤ pl.wNext ∧ pl.wNext ≤ 65536) :
    t.Keeps (State.build cl mo bu pl fi t.cores t.stackSet pa ed re al le fa st co fr t.pending) :=
  ⟨rfl, h, id⟩

/-- An update of the cores and stacks that keeps them legal. -/
theorem keeps_mem (t u : State) (h1 : u.pending = t.pending) (h2 : t.windowLegal → u.windowLegal)
    (h3 : (∀ c ∈ t.cores.vals, c.legal) → ∀ c ∈ u.cores.vals, c.legal)
    (h4 : (∀ c ∈ t.stackSet.vals, c.legal) → ∀ c ∈ u.stackSet.vals, c.legal) : t.Keeps u :=
  ⟨h1, h2, fun h => ⟨h3 h.1, h4 h.2⟩⟩

theorem keeps_ite (c : Prop) [Decidable c] (s a b : State) (ha : s.Keeps a) (hb : s.Keeps b) : s.Keeps (if c then a else b) := by
  split <;> assumption

theorem keeps_ite1 {γ : Type} (c : Prop) [Decidable c] (s : State) (a b : State × γ) (ha : s.Keeps a.1) (hb : s.Keeps b.1) :
    s.Keeps (if c then a else b).1 := by
  split <;> assumption

theorem keeps_foldl {β : Type} (g : State → β → State) (h : ∀ (t : State) (x : β), t.Keeps (g t x)) (l : List β) (s : State) :
    s.Keeps (l.foldl g s) := by
  induction l generalizing s with
  | nil => exact Keeps.refl s
  | cons x l ih => exact Keeps.trans (h s x) (ih (g s x))

theorem keeps_foldl1 {β γ : Type} (g : State × γ → β → State × γ) (h : ∀ (t : State × γ) (x : β), t.1.Keeps (g t x).1) (l : List β) (s : State × γ) :
    s.1.Keeps (l.foldl g s).1 := by
  induction l generalizing s with
  | nil => exact Keeps.refl s.1
  | cons x l ih => exact Keeps.trans (h s x) (ih (g s x))

/-! The tables of the state. -/

theorem State.core_legal (s : State) (h : s.memoryLegal) (k : Nat) : (s.core k).legal :=
  Map.find_all Core.legal _ _ _ h.1 Core.legal_default

theorem State.stack_legal (s : State) (h : s.memoryLegal) (k : Nat) : (s.stack k).legal :=
  Map.find_all Stack.legal _ _ _ h.2 Stack.legal_default

theorem State.setCore_keeps (s : State) (k : Nat) (v : Core) (h : s.memoryLegal → v.legal) : s.Keeps (s.setCore k v) :=
  ⟨rfl, id, fun m => ⟨Map.put_all Core.legal _ _ _ m.1 (h m), m.2⟩⟩

theorem State.updCore_keeps (s : State) (k : Nat) (g : Core → Core) (h : ∀ c, c.legal → (g c).legal) : s.Keeps (s.updCore k g) :=
  State.setCore_keeps s k _ (fun m => h _ (s.core_legal m k))

theorem Core.updEngine_legal (c : Core) (e : Nat) (g : Engine → Engine) (h : ∀ v, v.legal → (g v).legal) (hc : c.legal) :
    (c.updEngine e g).legal :=
  ⟨hc.1, Map.put_all Engine.legal _ _ _ hc.2 (h _ (Map.find_all Engine.legal _ _ _ hc.2 (fun _ h => by cases h)))⟩

theorem Engine.updArray_legal (e : Engine) (a : Nat) (g : Array → Array) (h : ∀ v, v.levels.wf = true → (g v).levels.wf = true)
    (he : e.legal) : (e.updArray a g).legal :=
  Map.put_all (fun v : Array => v.levels.wf = true) _ _ _ he
    (h _ (Map.find_all (fun v : Array => v.levels.wf = true) _ _ _ he rfl))

theorem State.updEngine_keeps (s : State) (k e : Nat) (g : Engine → Engine) (h : ∀ v, v.legal → (g v).legal) :
    s.Keeps (s.updEngine k e g) :=
  State.updCore_keeps s k _ (fun c hc => Core.updEngine_legal c e g h hc)

theorem State.updArray_keeps (s : State) (k e a : Nat) (g : Array → Array)
    (h : ∀ v, v.levels.wf = true → (g v).levels.wf = true) : s.Keeps (s.updArray k e a g) :=
  State.updEngine_keeps s k e _ (fun v hv => Engine.updArray_legal v a g h hv)

theorem State.updSp_keeps (s : State) (k : Nat) (g : Scratch → Scratch) (h : ∀ p, p.legal → (g p).legal) : s.Keeps (s.updSp k g) :=
  State.updCore_keeps s k _ (fun c hc => ⟨h c.sp hc.1, hc.2⟩)

theorem State.updStack_keeps (s : State) (k : Nat) (g : Stack → Stack) (h : ∀ t, t.legal → (g t).legal) : s.Keeps (s.updStack k g) :=
  ⟨rfl, id, fun m => ⟨m.1, Map.put_all Stack.legal _ _ _ m.2 (h _ (s.stack_legal m k))⟩⟩

theorem Core.legal_of {c d : Core} (h : c.legal) (h1 : d.sp = c.sp) (h2 : d.engines = c.engines) : d.legal := by
  unfold Core.legal at h ⊢; rw [h1, h2]; exact h

theorem Engine.legal_of {c d : Engine} (h : c.legal) (h1 : d.arrays = c.arrays) : d.legal := by
  unfold Engine.legal at h ⊢; rw [h1]; exact h

theorem levels_of {c d : Array} (h : c.levels.wf = true) (h1 : d.levels = c.levels) : d.levels.wf = true := by
  rw [h1]; exact h

theorem Scratch.legal_of {c d : Scratch} (h : c.legal) (h1 : d.mem = c.mem) (h2 : d.remap = c.remap) (h3 : d.copying = c.copying)
    (h4 : d.waiting = c.waiting) : d.legal := by
  unfold Scratch.legal at h ⊢; rw [h1, h2, h3, h4]; exact h

theorem Stack.legal_of {c d : Stack} (h : c.legal) (h1 : d.mem = c.mem) (h2 : d.remap = c.remap) (h3 : d.copying = c.copying)
    (h4 : d.waiting = c.waiting) : d.legal := by
  unfold Stack.legal at h ⊢; rw [h1, h2, h3, h4]; exact h

/-- R322: a command keeps what its decision keeps. -/
theorem State.same_keeps (s t : State) (h1 : t.pending = s.pending) (h2 : t.plan = s.plan) (h3 : t.cores = s.cores)
    (h4 : t.stackSet = s.stackSet) : s.Keeps t := by
  refine ⟨h1, fun h => ?_, fun h => ?_⟩
  · unfold State.windowLegal at h ⊢; rw [h2]; exact h
  · unfold State.memoryLegal at h ⊢; rw [h3, h4]; exact h

end Machine
end Sys2Proof
end

