-- ==== Sys2Proof/Laws/PerInstr.lean ====
section
/-! SUPPORT. Per command: the header of a well-formed command's packet is of connector A or B, with a parameter length that
Table 11-6 allows. -/

namespace Sys2Proof.Laws.WellFormedHeader

/-- R313, R321: a well-formed command's header, where it has one, fits. -/
def Statement (i : Instr) : Prop := i.wellFormed = true → ∀ h, i.header = some h → h.ok = true

theorem left {a b : Bool} (w : (a && b) = true) : a = true := (Bool.and_eq_true _ _ ▸ w).1

theorem doneReport (f : FieldMsg) : Statement (.doneReport f) := fun _ _ e => nomatch e
theorem windowRelease : Statement .windowRelease := fun _ _ e => nomatch e
theorem boundaryHold : Statement .boundaryHold := fun _ _ e => nomatch e
theorem boundaryHoldLimit : Statement .boundaryHoldLimit := fun _ _ e => nomatch e
theorem hungCore (c : CoreRef) : Statement (.hungCore c) := fun _ _ e => nomatch e
theorem paceMeasurement (f : Nat) (counts : List Nat) : Statement (.paceMeasurement f counts) := fun _ _ e => nomatch e
theorem replan : Statement .replan := fun _ _ e => nomatch e
theorem fieldWake (f : Nat) : Statement (.fieldWake f) := fun _ _ e => nomatch e
theorem darkScrubWake (f : Nat) : Statement (.darkScrubWake f) := fun _ _ e => nomatch e
theorem creditRefill : Statement .creditRefill := fun _ _ e => nomatch e
theorem grantRebalance : Statement .grantRebalance := fun _ _ e => nomatch e
theorem throttleRecovery (f : Nat) : Statement (.throttleRecovery f) := fun _ _ e => nomatch e
theorem currentTrigger (f : Nat) : Statement (.currentTrigger f) := fun _ _ e => nomatch e
theorem converterFoldBack (f : Nat) : Statement (.converterFoldBack f) := fun _ _ e => nomatch e
theorem foldBackTimeout (f : Nat) : Statement (.foldBackTimeout f) := fun _ _ e => nomatch e
theorem shortDetect (f : Nat) (amps milli : Nat) : Statement (.shortDetect f amps milli) := fun _ _ e => nomatch e
theorem isolationConfirm (f : Nat) (persists : Bool) : Statement (.isolationConfirm f persists) := fun _ _ e => nomatch e
theorem fieldIsolated (f : Nat) : Statement (.fieldIsolated f) := fun _ _ e => nomatch e
theorem stackFailover (k : Nat) : Statement (.stackFailover k) := fun _ _ e => nomatch e
theorem feedPowerOver (watts : Nat) : Statement (.feedPowerOver watts) := fun _ _ e => nomatch e
theorem feedLow (milli : Nat) : Statement (.feedLow milli) := fun _ _ e => nomatch e
theorem budgetRestore (watts milli : Nat) : Statement (.budgetRestore watts milli) := fun _ _ e => nomatch e
theorem belfryRound (f : Nat) (sums : List Nat) : Statement (.belfryRound f sums) := fun _ _ e => nomatch e
theorem hotSensorStep (f : Nat) : Statement (.hotSensorStep f) := fun _ _ e => nomatch e
theorem blfSwStart (h : Hdr) (f : Nat) (v : Word) : Statement (.blfSwStart h f v) := by
  intro w k e
  cases e
  first | exact w | exact left w | exact left (left w) | exact left (left (left w)) | exact left (left (left (left w)))
theorem belfryConversionRequest (f : Nat) : Statement (.belfryConversionRequest f) := fun _ _ e => nomatch e
theorem softwareConversionDone (f : Nat) (sum : Nat) : Statement (.softwareConversionDone f sum) := fun _ _ e => nomatch e
theorem urgentConversion (f : Nat) (channel avg shift sum : Nat) : Statement (.urgentConversion f channel avg shift sum) := fun _ _ e => nomatch e
theorem ageAccumulate : Statement .ageAccumulate := fun _ _ e => nomatch e
theorem refreshOverdue (c : CoreRef) (e a : Nat) : Statement (.refreshOverdue c e a) := fun _ _ e => nomatch e
theorem trimSample (c : CoreRef) (e a : Nat) : Statement (.trimSample c e a) := fun _ _ e => nomatch e
theorem engineRefresh (c : CoreRef) (e : Nat) : Statement (.engineRefresh c e) := fun _ _ e => nomatch e
theorem refreshSettleDone (c : CoreRef) (e : Nat) (bad : List (Nat × Nat × Nat)) : Statement (.refreshSettleDone c e bad) := fun _ _ e => nomatch e
theorem rowReverify (c : CoreRef) (e a : Nat) (row : Nat) (off stuck : List (Nat × Nat)) : Statement (.rowReverify c e a row off stuck) := fun _ _ e => nomatch e
theorem editionReady (ed : Nat) : Statement (.editionReady ed) := fun _ _ e => nomatch e
theorem forerunnerReload (ed layer : Nat) : Statement (.forerunnerReload ed layer) := fun _ _ e => nomatch e
theorem ledgerCounterCommit : Statement .ledgerCounterCommit := fun _ _ e => nomatch e
theorem ledgerSnapshot : Statement .ledgerSnapshot := fun _ _ e => nomatch e
theorem scrubPass (c : CoreRef) (line : Nat) : Statement (.scrubPass c line) := fun _ _ e => nomatch e
theorem lineRemapCopyDone (c : CoreRef) (line : Nat) : Statement (.lineRemapCopyDone c line) := fun _ _ e => nomatch e
theorem patrol (k cb : Nat) : Statement (.patrol k cb) := fun _ _ e => nomatch e
theorem granuleRemap (k g : Nat) : Statement (.granuleRemap k g) := fun _ _ e => nomatch e
theorem regionFillDone (p sel : Nat) : Statement (.regionFillDone p sel) := fun _ _ e => nomatch e
theorem add (c : CoreRef) (rd ra rb : BitVec 5) : Statement (.add c rd ra rb) := fun _ _ e => nomatch e
theorem sub (c : CoreRef) (rd ra rb : BitVec 5) : Statement (.sub c rd ra rb) := fun _ _ e => nomatch e
theorem andOp (c : CoreRef) (rd ra rb : BitVec 5) : Statement (.andOp c rd ra rb) := fun _ _ e => nomatch e
theorem orOp (c : CoreRef) (rd ra rb : BitVec 5) : Statement (.orOp c rd ra rb) := fun _ _ e => nomatch e
theorem xor (c : CoreRef) (rd ra rb : BitVec 5) : Statement (.xor c rd ra rb) := fun _ _ e => nomatch e
theorem sll (c : CoreRef) (rd ra rb : BitVec 5) : Statement (.sll c rd ra rb) := fun _ _ e => nomatch e
theorem srl (c : CoreRef) (rd ra rb : BitVec 5) : Statement (.srl c rd ra rb) := fun _ _ e => nomatch e
theorem sra (c : CoreRef) (rd ra rb : BitVec 5) : Statement (.sra c rd ra rb) := fun _ _ e => nomatch e
theorem slt (c : CoreRef) (rd ra rb : BitVec 5) : Statement (.slt c rd ra rb) := fun _ _ e => nomatch e
theorem sltu (c : CoreRef) (rd ra rb : BitVec 5) : Statement (.sltu c rd ra rb) := fun _ _ e => nomatch e
theorem mul (c : CoreRef) (rd ra rb : BitVec 5) : Statement (.mul c rd ra rb) := fun _ _ e => nomatch e
theorem mulh (c : CoreRef) (rd ra rb : BitVec 5) : Statement (.mulh c rd ra rb) := fun _ _ e => nomatch e
theorem mulhu (c : CoreRef) (rd ra rb : BitVec 5) : Statement (.mulhu c rd ra rb) := fun _ _ e => nomatch e
theorem min (c : CoreRef) (rd ra rb : BitVec 5) : Statement (.min c rd ra rb) := fun _ _ e => nomatch e
theorem max (c : CoreRef) (rd ra rb : BitVec 5) : Statement (.max c rd ra rb) := fun _ _ e => nomatch e
theorem addi (c : CoreRef) (rd ra : BitVec 5) (imm : BitVec 16) : Statement (.addi c rd ra imm) := fun _ _ e => nomatch e
theorem andi (c : CoreRef) (rd ra : BitVec 5) (imm : BitVec 16) : Statement (.andi c rd ra imm) := fun _ _ e => nomatch e
theorem ori (c : CoreRef) (rd ra : BitVec 5) (imm : BitVec 16) : Statement (.ori c rd ra imm) := fun _ _ e => nomatch e
theorem xori (c : CoreRef) (rd ra : BitVec 5) (imm : BitVec 16) : Statement (.xori c rd ra imm) := fun _ _ e => nomatch e
theorem shi (c : CoreRef) (rd ra : BitVec 5) (imm : BitVec 16) : Statement (.shi c rd ra imm) := fun _ _ e => nomatch e
theorem lui (c : CoreRef) (rd : BitVec 5) (imm : BitVec 16) : Statement (.lui c rd imm) := fun _ _ e => nomatch e
theorem slti (c : CoreRef) (rd ra : BitVec 5) (imm : BitVec 16) : Statement (.slti c rd ra imm) := fun _ _ e => nomatch e
theorem lb (c : CoreRef) (rd ra : BitVec 5) (imm : BitVec 16) : Statement (.lb c rd ra imm) := fun _ _ e => nomatch e
theorem lbu (c : CoreRef) (rd ra : BitVec 5) (imm : BitVec 16) : Statement (.lbu c rd ra imm) := fun _ _ e => nomatch e
theorem lh (c : CoreRef) (rd ra : BitVec 5) (imm : BitVec 16) : Statement (.lh c rd ra imm) := fun _ _ e => nomatch e
theorem lhu (c : CoreRef) (rd ra : BitVec 5) (imm : BitVec 16) : Statement (.lhu c rd ra imm) := fun _ _ e => nomatch e
theorem lw (c : CoreRef) (rd ra : BitVec 5) (imm : BitVec 16) : Statement (.lw c rd ra imm) := fun _ _ e => nomatch e
theorem sb (c : CoreRef) (rd ra : BitVec 5) (imm : BitVec 16) : Statement (.sb c rd ra imm) := fun _ _ e => nomatch e
theorem sh (c : CoreRef) (rd ra : BitVec 5) (imm : BitVec 16) : Statement (.sh c rd ra imm) := fun _ _ e => nomatch e
theorem sw (c : CoreRef) (rd ra : BitVec 5) (imm : BitVec 16) : Statement (.sw c rd ra imm) := fun _ _ e => nomatch e
theorem beq (c : CoreRef) (ra rb : BitVec 5) (off : BitVec 16) : Statement (.beq c ra rb off) := fun _ _ e => nomatch e
theorem bne (c : CoreRef) (ra rb : BitVec 5) (off : BitVec 16) : Statement (.bne c ra rb off) := fun _ _ e => nomatch e
theorem blt (c : CoreRef) (ra rb : BitVec 5) (off : BitVec 16) : Statement (.blt c ra rb off) := fun _ _ e => nomatch e
theorem bge (c : CoreRef) (ra rb : BitVec 5) (off : BitVec 16) : Statement (.bge c ra rb off) := fun _ _ e => nomatch e
theorem bltu (c : CoreRef) (ra rb : BitVec 5) (off : BitVec 16) : Statement (.bltu c ra rb off) := fun _ _ e => nomatch e
theorem bgeu (c : CoreRef) (ra rb : BitVec 5) (off : BitVec 16) : Statement (.bgeu c ra rb off) := fun _ _ e => nomatch e
theorem jal (c : CoreRef) (off : BitVec 26) : Statement (.jal c off) := fun _ _ e => nomatch e
theorem jalr (c : CoreRef) (rd ra : BitVec 5) (imm : BitVec 16) : Statement (.jalr c rd ra imm) := fun _ _ e => nomatch e
theorem crd (c : CoreRef) (rd : BitVec 5) (imm : BitVec 16) : Statement (.crd c rd imm) := fun _ _ e => nomatch e
theorem cwr (c : CoreRef) (ra : BitVec 5) (imm : BitVec 16) : Statement (.cwr c ra imm) := fun _ _ e => nomatch e
theorem cst (c : CoreRef) (rd ra : BitVec 5) (imm : BitVec 16) : Statement (.cst c rd ra imm) := fun _ _ e => nomatch e
theorem cld (c : CoreRef) (rd ra : BitVec 5) (imm : BitVec 16) : Statement (.cld c rd ra imm) := fun _ _ e => nomatch e
theorem eng (c : CoreRef) (ra rb unit : BitVec 5) (cs : BitVec 9) : Statement (.eng c ra rb unit cs) := fun _ _ e => nomatch e
theorem spr (c : CoreRef) (ra rb unit : BitVec 5) (cs : BitVec 9) : Statement (.spr c ra rb unit cs) := fun _ _ e => nomatch e
theorem dma (c : CoreRef) (ra rb unit : BitVec 5) (cs : BitVec 9) : Statement (.dma c ra rb unit cs) := fun _ _ e => nomatch e
theorem post (c : CoreRef) (ra rb unit : BitVec 5) (cs : BitVec 9) : Statement (.post c ra rb unit cs) := fun _ _ e => nomatch e
theorem cpop (c : CoreRef) (rd ra : BitVec 5) : Statement (.cpop c rd ra) := fun _ _ e => nomatch e
theorem wait (c : CoreRef) (rd : BitVec 5) (imm : BitVec 16) : Statement (.wait c rd imm) := fun _ _ e => nomatch e
theorem fence (c : CoreRef) : Statement (.fence c) := fun _ _ e => nomatch e
theorem wend (c : CoreRef) : Statement (.wend c) := fun _ _ e => nomatch e
theorem brk (c : CoreRef) : Statement (.brk c) := fun _ _ e => nomatch e
theorem timerEvent (c : CoreRef) : Statement (.timerEvent c) := fun _ _ e => nomatch e
theorem coreHaltDrained (c : CoreRef) : Statement (.coreHaltDrained c) := fun _ _ e => nomatch e
theorem coreDoneContribution (c : CoreRef) : Statement (.coreDoneContribution c) := fun _ _ e => nomatch e
theorem scratchpadWriteAck (c : CoreRef) : Statement (.scratchpadWriteAck c) := fun _ _ e => nomatch e
theorem fire (c : CoreRef) (e : Nat) : Statement (.fire c e) := fun _ _ e => nomatch e
theorem progRow (c : CoreRef) (e : Nat) (stuck : List (Nat × Nat)) : Statement (.progRow c e stuck) := fun _ _ e => nomatch e
theorem readRow (c : CoreRef) (e : Nat) : Statement (.readRow c e) := fun _ _ e => nomatch e
theorem refSample (c : CoreRef) (e : Nat) : Statement (.refSample c e) := fun _ _ e => nomatch e
theorem loadTrim (c : CoreRef) (e : Nat) : Statement (.loadTrim c e) := fun _ _ e => nomatch e
theorem engineCompletion (c : CoreRef) (e : Nat) : Statement (.engineCompletion c e) := fun _ _ e => nomatch e
theorem gemm (c : CoreRef) : Statement (.gemm c) := fun _ _ e => nomatch e
theorem vec (c : CoreRef) : Statement (.vec c) := fun _ _ e => nomatch e
theorem norm (c : CoreRef) : Statement (.norm c) := fun _ _ e => nomatch e
theorem softmax (c : CoreRef) : Statement (.softmax c) := fun _ _ e => nomatch e
theorem topk (c : CoreRef) : Statement (.topk c) := fun _ _ e => nomatch e
theorem narrow (c : CoreRef) : Statement (.narrow c) := fun _ _ e => nomatch e
theorem spireCompletion (c : CoreRef) : Statement (.spireCompletion c) := fun _ _ e => nomatch e
theorem fill (c : CoreRef) : Statement (.fill c) := fun _ _ e => nomatch e
theorem copy (c : CoreRef) : Statement (.copy c) := fun _ _ e => nomatch e
theorem loadOp (c : StackCopy) : Statement (.loadOp c) := fun _ _ e => nomatch e
theorem storeOp (c : StackCopy) : Statement (.storeOp c) := fun _ _ e => nomatch e
theorem dmaCompletion (c : CoreRef) : Statement (.dmaCompletion c) := fun _ _ e => nomatch e
theorem marks (c : CoreMsg) : Statement (.marks c) := fun _ _ e => nomatch e
theorem gate (c : CoreRef) : Statement (.gate c) := fun _ _ e => nomatch e
theorem ungate (c : CoreRef) : Statement (.ungate c) := fun _ _ e => nomatch e
theorem sampleMessage (c : CoreMsg) : Statement (.sampleMessage c) := fun _ _ e => nomatch e
theorem deadline (i : Nat) : Statement (.deadline i) := fun _ _ e => nomatch e
theorem replayReturn (slot : Nat) (poisoned : Bool) : Statement (.replayReturn slot poisoned) := fun _ _ e => nomatch e
theorem pairDigest (n : Nat) : Statement (.pairDigest n) := fun _ _ e => nomatch e
theorem unitTestDone (unit : Nat) (passes : Bool) : Statement (.unitTestDone unit passes) := fun _ _ e => nomatch e
theorem unitReplacementDone (unit : Nat) : Statement (.unitReplacementDone unit) := fun _ _ e => nomatch e
theorem fieldRebuildDone (f : Nat) : Statement (.fieldRebuildDone f) := fun _ _ e => nomatch e
theorem reductionPacket (n : EdgeMsg) : Statement (.reductionPacket n) := fun _ _ e => nomatch e
theorem rollingDrainDone (p : Nat) : Statement (.rollingDrainDone p) := fun _ _ e => nomatch e
theorem rollingRewriteDone (p : Nat) : Statement (.rollingRewriteDone p) := fun _ _ e => nomatch e
theorem rollingCloseDone (p : Nat) : Statement (.rollingCloseDone p) := fun _ _ e => nomatch e
theorem ssOpen (h : Hdr) (o : OpenParams) : Statement (.ssOpen h o) := by
  intro w k e
  cases e
  first | exact w | exact left w | exact left (left w) | exact left (left (left w)) | exact left (left (left (left w)))
theorem ssClose (h : Hdr) : Statement (.ssClose h) := by
  intro w k e
  cases e
  first | exact w | exact left w | exact left (left w) | exact left (left (left w)) | exact left (left (left (left w)))
theorem ssTakeover (h : Hdr) : Statement (.ssTakeover h) := by
  intro w k e
  cases e
  first | exact w | exact left w | exact left (left w) | exact left (left (left w)) | exact left (left (left (left w)))
theorem ssEcho (h : Hdr) : Statement (.ssEcho h) := by
  intro w k e
  cases e
  first | exact w | exact left w | exact left (left w) | exact left (left (left w)) | exact left (left (left (left w)))
theorem ssAuthBegin (h : Hdr) (level : BitVec 8) (rsa slh : List Byte) : Statement (.ssAuthBegin h level rsa slh) := by
  intro w k e
  cases e
  first | exact w | exact left w | exact left (left w) | exact left (left (left w)) | exact left (left (left (left w)))
theorem ssAuthProve (h : Hdr) (rsaSig slhSig : List Byte) : Statement (.ssAuthProve h rsaSig slhSig) := by
  intro w k e
  cases e
  first | exact w | exact left w | exact left (left w) | exact left (left (left w)) | exact left (left (left (left w)))
theorem ssAuthClaim (h : Hdr) (rsaSig slhSig : List Byte) : Statement (.ssAuthClaim h rsaSig slhSig) := by
  intro w k e
  cases e
  first | exact w | exact left w | exact left (left w) | exact left (left (left w)) | exact left (left (left (left w)))
theorem nonceExpiry (conn : Nat) : Statement (.nonceExpiry conn) := fun _ _ e => nomatch e
theorem authLockoutExpiry (conn : Nat) : Statement (.authLockoutExpiry conn) := fun _ _ e => nomatch e
theorem mgInfo (h : Hdr) : Statement (.mgInfo h) := by
  intro w k e
  cases e
  first | exact w | exact left w | exact left (left w) | exact left (left (left w)) | exact left (left (left (left w)))
theorem mgPowerSet (h : Hdr) (power array : Word) (rho : BitVec 16) : Statement (.mgPowerSet h power array rho) := by
  intro w k e
  cases e
  first | exact w | exact left w | exact left (left w) | exact left (left (left w)) | exact left (left (left (left w)))
theorem mgPowerGet (h : Hdr) : Statement (.mgPowerGet h) := by
  intro w k e
  cases e
  first | exact w | exact left w | exact left (left w) | exact left (left (left w)) | exact left (left (left (left w)))
theorem mgPolicySet (h : Hdr) (mode depth : BitVec 8) (coldMin : Word) : Statement (.mgPolicySet h mode depth coldMin) := by
  intro w k e
  cases e
  first | exact w | exact left w | exact left (left w) | exact left (left (left w)) | exact left (left (left (left w)))
theorem mgSelftest (h : Hdr) (p : SelfTestParams) : Statement (.mgSelftest h p) := by
  intro w k e
  cases e
  first | exact w | exact left w | exact left (left w) | exact left (left (left w)) | exact left (left (left (left w)))
theorem selftestComplete (n : Nat) (results : List (Word × BitVec 8 × BitVec 8)) : Statement (.selftestComplete n results) := fun _ _ e => nomatch e
theorem mgReset (h : Hdr) (fast skipFill : Bool) : Statement (.mgReset h fast skipFill) := by
  intro w k e
  cases e
  first | exact w | exact left w | exact left (left w) | exact left (left (left w)) | exact left (left (left (left w)))
theorem prSetEntries (h : Hdr) (first : Nat) (entries : List ProtEntry) : Statement (.prSetEntries h first entries) := by
  intro w k e
  cases e
  first | exact w | exact left w | exact left (left w) | exact left (left (left w)) | exact left (left (left (left w)))
theorem prSetCoreMap (h : Hdr) (first : Nat) (bytes : List Byte) : Statement (.prSetCoreMap h first bytes) := by
  intro w k e
  cases e
  first | exact w | exact left w | exact left (left w) | exact left (left (left w)) | exact left (left (left (left w)))
theorem prSetOwnerKey (h : Hdr) (rsa slh : List Byte) : Statement (.prSetOwnerKey h rsa slh) := by
  intro w k e
  cases e
  first | exact w | exact left w | exact left (left w) | exact left (left (left w)) | exact left (left (left (left w)))
theorem prSetFirmware (h : Hdr) (last commitSvn : Bool) (first : Nat) (bytes : List Byte) : Statement (.prSetFirmware h last commitSvn first bytes) := by
  intro w k e
  cases e
  first | exact w | exact left w | exact left (left w) | exact left (left (left w)) | exact left (left (left (left w)))
theorem coreClear (c : CoreRef) : Statement (.coreClear c) := fun _ _ e => nomatch e
theorem prGet (h : Hdr) (op : BitVec 8) (first count : Nat) : Statement (.prGet h op first count) := by
  intro w k e
  cases e
  first | exact w | exact left w | exact left (left w) | exact left (left (left w)) | exact left (left (left (left w)))
theorem prAttest (h : Hdr) (nonce : List Byte) (mask : U64) : Statement (.prAttest h nonce mask) := by
  intro w k e
  cases e
  first | exact w | exact left w | exact left (left w) | exact left (left (left w)) | exact left (left (left (left w)))
theorem wtOpen (h : Hdr) (staging manLen : Nat) (bytes : List Byte) : Statement (.wtOpen h staging manLen bytes) := by
  intro w k e
  cases e
  first | exact w | exact left w | exact left (left w) | exact left (left (left w)) | exact left (left (left (left w)))
theorem wtShard (h : Hdr) (edition : BitVec 16) (index offset shardLen : Nat) (bytes : List Byte) : Statement (.wtShard h edition index offset shardLen bytes) := by
  intro w k e
  cases e
  first | exact w | exact left w | exact left (left w) | exact left (left (left w)) | exact left (left (left (left w)))
theorem wtClose (h : Hdr) (edition : BitVec 16) : Statement (.wtClose h edition) := by
  intro w k e
  cases e
  first | exact w | exact left w | exact left (left w) | exact left (left (left w)) | exact left (left (left (left w)))
theorem wtSwitchShadow (h : Hdr) (edition : BitVec 16) (earliest : U64) : Statement (.wtSwitchShadow h edition earliest) := by
  intro w k e
  cases e
  first | exact w | exact left w | exact left (left w) | exact left (left (left w)) | exact left (left (left (left w)))
theorem wtSwitchRolling (h : Hdr) (edition : BitVec 16) (how : BitVec 16) (earliest : U64) : Statement (.wtSwitchRolling h edition how earliest) := by
  intro w k e
  cases e
  first | exact w | exact left w | exact left (left w) | exact left (left (left w)) | exact left (left (left (left w)))
theorem wtRetire (h : Hdr) (edition : BitVec 16) (policy : BitVec 8) : Statement (.wtRetire h edition policy) := by
  intro w k e
  cases e
  first | exact w | exact left w | exact left (left w) | exact left (left (left w)) | exact left (left (left (left w)))
theorem wtAbort (h : Hdr) (edition : BitVec 16) : Statement (.wtAbort h edition) := by
  intro w k e
  cases e
  first | exact w | exact left w | exact left (left w) | exact left (left (left w)) | exact left (left (left (left w)))
theorem wtStatus (h : Hdr) (edition : BitVec 16) : Statement (.wtStatus h edition) := by
  intro w k e
  cases e
  first | exact w | exact left w | exact left (left w) | exact left (left (left w)) | exact left (left (left (left w)))
theorem svAdmit (h : Hdr) (d : Desc) : Statement (.svAdmit h d) := by
  intro w k e
  cases e
  first | exact w | exact left w | exact left (left w) | exact left (left (left w)) | exact left (left (left (left w)))
theorem svKvOpen (h : Hdr) (d : Desc) : Statement (.svKvOpen h d) := by
  intro w k e
  cases e
  first | exact w | exact left w | exact left (left w) | exact left (left (left w)) | exact left (left (left (left w)))
theorem svCancel (h : Hdr) : Statement (.svCancel h) := by
  intro w k e
  cases e
  first | exact w | exact left w | exact left (left w) | exact left (left (left w)) | exact left (left (left (left w)))
theorem svFinish (h : Hdr) : Statement (.svFinish h) := by
  intro w k e
  cases e
  first | exact w | exact left w | exact left (left w) | exact left (left (left w)) | exact left (left (left (left w)))
theorem svPause (h : Hdr) : Statement (.svPause h) := by
  intro w k e
  cases e
  first | exact w | exact left w | exact left (left w) | exact left (left (left w)) | exact left (left (left (left w)))
theorem svResume (h : Hdr) : Statement (.svResume h) := by
  intro w k e
  cases e
  first | exact w | exact left w | exact left (left w) | exact left (left (left w)) | exact left (left (left (left w)))
theorem svStatus (h : Hdr) : Statement (.svStatus h) := by
  intro w k e
  cases e
  first | exact w | exact left w | exact left (left w) | exact left (left (left w)) | exact left (left (left (left w)))
theorem svRingAck (h : Hdr) (total : Word) : Statement (.svRingAck h total) := by
  intro w k e
  cases e
  first | exact w | exact left w | exact left (left w) | exact left (left (left w)) | exact left (left (left (left w)))
theorem svClassSet (h : Hdr) (cls : BitVec 8) (r : ClassRec) : Statement (.svClassSet h cls r) := by
  intro w k e
  cases e
  first | exact w | exact left w | exact left (left w) | exact left (left (left w)) | exact left (left (left (left w)))
theorem svRole (h : Hdr) (role : BitVec 8) : Statement (.svRole h role) := by
  intro w k e
  cases e
  first | exact w | exact left w | exact left (left w) | exact left (left (left w)) | exact left (left (left (left w)))
theorem svGrammarLoad (h : Hdr) (offset : U64) : Statement (.svGrammarLoad h offset) := by
  intro w k e
  cases e
  first | exact w | exact left w | exact left (left w) | exact left (left (left w)) | exact left (left (left (left w)))
theorem svSteerLoad (h : Hdr) (index : Word) (offset : U64) : Statement (.svSteerLoad h index offset) := by
  intro w k e
  cases e
  first | exact w | exact left w | exact left (left w) | exact left (left (left w)) | exact left (left (left (left w)))
theorem svKvResend (h : Hdr) (pages : List Word) : Statement (.svKvResend h pages) := by
  intro w k e
  cases e
  first | exact w | exact left w | exact left (left w) | exact left (left (left w)) | exact left (left (left (left w)))
theorem mmCreate (h : Hdr) (sel : BitVec 8) (fill : Bool) (stackSet : BitVec 24) (size : U64) : Statement (.mmCreate h sel fill stackSet size) := by
  intro w k e
  cases e
  first | exact w | exact left w | exact left (left w) | exact left (left (left w)) | exact left (left (left (left w)))
theorem mmDelete (h : Hdr) (sel : BitVec 8) : Statement (.mmDelete h sel) := by
  intro w k e
  cases e
  first | exact w | exact left w | exact left (left w) | exact left (left (left w)) | exact left (left (left (left w)))
theorem mmInfo (h : Hdr) : Statement (.mmInfo h) := by
  intro w k e
  cases e
  first | exact w | exact left w | exact left (left w) | exact left (left (left w)) | exact left (left (left (left w)))
theorem mmWrite (h : Hdr) (edition : BitVec 16) (addr : U64) (bytes : List Byte) : Statement (.mmWrite h edition addr bytes) := by
  intro w k e
  cases e
  first | exact w | exact left w | exact left (left w) | exact left (left (left w)) | exact left (left (left (left w)))
theorem mmRead (h : Hdr) (edition : BitVec 16) (addr : U64) (length : Nat) : Statement (.mmRead h edition addr length) := by
  intro w k e
  cases e
  first | exact w | exact left w | exact left (left w) | exact left (left (left w)) | exact left (left (left (left w)))
theorem mmMarkInit (h : Hdr) (sel : BitVec 8) : Statement (.mmMarkInit h sel) := by
  intro w k e
  cases e
  first | exact w | exact left w | exact left (left w) | exact left (left (left w)) | exact left (left (left (left w)))
theorem dbStop (h : Hdr) : Statement (.dbStop h) := by
  intro w k e
  cases e
  first | exact w | exact left w | exact left (left w) | exact left (left (left w)) | exact left (left (left (left w)))
theorem stopSettleDone : Statement .stopSettleDone := fun _ _ e => nomatch e
theorem dbStopNow (h : Hdr) : Statement (.dbStopNow h) := by
  intro w k e
  cases e
  first | exact w | exact left w | exact left (left w) | exact left (left (left w)) | exact left (left (left (left w)))
theorem stopNowArrival (f : Nat) : Statement (.stopNowArrival f) := fun _ _ e => nomatch e
theorem fieldSnapshotLatch (f : Nat) : Statement (.fieldSnapshotLatch f) := fun _ _ e => nomatch e
theorem dbGo (h : Hdr) : Statement (.dbGo h) := by
  intro w k e
  cases e
  first | exact w | exact left w | exact left (left w) | exact left (left (left w)) | exact left (left (left (left w)))
theorem dbWatchSet (h : Hdr) (c : CoreRef) (w : WatchRegs) : Statement (.dbWatchSet h c w) := by
  intro w k e
  cases e
  first | exact w | exact left w | exact left (left w) | exact left (left (left w)) | exact left (left (left (left w)))
theorem dbCoreRead (h : Hdr) (c : CoreRef) : Statement (.dbCoreRead h c) := by
  intro w k e
  cases e
  first | exact w | exact left w | exact left (left w) | exact left (left (left w)) | exact left (left (left (left w)))
theorem dbCoreGo (h : Hdr) (c : CoreRef) (step : Bool) : Statement (.dbCoreGo h c step) := by
  intro w k e
  cases e
  first | exact w | exact left w | exact left (left w) | exact left (left (left w)) | exact left (left (left (left w)))
theorem dbTraceRead (h : Hdr) (f : Nat) (first count : Nat) (consume : Bool) : Statement (.dbTraceRead h f first count consume) := by
  intro w k e
  cases e
  first | exact w | exact left w | exact left (left w) | exact left (left (left w)) | exact left (left (left (left w)))
theorem dbTraceConfigure (h : Hdr) (f : Nat) (fill freezeFault freezeHalt : Bool) : Statement (.dbTraceConfigure h f fill freezeFault freezeHalt) := by
  intro w k e
  cases e
  first | exact w | exact left w | exact left (left w) | exact left (left (left w)) | exact left (left (left (left w)))
theorem dbTraceClear (h : Hdr) (f : Nat) : Statement (.dbTraceClear h f) := by
  intro w k e
  cases e
  first | exact w | exact left w | exact left (left w) | exact left (left (left w)) | exact left (left (left (left w)))
theorem dbDigestSet (h : Hdr) (p : ProbeParams) : Statement (.dbDigestSet h p) := by
  intro w k e
  cases e
  first | exact w | exact left w | exact left (left w) | exact left (left (left w)) | exact left (left (left (left w)))
theorem dbDigestClear (h : Hdr) (probe : BitVec 8) : Statement (.dbDigestClear h probe) := by
  intro w k e
  cases e
  first | exact w | exact left w | exact left (left w) | exact left (left (left w)) | exact left (left (left (left w)))
theorem dbDigestClearAll (h : Hdr) : Statement (.dbDigestClearAll h) := by
  intro w k e
  cases e
  first | exact w | exact left w | exact left (left w) | exact left (left (left w)) | exact left (left (left (left w)))
theorem digestRecord : Statement .digestRecord := fun _ _ e => nomatch e
theorem hlConfig (h : Hdr) (filter : List (BitVec 8)) : Statement (.hlConfig h filter) := by
  intro w k e
  cases e
  first | exact w | exact left w | exact left (left w) | exact left (left (left w)) | exact left (left (left (left w)))
theorem hlCounters (h : Hdr) (scope : BitVec 8) (index : Word) (first count : Nat) : Statement (.hlCounters h scope index first count) := by
  intro w k e
  cases e
  first | exact w | exact left w | exact left (left w) | exact left (left (left w)) | exact left (left (left (left w)))
theorem hlRepairMap (h : Hdr) : Statement (.hlRepairMap h) := by
  intro w k e
  cases e
  first | exact w | exact left w | exact left (left w) | exact left (left (left w)) | exact left (left (left (left w)))
theorem hlLedgerRead (h : Hdr) : Statement (.hlLedgerRead h) := by
  intro w k e
  cases e
  first | exact w | exact left w | exact left (left w) | exact left (left (left w)) | exact left (left (left (left w)))
theorem hlFaults (h : Hdr) (first count : Nat) : Statement (.hlFaults h first count) := by
  intro w k e
  cases e
  first | exact w | exact left w | exact left (left w) | exact left (left (left w)) | exact left (left (left (left w)))
theorem hlBelfry (h : Hdr) (f : Nat) : Statement (.hlBelfry h f) := by
  intro w k e
  cases e
  first | exact w | exact left w | exact left (left w) | exact left (left (left w)) | exact left (left (left (left w)))
theorem fbPortSet (h : Hdr) (port : Nat) (r : PortRec) : Statement (.fbPortSet h port r) := by
  intro w k e
  cases e
  first | exact w | exact left w | exact left (left w) | exact left (left (left w)) | exact left (left (left (left w)))
theorem fbRouteSet (h : Hdr) (r : RouteRec) : Statement (.fbRouteSet h r) := by
  intro w k e
  cases e
  first | exact w | exact left w | exact left (left w) | exact left (left (left w)) | exact left (left (left (left w)))
theorem fbJobCreate (h : Hdr) (id : Nat) (epoch : BitVec 8) (floor : Nat) (members : List Nat) : Statement (.fbJobCreate h id epoch floor members) := by
  intro w k e
  cases e
  first | exact w | exact left w | exact left (left w) | exact left (left (left w)) | exact left (left (left (left w)))
theorem fbJobQuery (h : Hdr) (id : Nat) : Statement (.fbJobQuery h id) := by
  intro w k e
  cases e
  first | exact w | exact left w | exact left (left w) | exact left (left (left w)) | exact left (left (left (left w)))
theorem fbJobEnd (h : Hdr) (id : Nat) : Statement (.fbJobEnd h id) := by
  intro w k e
  cases e
  first | exact w | exact left w | exact left (left w) | exact left (left (left w)) | exact left (left (left (left w)))
theorem fbBarrier (h : Hdr) (job : Nat) (number : BitVec 16) (timeout : Nat) : Statement (.fbBarrier h job number timeout) := by
  intro w k e
  cases e
  first | exact w | exact left w | exact left (left w) | exact left (left (left w)) | exact left (left (left (left w)))
theorem fbReduce (h : Hdr) (p : ReduceParams) : Statement (.fbReduce h p) := by
  intro w k e
  cases e
  first | exact w | exact left w | exact left (left w) | exact left (left (left w)) | exact left (left (left (left w)))
theorem fbMcast (h : Hdr) (p : McastParams) : Statement (.fbMcast h p) := by
  intro w k e
  cases e
  first | exact w | exact left w | exact left (left w) | exact left (left (left w)) | exact left (left (left (left w)))
theorem fbStatus (h : Hdr) : Statement (.fbStatus h) := by
  intro w k e
  cases e
  first | exact w | exact left w | exact left (left w) | exact left (left (left w)) | exact left (left (left (left w)))
theorem fbTime (h : Hdr) (module : Nat) : Statement (.fbTime h module) := by
  intro w k e
  cases e
  first | exact w | exact left w | exact left (left w) | exact left (left (left w)) | exact left (left (left (left w)))
theorem asModeSet (h : Hdr) (modes : BitVec 8) : Statement (.asModeSet h modes) := by
  intro w k e
  cases e
  first | exact w | exact left w | exact left (left w) | exact left (left (left w)) | exact left (left (left (left w)))
theorem asAnswer (h : Hdr) (id : Word) (fn : BitVec 8) (body : List Byte) : Statement (.asAnswer h id fn body) := by
  intro w k e
  cases e
  first | exact w | exact left w | exact left (left w) | exact left (left (left w)) | exact left (left (left (left w)))
theorem assistDeadline (id : Word) : Statement (.assistDeadline id) := fun _ _ e => nomatch e
theorem dataFrame (conn : Nat) (fr : Frame) : Statement (.dataFrame conn fr) := fun _ _ e => nomatch e
theorem linkControlFrame (conn : Nat) (fr : Frame) : Statement (.linkControlFrame conn fr) := fun _ _ e => nomatch e
theorem nakFrame (conn : Nat) (stream : Nat) (n : NakHead) : Statement (.nakFrame conn stream n) := fun _ _ e => nomatch e
theorem hello (conn : Nat) (lo hi : BitVec 16) (credits : List Nat) : Statement (.hello conn lo hi credits) := fun _ _ e => nomatch e
theorem helloRetry (conn : Nat) : Statement (.helloRetry conn) := fun _ _ e => nomatch e
theorem idleFrameTimer (conn : Nat) : Statement (.idleFrameTimer conn) := fun _ _ e => nomatch e
theorem connectorDown (conn : Nat) : Statement (.connectorDown conn) := fun _ _ e => nomatch e
theorem connectorTrained (conn : Nat) : Statement (.connectorTrained conn) := fun _ _ e => nomatch e
theorem sessionResumeExpiry (conn : Nat) : Statement (.sessionResumeExpiry conn) := fun _ _ e => nomatch e
theorem dataWrite (port : Nat) (p : FabPkt) : Statement (.dataWrite port p) := fun _ _ e => nomatch e
theorem dataAcknowledgement (port : Nat) (p : FabPkt) : Statement (.dataAcknowledgement port p) := fun _ _ e => nomatch e
theorem kvManifest (port : Nat) (p : FabPkt) : Statement (.kvManifest port p) := fun _ _ e => nomatch e
theorem kvPage (port : Nat) (p : FabPkt) : Statement (.kvPage port p) := fun _ _ e => nomatch e
theorem kvNakTimer (i : Nat) : Statement (.kvNakTimer i) := fun _ _ e => nomatch e
theorem kvDone (port : Nat) (p : FabPkt) : Statement (.kvDone port p) := fun _ _ e => nomatch e
theorem kvNak (port : Nat) (p : FabPkt) : Statement (.kvNak port p) := fun _ _ e => nomatch e
theorem barrierArrive (port : Nat) (p : FabPkt) : Statement (.barrierArrive port p) := fun _ _ e => nomatch e
theorem barrierRelease (port : Nat) (p : FabPkt) : Statement (.barrierRelease port p) := fun _ _ e => nomatch e
theorem barrierTimeout (job : Nat) : Statement (.barrierTimeout job) := fun _ _ e => nomatch e
theorem reductionPartial (port : Nat) (p : FabPkt) : Statement (.reductionPartial port p) := fun _ _ e => nomatch e
theorem reductionResult (port : Nat) (p : FabPkt) : Statement (.reductionResult port p) := fun _ _ e => nomatch e
theorem multicastData (port : Nat) (p : FabPkt) : Statement (.multicastData port p) := fun _ _ e => nomatch e
theorem multicastStatus (port : Nat) (p : FabPkt) : Statement (.multicastStatus port p) := fun _ _ e => nomatch e
theorem mcastTimeout (job : Nat) : Statement (.mcastTimeout job) := fun _ _ e => nomatch e
theorem timeProbe (port : Nat) (p : FabPkt) (t2 t3 : U64) : Statement (.timeProbe port p t2 t3) := fun _ _ e => nomatch e
theorem timeReply (port : Nat) (p : FabPkt) (t4 : U64) : Statement (.timeReply port p t4) := fun _ _ e => nomatch e
theorem timeMeasurement (port : Nat) (exchanges : List (U64 × U64 × U64 × U64)) : Statement (.timeMeasurement port exchanges) := fun _ _ e => nomatch e
theorem laneFailure (port lane : Nat) : Statement (.laneFailure port lane) := fun _ _ e => nomatch e
theorem portRetrainDone (port : Nat) : Statement (.portRetrainDone port) := fun _ _ e => nomatch e
theorem portUp (port : Nat) (peer offer good : Nat) : Statement (.portUp port peer offer good) := fun _ _ e => nomatch e
theorem feedValid : Statement .feedValid := fun _ _ e => nomatch e
theorem hotSwapCharged : Statement .hotSwapCharged := fun _ _ e => nomatch e
theorem timebaseLock (aOk bOk agree : Bool) : Statement (.timebaseLock aOk bOk agree) := fun _ _ e => nomatch e
theorem bootChain (goodLedgerFields : List Nat) : Statement (.bootChain goodLedgerFields) := fun _ _ e => nomatch e
theorem fieldBringup (f : Nat) (p : FieldProbe) : Statement (.fieldBringup f p) := fun _ _ e => nomatch e
theorem stackTraining (k : Nat) (ok : Bool) : Statement (.stackTraining k ok) := fun _ _ e => nomatch e
theorem stackFillDone (k : Nat) (bad : List Nat) : Statement (.stackFillDone k bad) := fun _ _ e => nomatch e
theorem serviceSet : Statement .serviceSet := fun _ _ e => nomatch e
theorem coreRelease : Statement .coreRelease := fun _ _ e => nomatch e
theorem powerFail (milli : Nat) : Statement (.powerFail milli) := fun _ _ e => nomatch e
theorem powerFailOff : Statement .powerFailOff := fun _ _ e => nomatch e
theorem handoffWrite (n : EdgeMsg) : Statement (.handoffWrite n) := fun _ _ e => nomatch e
theorem ledgerCommit : Statement .ledgerCommit := fun _ _ e => nomatch e
theorem ledgerSnapshotDone : Statement .ledgerSnapshotDone := fun _ _ e => nomatch e
theorem ledgerCopyRebuilt (copyB : Bool) : Statement (.ledgerCopyRebuilt copyB) := fun _ _ e => nomatch e
theorem fieldAwake (f : Nat) : Statement (.fieldAwake f) := fun _ _ e => nomatch e
theorem sleepEntryDone (f : Nat) : Statement (.sleepEntryDone f) := fun _ _ e => nomatch e
theorem connectorLaneFailure (conn lane : Nat) : Statement (.connectorLaneFailure conn lane) := fun _ _ e => nomatch e
theorem nodeClockOffset (conn : Nat) (exchanges : List (U64 × U64 × U64 × U64)) : Statement (.nodeClockOffset conn exchanges) := fun _ _ e => nomatch e
theorem extentCleared (k extent : Nat) : Statement (.extentCleared k extent) := fun _ _ e => nomatch e

end Sys2Proof.Laws.WellFormedHeader
end

