-- ==== Sys2Proof/Laws/Reply.lean ====
section
/-! SUPPORT. What a reply does: an accepted command's reply stands on stream 2 of its connector, whatever is sent after it. -/

namespace Sys2Proof.Machine

/-- Whether a packet waits on a stream or is unacknowledged. -/
def TxStream.holds (t : TxStream) (p : OutPkt) : Prop := p ∈ t.queue ∨ ∃ n, (n, p) ∈ t.unacked

theorem State.sent_iff (s : State) (c k : Nat) (p : OutPkt) : s.sent c k p ↔ ((s.conn c).tx.find k {}).holds p := Iff.rfl

/-- Sending from the queue loses no packet. -/
theorem pumpQueue_holds (link : BitVec 16) (held : Nat) (p : OutPkt) (q : List OutPkt) (t : TxStream)
    (h : p ∈ q ∨ ∃ n, (n, p) ∈ t.unacked) : (pumpQueue link held q t).holds p := by
  induction q generalizing t with
  | nil =>
    rcases h with h | h
    · cases h
    · exact Or.inr h
  | cons a q ih =>
    unfold pumpQueue
    split
    · apply ih
      rcases h with h | ⟨n, h⟩
      · rcases List.mem_cons.mp h with rfl | h
        · exact Or.inr ⟨_, List.mem_append_right _ (List.mem_singleton.mpr rfl)⟩
        · exact Or.inl h
      · exact Or.inr ⟨n, List.mem_append_left _ h⟩
    · exact h

/-- Sending packets of a stream ahead of others loses none of either, and none that the stream had sent. -/
theorem Connector.push_holds (c : Connector) (j k : Nat) (ps rest : List OutPkt) (now : U64) (p : OutPkt)
    (h : (c.tx.find k {}).holds p → k = j → p ∈ ps ∨ p ∈ rest ∨ ∃ n, (n, p) ∈ (c.tx.find k {}).unacked)
    (b : (c.tx.find k {}).holds p ∨ k = j ∧ p ∈ ps) : ((c.push j ps rest now).tx.find k {}).holds p := by
  unfold Connector.push
  dsimp only
  by_cases e : k = j
  · subst e
    rw [Map.find_put_self]
    have q : p ∈ ps ∨ p ∈ rest ∨ ∃ n, (n, p) ∈ (c.tx.find k {}).unacked := b.elim (fun b => h b rfl) (fun b => Or.inl b.2)
    rcases q with q | q | q
    · rcases pumpQueue_holds c.link (c.heldOther k) p ps (c.tx.find k {}) (Or.inl q) with g | g
      · exact Or.inl (List.mem_append_left _ g)
      · exact Or.inr g
    · exact Or.inl (List.mem_append_right _ q)
    · rcases pumpQueue_holds c.link (c.heldOther k) p ps (c.tx.find k {}) (Or.inr q) with g | g
      · exact Or.inl (List.mem_append_left _ g)
      · exact Or.inr g
  · rw [Map.find_put_ne _ _ _ _ _ e]
    exact b.elim id (fun b => absurd b.1 e)

theorem Connector.pump_holds (c : Connector) (j k : Nat) (now : U64) (p : OutPkt) (h : (c.tx.find k {}).holds p) :
    ((c.pump j now).tx.find k {}).holds p := by
  unfold Connector.pump
  split
  · refine Connector.push_holds _ _ _ _ _ _ _ (fun h e => ?_) (Or.inl h)
    subst e
    exact h.elim Or.inl (fun h => Or.inr (Or.inr h))
  · exact h

/-- Putting a change on a connector that keeps its streams' packets keeps what was sent. -/
theorem State.updConn_sent (s : State) (d c k : Nat) (g : Connector → Connector) (p : OutPkt)
    (hg : ((s.conn d).tx.find k {}).holds p → ((g (s.conn d)).tx.find k {}).holds p) (h : s.sent c k p) :
    (s.updConn d g).sent c k p := by
  rw [State.sent_iff] at h ⊢
  by_cases e : c = d
  · subst e
    rw [State.updConn_conn]
    exact hg h
  · rw [State.updConn_conn_ne _ _ _ _ e]
    exact h

theorem State.updSess_sent (s : State) (d c k : Nat) (g : Session → Session) (p : OutPkt) (h : s.sent c k p) :
    (s.updSess d g).sent c k p :=
  State.updConn_sent _ _ _ _ _ _ (fun h => h) h

theorem State.pumpOn_sent (s : State) (d j c k : Nat) (p : OutPkt) (h : s.sent c k p) : (s.pumpOn d j).sent c k p := by
  unfold State.pumpOn
  exact State.updConn_sent _ _ _ _ _ _ (fun h => Connector.pump_holds _ _ _ _ _ h) h

theorem State.pumpAll_sent (s : State) (d c k : Nat) (p : OutPkt) (h : s.sent c k p) : (s.pumpAll d).sent c k p :=
  State.pumpOn_sent _ _ _ _ _ _ (State.pumpOn_sent _ _ _ _ _ _ (State.pumpOn_sent _ _ _ _ _ _ h))

theorem mem_eraseIdx {α : Type} (f : α → Bool) (p : α) (q : List α) (i : Nat) (hf : f p = false)
    (hi : q.findIdx? f = some i) (h : p ∈ q) : p ∈ q.eraseIdx i := by
  induction q generalizing i with
  | nil => cases h
  | cons a q ih =>
    rw [List.findIdx?_cons] at hi
    by_cases ha : f a = true
    · rw [if_pos ha] at hi
      cases hi
      rcases List.mem_cons.mp h with rfl | h
      · rw [hf] at ha; cases ha
      · exact h
    · rw [if_neg ha] at hi
      cases hq : q.findIdx? f with
      | none => rw [hq] at hi; cases hi
      | some j =>
        rw [hq] at hi
        cases hi
        rw [List.eraseIdx_cons_succ]
        rcases List.mem_cons.mp h with rfl | h
        · exact List.mem_cons_self ..
        · exact List.mem_cons_of_mem _ (ih j hq h)

/-- R338: only reports are discarded. -/
theorem trimReports_mem (n : Nat) (q : List OutPkt) (p : OutPkt) (hp : p.report = false) (h : p ∈ q) :
    p ∈ (trimReports n q).1 := by
  induction n generalizing q with
  | zero => exact h
  | succ n ih =>
    unfold trimReports
    split
    · split
      · next i hi => exact ih _ (mem_eraseIdx _ _ _ _ hp hi h)
      · exact h
    · exact h

theorem State.sent_alaok (s t : State) (e : t.alaok.conns = s.alaok.conns) (c k : Nat) (p : OutPkt) :
    t.sent c k p ↔ s.sent c k p := by
  unfold State.sent State.conn
  rw [e]

theorem State.discards_sent (s : State) (n c k : Nat) (p : OutPkt) :
    State.sent { s with alaok := { s.alaok with discards := n } } c k p ↔ s.sent c k p := Iff.rfl

/-- What was sent stays sent when another packet follows, unless it is a report. -/
theorem State.sendOn_sent (s : State) (d c k : Nat) (q p : OutPkt) (hp : p.report = false) (h : s.sent c k p) :
    (s.sendOn d q).sent c k p := by
  unfold State.sendOn
  refine (State.discards_sent _ _ _ _ _).mpr ?_
  refine State.pumpAll_sent _ _ _ _ _ ?_
  refine State.updConn_sent _ _ _ _ _ _ (fun h => ?_) h
  dsimp only
  by_cases e : k = streamOf q.op
  · subst e
    rw [Map.find_put_self]
    rcases h with h | h
    · left
      dsimp only
      split
      · exact List.mem_append_left _ h
      · exact trimReports_mem _ _ _ hp (List.mem_append_left _ h)
    · exact Or.inr h
  · rw [Map.find_put_ne _ _ _ _ _ e]
    exact h

/-- A packet that is sent stands on its stream. -/
theorem State.sendOn_self (s : State) (c : Nat) (p : OutPkt) (hp : p.report = false) :
    (s.sendOn c p).sent c (streamOf p.op) p := by
  unfold State.sendOn
  refine (State.discards_sent _ _ _ _ _).mpr ?_
  refine State.pumpAll_sent _ _ _ _ _ ?_
  rw [State.sent_iff, State.updConn_conn]
  dsimp only
  rw [Map.find_put_self]
  left
  dsimp only
  split
  · exact List.mem_append_right _ (List.mem_singleton.mpr rfl)
  · exact trimReports_mem _ _ _ hp (List.mem_append_right _ (List.mem_singleton.mpr rfl))

theorem State.answer_sent_mono (s : State) (d c k : Nat) (tag : Word) (final : Bool) (st de : Nat) (req : Option Word)
    (body : List Byte) (p : OutPkt) (hp : p.report = false) (h : s.sent c k p) :
    (s.answer d tag final st de req body).sent c k p := by
  unfold State.answer
  split
  · exact (State.sent_alaok _ _ rfl c k p).mpr h
  · split
    · exact h
    · refine State.sendOn_sent _ _ _ _ _ _ hp ?_
      split
      · exact State.updSess_sent _ _ _ _ _ _ h
      · exact h

/-- R322, R338: a refusal stands on stream 2 of its connector, past what waits for a suspended session. -/
theorem State.sendRefusal_self (s : State) (c : Nat) (p : OutPkt) (hp : p.report = false) :
    (s.sendRefusal c p).sent c (streamOf p.op) p := by
  unfold State.sendRefusal
  split
  · unfold State.sendPast
    rw [State.sent_iff, State.updConn_conn]
    exact Connector.push_holds _ _ _ _ _ _ _ (fun _ _ => Or.inl (List.mem_singleton.mpr rfl))
      (Or.inr ⟨rfl, List.mem_singleton.mpr rfl⟩)
  · exact State.sendOn_self _ _ _ hp

/-- The commands of Table 11-7 answer on stream 2. -/
theorem CmdRow.streamOf_op (op : Nat) (h : op ≠ opAssist ∧ op ≠ opTerminus) : streamOf op = 2 := by
  unfold streamOf
  rw [if_neg h.1, if_neg h.2]

/-- R323: an answer to an outstanding command is sent where the command came from. -/
theorem State.answer_sent (s : State) (c : Nat) (tag : Word) (final : Bool) (st d : Nat) (req : Option Word)
    (body : List Byte) (o : Outst) (ho : (s.conn c).sess.outst.find? (fun x => x.is c tag) = some o)
    (hop : o.op ≠ opAssist ∧ o.op ≠ opTerminus) :
    (s.answer c tag final st d req body).sent c 2
      { op := o.op, final := final, partition := o.partition, cmdTag := tag, reqTag := req.getD o.reqTag, stamp := o.stamp,
        status := st, detail := d, body := body } := by
  have ha : (s.conn c).sess.outst.any (fun x => x.is c tag) = true := by
    rw [List.any_eq_true]
    exact ⟨o, List.mem_of_find?_eq_some ho, List.find?_some (p := fun (x : Outst) => x.is c tag) ho⟩
  unfold State.answer State.owedOn
  rw [if_pos ha]
  dsimp only
  rw [ho]
  dsimp only
  have h := State.sendOn_self (if final = true then s.updSess c (fun v => { v with outst := v.outst.filter (fun x => !x.is c tag) }) else s)
    c { op := o.op, final := final, partition := o.partition, cmdTag := tag, reqTag := req.getD o.reqTag, stamp := o.stamp,
        status := st, detail := d, body := body } rfl
  rw [CmdRow.streamOf_op _ hop] at h
  exact h

/-! The start of a command. -/

@[simp] theorem State.takePacket_conn (s : State) (h : Hdr) (c : Nat) : (s.takePacket h).conn c = s.conn c := by
  unfold State.takePacket State.conn
  dsimp only
  split <;> rfl

theorem State.countModule_conn (s : State) (k n c : Nat) : (s.countModule k n).conn c = s.conn c := by
  unfold State.conn
  rw [State.countModule_alaok]

/-- R323: an accepted command is the last one outstanding. -/
theorem State.taken_outst (s : State) (h : Hdr) (r : CmdRow) :
    ((s.taken h r).conn h.conn).sess.outst = (s.conn h.conn).sess.outst ++
      [{ op := r.op, cmdTag := h.cmdTag, partition := h.partition.toNat, reqTag := h.reqTag, stamp := s.stamp, conn := h.conn }] := by
  unfold State.taken State.owe State.updSess
  rw [State.updConn_conn]
  dsimp only
  rw [State.countModule_conn, State.takePacket_conn]
  have e : (s.takePacket h).stamp = s.stamp := by unfold State.stamp; rw [State.takePacket_clock]
  rw [e]

/-- R322 step 6: no outstanding command of the session has an accepted command's tag. -/
theorem State.accepts_fresh (s : State) (h : Hdr) (r : CmdRow) (len : Bool) (fields link : Nat)
    (a : s.accepts h r len fields link) : (s.conn h.conn).sess.outst.any (fun o => o.cmdTag = h.cmdTag) = false := by
  have c := a.2.2
  unfold State.checks at c
  rw [State.takePacket_conn] at c
  dsimp only at c
  revert c
  generalize (s.conn h.conn).sess.outst.any (fun o => decide (o.cmdTag = h.cmdTag)) = b
  cases b
  · intro _; rfl
  · simp only [Bool.true_or, if_true]
    (repeat' split) <;> simp

theorem State.taken_find (s : State) (h : Hdr) (r : CmdRow) (len : Bool) (fields link : Nat) (a : s.accepts h r len fields link) :
    ((s.taken h r).conn h.conn).sess.outst.find? (fun x => x.is h.conn h.cmdTag) =
      some { op := r.op, cmdTag := h.cmdTag, partition := h.partition.toNat, reqTag := h.reqTag, stamp := s.stamp, conn := h.conn } := by
  rw [State.taken_outst, List.find?_append]
  have f := State.accepts_fresh s h r len fields link a
  have n : (s.conn h.conn).sess.outst.find? (fun x => x.is h.conn h.cmdTag) = none := by
    rw [List.find?_eq_none]
    intro x hx
    have := (List.any_eq_false.mp f) x hx
    simp only [decide_eq_true_eq] at this
    simp [Outst.is, this]
  rw [n]
  simp [Outst.is]

/-- R323: a final answer to the command in hand, while nothing has changed which commands are outstanding on its connector. -/
theorem State.ok_replied (s u : State) (h : Hdr) (r : CmdRow) (len : Bool) (fields link st d : Nat) (body : List Byte)
    (a : s.accepts h r len fields link)
    (e : (u.conn h.conn).sess.outst = ((s.taken h r).conn h.conn).sess.outst)
    (hop : r.op ≠ opAssist ∧ r.op ≠ opTerminus) : (u.ok h st d body).replied s h r st d body := by
  have f := State.taken_find s h r len fields link a
  rw [← e] at f
  exact State.answer_sent u h.conn h.cmdTag true st d none body _ f hop

theorem State.interim_sent (s u : State) (h : Hdr) (r : CmdRow) (len : Bool) (fields link st d : Nat) (body : List Byte)
    (a : s.accepts h r len fields link)
    (e : (u.conn h.conn).sess.outst = ((s.taken h r).conn h.conn).sess.outst)
    (hop : r.op ≠ opAssist ∧ r.op ≠ opTerminus) : (u.interim h st d body).sent h.conn 2 (s.reply h r st false d body) := by
  have f := State.taken_find s h r len fields link a
  rw [← e] at f
  exact State.answer_sent u h.conn h.cmdTag false st d none body _ f hop

/-- R322: an accepted command runs its own decision on the state in which it is outstanding. -/
theorem State.command_accepted (s : State) (h : Hdr) (r : CmdRow) (len : Bool) (act : State → Verdict) (fields link : Nat)
    (body : State → List Byte) (a : s.accepts h r len fields link) :
    s.command h r len act fields link body =
      (match act (s.taken h r) with
        | .refuse st d b => (s.takePacket h).refuse h r st d b
        | .run t => t) := by
  obtain ⟨p, c, k⟩ := a
  unfold State.command
  rw [p, c]
  simp only [Bool.not_true, Bool.or_self, Bool.false_eq_true, if_false]
  rw [k]
  rfl

/-- An accepted command whose decision is to run. -/
theorem State.command_run (s : State) (h : Hdr) (r : CmdRow) (len : Bool) (act : State → Verdict) (fields link : Nat)
    (body : State → List Byte) (a : s.accepts h r len fields link) (t : State) (e : act (s.taken h r) = .run t) :
    s.command h r len act fields link body = t := by
  rw [State.command_accepted s h r len act fields link body a, e]

/-- R322: a command that fails a check is answered with that check's status. -/
theorem State.command_refused (s : State) (h : Hdr) (r : CmdRow) (len : Bool) (act : State → Verdict) (fields link st : Nat) (body : State → List Byte)
    (p : s.powered = true) (c : (s.conn h.conn).carries = true) (k : (s.takePacket h).checks h r len fields link = some st) :
    s.command h r len act fields link body = (s.takePacket h).refuse h r st 0 (if len then body (s.takePacket h) else []) := by
  unfold State.command
  rw [p, c]
  simp only [Bool.not_true, Bool.or_self, Bool.false_eq_true, if_false]
  rw [k]

/-- R313, R318: a packet on a connector that carries no frames, or with no power, changes nothing. -/
theorem State.command_dead (s : State) (h : Hdr) (r : CmdRow) (len : Bool) (act : State → Verdict) (fields link : Nat)
    (body : State → List Byte) (e : s.powered = false ∨ (s.conn h.conn).carries = false) : s.command h r len act fields link body = s := by
  unfold State.command
  rcases e with e | e <;> rw [e] <;> simp

/-! What the start of a command leaves alone. -/

theorem State.taken_fields (s : State) (h : Hdr) (r : CmdRow) : (s.taken h r).fields = s.fields := by simp [State.taken]
theorem State.taken_cores (s : State) (h : Hdr) (r : CmdRow) : (s.taken h r).cores = s.cores := by simp [State.taken]
theorem State.taken_stackSet (s : State) (h : Hdr) (r : CmdRow) : (s.taken h r).stackSet = s.stackSet := by simp [State.taken]
theorem State.taken_parts (s : State) (h : Hdr) (r : CmdRow) : (s.taken h r).parts = s.parts := by simp [State.taken]
theorem State.taken_editions (s : State) (h : Hdr) (r : CmdRow) : (s.taken h r).editions = s.editions := by simp [State.taken]
theorem State.taken_reqs (s : State) (h : Hdr) (r : CmdRow) : (s.taken h r).reqs = s.reqs := by simp [State.taken]
theorem State.taken_plan (s : State) (h : Hdr) (r : CmdRow) : (s.taken h r).plan = s.plan := by simp [State.taken]
theorem State.taken_ledger (s : State) (h : Hdr) (r : CmdRow) : (s.taken h r).ledger = s.ledger := by simp [State.taken]
theorem State.taken_fabric (s : State) (h : Hdr) (r : CmdRow) : (s.taken h r).fabric = s.fabric := by simp [State.taken]
theorem State.taken_stop (s : State) (h : Hdr) (r : CmdRow) : (s.taken h r).stop = s.stop := by simp [State.taken]
theorem State.taken_budget (s : State) (h : Hdr) (r : CmdRow) : (s.taken h r).budget = s.budget := by simp [State.taken]
theorem State.taken_clock (s : State) (h : Hdr) (r : CmdRow) : (s.taken h r).clock = s.clock := by simp [State.taken]
theorem State.taken_collector (s : State) (h : Hdr) (r : CmdRow) : (s.taken h r).collector = s.collector := by simp [State.taken]
theorem State.taken_free (s : State) (h : Hdr) (r : CmdRow) : (s.taken h r).free = s.free := by simp [State.taken]
theorem State.taken_pending (s : State) (h : Hdr) (r : CmdRow) : (s.taken h r).pending = s.pending := by simp [State.taken]

end Sys2Proof.Machine
end

