-- ==== Sys2Proof/Tests/Slice0.lean ====
section
/-! SUPPORT. Checks of the model on small states: operands that do not fit, the words of Table 4-2, single steps worked out from
the spec, and for each obligation a state and operands that meet its hypotheses. -/

open Sys2Proof Sys2Proof.Machine

namespace Sys2Proof.Tests

set_option Elab.async false

/-! Small states. -/

/-- A header of a command on connector A for partition 1, with `n` parameter bytes. -/
def hdr (n : Nat) : Hdr := { conn := 0, cmdTag := 7, partition := 1, reqTag := 0, length := n }

/-- An open session of level 0. -/
def session : Session := { isOpen := true, level := some 0, cmdSet := 0x0501 }

/-- A module in service whose connector A carries such a session; partition 1 exists. -/
def serving : State :=
  { mod := { state := .inService, phase := 9 }
    clock := { running := true, tb := 200000000000 }
    alaok := { conns := Map.empty.put 0 { up := true, trained := true, hello := true, link := 0x0202, sess := session } }
    parts := Map.empty.put 1 { entry := { valid := true, rights := 31, reqCount := 256, steerCount := 16 } }
    ledger := { copyA := some 84, copyB := some 14 } }

def core : CoreRef := { field := 44, core := 5 }

/-- `serving` with one core, in a field that is powered. -/
def withCore (v : Core) : State :=
  { serving with
    cores := Map.empty.put core.key v
    fields := Map.empty.put 44 { power := { converterOn := true, bucket := 1000 }, brought := true } }

/-- `serving` with that core good, in a service field. -/
def benched : State :=
  { serving with
    cores := Map.empty.put core.key { good := true }
    fields := Map.empty.put 44 { role := .service, power := { bucket := 300 } } }

/-- `serving` with that core about to execute an instruction. -/
def running (o : CoreOp) : State := withCore { mode := .running, prog := Map.empty.put 0 (encodeCore o) }

/-- `serving` with a command at the head of engine 3's queue. -/
def queued (bytes : List Byte) : State :=
  withCore { engines := Map.empty.put 3 { queue := [{ bytes := bytes, seq := some 0 }] } }

/-- An empty link frame of stream 0, its check good. -/
def frame : Frame :=
  { stream := 0, seq := 0, ack := 0, ackStream := 0, creditStream := 0, credit := 0, payload := [], crcOk := true }

theorem accepts_of {s : State} {h : Hdr} {r : CmdRow} {l : Bool} {f k : Nat}
    (w : (s.powered && (s.conn h.conn).carries && ((s.takePacket h).checks h r l f k).isNone) = true) : s.accepts h r l f k := by
  simp only [Bool.and_eq_true, Option.isNone_iff_eq_none] at w
  exact ⟨w.1.1, w.1.2, w.2⟩

/-! Operands that do not fit. -/

theorem test_wf_field_absent : (Instr.doneReport ⟨0, []⟩).wellFormed = false := by decide
theorem test_wf_core_number : (Instr.hungCore { field := 44, core := 68 }).wellFormed = false := by decide
theorem test_wf_engine_number : (Instr.fire core 18).wellFormed = false := by decide
theorem test_wf_array_number : (Instr.trimSample core 3 8).wellFormed = false := by decide
theorem test_wf_row_number : (Instr.rowReverify core 3 7 1024 [] []).wellFormed = false := by decide
theorem test_wf_stack_number : (Instr.stackFailover 24).wellFormed = false := by decide
theorem test_wf_channel_number : (Instr.urgentConversion 44 16 0 0 0).wellFormed = false := by decide
theorem test_wf_connector_number : (Instr.ssEcho { hdr 0 with conn := 2 }).wellFormed = false := by decide
theorem test_wf_length : (Instr.ssEcho (hdr 65537)).wellFormed = false := by decide
theorem test_wf_frame : (Instr.dataFrame 0 { frame with stream := 16 }).wellFormed = false := by decide
theorem test_wf_packet : (Instr.dataWrite 0 { dst := 2 ^ 18 }).wellFormed = false := by decide
theorem test_wf_fits : (Instr.fire core 17).wellFormed = true := by decide

/-! Words of Table 4-2, written out bit by bit: opcode in [31:26], the fields as its formats place them. -/

theorem test_word_lhu : decodeCore 0b00101100101001000000000000001000#32 = some (.load 3 5 4 8) := by decide
theorem test_word_crd : decodeCore 0b01100000100000000000000000000100#32 = some (.crd 4 4) := by decide
theorem test_word_wend : decodeCore 0b10011100000000000000000000000000#32 = some .wend := by decide
theorem test_word_undefined : decodeCore 0b11111100000000000000000000000000#32 = none := by decide

/-! The hypotheses of the statements are met: the queue and the control core. -/

theorem noTrace {s : State} {k : Nat} (h : (s.core k).traceCtl = 0) (n : Nat) : s.traceStalls k n = false := by
  simp [State.traceStalls, h]

theorem running_ready (o : CoreOp) (h : (running o).coreReady core = true
    ∧ decodeCore (((running o).core core.key).instrAt ((running o).core core.key).pc.toNat) = some o) :
    (running o).readyFor core o := ⟨h.1, h.2, Or.inl rfl, noTrace rfl⟩

theorem witness_StepRunsFrontCommand : ({ serving with pending := [.creditRefill] } : State).pending = .creditRefill :: [] := rfl

theorem witness_CoreThreeRegisterArithmetic : (∀ f : BitVec 4, f.toNat ≤ 14 → (running (.alu f 1 2 31)).readyFor core (.alu f 1 2 31))
    ∧ (running (.alu 0 0 0 0)).readyFor core (.alu 0 0 0 0) :=
  ⟨fun f h => running_ready _ (by revert f; decide +kernel), running_ready _ (by decide +kernel)⟩

theorem witness_CoreImmediateArithmetic : (running (.addi 0 31 0xFFFF)).readyFor core (.addi 0 31 0xFFFF)
    ∧ (running (.andi 1 2 3)).readyFor core (.andi 1 2 3) ∧ (running (.ori 1 2 3)).readyFor core (.ori 1 2 3)
    ∧ (running (.xori 1 2 3)).readyFor core (.xori 1 2 3) ∧ (running (.slti 1 2 3)).readyFor core (.slti 1 2 3)
    ∧ (running (.lui 1 3)).readyFor core (.lui 1 3) :=
  ⟨running_ready _ (by decide +kernel), running_ready _ (by decide +kernel), running_ready _ (by decide +kernel),
   running_ready _ (by decide +kernel), running_ready _ (by decide +kernel), running_ready _ (by decide +kernel)⟩

theorem witness_CoreImmediateArithmetic_shi : ∀ n : BitVec 2, let imm : BitVec 16 := (0 : BitVec 9) ++ n ++ (31 : BitVec 5)
    (running (.shi 1 2 imm)).readyFor core (.shi 1 2 imm) ∧ imm.extractLsb' 5 2 = n :=
  fun n => ⟨running_ready _ (by revert n; decide +kernel), by revert n; decide +kernel⟩

/-- `running`, with register g2 holding a value. -/
def atAddress (o : CoreOp) (a : Word) : State :=
  withCore { mode := .running, prog := Map.empty.put 0 (encodeCore o), regs := (Vector.replicate 32 (0 : Word)).set 2 a }

theorem atAddress_ready (o : CoreOp) (a : Word) (h : (atAddress o a).coreReady core = true
    ∧ decodeCore (((atAddress o a).core core.key).instrAt ((atAddress o a).core core.key).pc.toNat) = some o) :
    (atAddress o a).readyFor core o := ⟨h.1, h.2, Or.inl rfl, noTrace rfl⟩

theorem open_at (o : CoreOp) (a : Word) (n : Nat) (h2 : a.toNat % n = 0) (h3 : a.toNat + n ≤ 8388608) (h4 : ((atAddress o a).core core.key).sp = {}) :
    ((atAddress o a).core core.key).openAccess a.toNat n := by
  refine ⟨h2, h3, fun i _ => ?_, by rw [h4]⟩
  rw [h4]
  simp [Scratch.isGated]

/-- A load of the last word, a misaligned one and one beyond the scratchpad. -/
theorem witness_CoreLoads : (atAddress (.load 4 1 2 0) 8388604).readyFor core (.load 4 1 2 0)
    ∧ ((atAddress (.load 4 1 2 0) 8388604).core core.key).bad 2 = false
    ∧ ((atAddress (.load 4 1 2 0) 8388604).core core.key).openAccess (8388604 : Word).toNat 4
    ∧ ((atAddress (.load 4 1 2 0) 8388604).core core.key).stores.any (fun st => rangesMeet 8388604 4 st.1 st.2) = false
    ∧ (atAddress (.load 4 1 2 0) 2).readyFor core (.load 4 1 2 0) ∧ (2 : Nat) % 4 ≠ 0
    ∧ (atAddress (.load 4 1 2 0) 8388608).readyFor core (.load 4 1 2 0) ∧ (8388608 : Nat) % 4 = 0 ∧ 8388608 < 8388608 + 4 :=
  ⟨atAddress_ready _ _ (by decide +kernel), rfl, open_at _ _ _ (by decide) (by decide) rfl, rfl,
   atAddress_ready _ _ (by decide +kernel), by decide, atAddress_ready _ _ (by decide +kernel), by decide, by decide⟩

theorem witness_CoreStores : (atAddress (.store 2 1 2 0) 8388604).readyFor core (.store 2 1 2 0)
    ∧ ((atAddress (.store 2 1 2 0) 8388604).core core.key).openAccess (8388604 : Word).toNat 4
    ∧ ((atAddress (.store 2 1 2 0) 8388604).core core.key).guarded 8388604 4 = false
    ∧ (atAddress (.store 0 1 2 0) 0).readyFor core (.store 0 1 2 0)
    ∧ (atAddress (.store 1 1 2 0) 8388607).readyFor core (.store 1 1 2 0) ∧ 8388607 % 2 ≠ 0 :=
  ⟨atAddress_ready _ _ (by decide +kernel), open_at _ _ _ (by decide) (by decide) rfl, rfl,
   atAddress_ready _ _ (by decide +kernel), atAddress_ready _ _ (by decide +kernel), by decide⟩

/-- A placed core whose record of the window lies at address 0: the write guard covers it. -/
theorem witness_CoreStores_guard : ({ placeId := some 0 } : Core).guarded 0 4 = true := by decide +kernel

theorem witness_ScratchpadWriteReadsBack : ({} : Scratch).legal ∧ 8388604 + [((1 : Byte), false), (2, true), (3, false), (4, true)].length ≤ 8388608
    ∧ ∀ i, ({} : Scratch).isGated i = false :=
  ⟨⟨rfl, List.nodup_nil, List.nodup_nil⟩, by decide, fun i => by simp [Scratch.isGated]⟩

theorem witness_CoreBranchesAndJumps : (∀ f : BitVec 3, f.toNat ≤ 5 → (running (.branch f 1 2 0xFFFF)).readyFor core (.branch f 1 2 0xFFFF))
    ∧ (running (.jal 0x3FFFFFE)).readyFor core (.jal 0x3FFFFFE) ∧ (running (.jalr 1 2 4)).readyFor core (.jalr 1 2 4)
    ∧ ((0 : Nat) : Int) ≤ 4 + 4 * (0xFFFF : BitVec 16).toInt ∧ (4 : Int) + 4 * (0x3FFFFFE : BitVec 26).toInt < 0 :=
  ⟨fun f h => running_ready _ (by revert f; decide +kernel), running_ready _ (by decide +kernel), running_ready _ (by decide +kernel),
   by decide, by decide⟩

theorem witness_CoreControlRegisters : (∀ n : BitVec 5, let k := n.setWidth 16
      (running (.crd 1 k)).readyFor core (.crd 1 k) ∧ (running (.cwr 1 k)).readyFor core (.cwr 1 k))
    ∧ ((running (.cwr 1 8)).core core.key).bad 1 = false :=
  ⟨fun n => ⟨running_ready _ (by revert n; decide +kernel), running_ready _ (by revert n; decide +kernel)⟩, rfl⟩

theorem witness_CoreCommandStore : (atAddress (.cst 1 2 0) 16380).readyFor core (.cst 1 2 0)
    ∧ (atAddress (.cld 1 2 0) 16384).readyFor core (.cld 1 2 0) ∧ (atAddress (.cld 1 2 0) 3).readyFor core (.cld 1 2 0)
    ∧ (16380 % 4 = 0 ∧ 16380 < 16384) ∧ 16384 % 4 = 0 ∧ 3 % 4 ≠ 0 :=
  ⟨atAddress_ready _ _ (by decide +kernel), atAddress_ready _ _ (by decide +kernel), atAddress_ready _ _ (by decide +kernel),
   by decide, by decide, by decide⟩

theorem witness_CoreWaitsAndEnds : (running .fence).readyFor core .fence ∧ ((running .fence).core core.key).stores = []
    ∧ (running .wend).readyFor core .wend ∧ (running (.wait 1 0)).readyFor core (.wait 1 0)
    ∧ (running (.wait 1 3)).readyFor core (.wait 1 3) ∧ (running .brk).readyFor core .brk
    ∧ (running .brk).grantsDebug core.key = false :=
  ⟨running_ready _ (by decide +kernel), rfl, running_ready _ (by decide +kernel), running_ready _ (by decide +kernel),
   running_ready _ (by decide +kernel), running_ready _ (by decide +kernel), by decide +kernel⟩

/-- A core that partition 1 owns: debug is granted. -/
theorem witness_CoreWaitsAndEnds_debug : ({ running .brk with mod := { (running .brk).mod with
    coreMap := Map.empty.put core.key 1 } } : State).grantsDebug core.key = true := by decide +kernel

/-- A core in debug whose armed watch `ctl` covers the first word, about to execute an instruction on it. -/
def watching (ctl : BitVec 4) (o : CoreOp) : State :=
  let s := withCore { mode := .running, prog := Map.empty.put 0 (encodeCore o), wpCtl := ctl, wpHi := 3 }
  { s with mod := { s.mod with coreMap := Map.empty.put core.key 1 } }

theorem watching_ready (ctl : BitVec 4) (o : CoreOp) (h : (watching ctl o).coreReady core = true
    ∧ decodeCore (((watching ctl o).core core.key).instrAt ((watching ctl o).core core.key).pc.toNat) = some o
    ∧ (watching ctl o).haltsAt core.key = false) : (watching ctl o).readyFor core o := ⟨h.1, h.2.1, Or.inl h.2.2, noTrace rfl⟩

/-- A load and a store that touch a watch armed for them, which halts, and a watch that does not. -/
theorem witness_watched_accesses : ((watching 7 (.load 4 1 2 0)).readyFor core (.load 4 1 2 0)
      ∧ ((watching 7 (.load 4 1 2 0)).core core.key).watched 2 0 4 ∧ (watching 7 (.load 4 1 2 0)).watchHalts core.key = true
      ∧ ((watching 7 (.load 4 1 2 0)).core core.key).passBp = false)
    ∧ ((watching 11 (.store 2 1 2 0)).readyFor core (.store 2 1 2 0) ∧ ((watching 11 (.store 2 1 2 0)).core core.key).watched 3 0 4
      ∧ (watching 11 (.store 2 1 2 0)).watchHalts core.key = true ∧ ((watching 11 (.store 2 1 2 0)).core core.key).guarded 0 4 = false)
    ∧ ((watching 5 (.load 4 1 2 0)).core core.key).watched 2 0 4 ∧ (watching 5 (.load 4 1 2 0)).watchHalts core.key = false :=
  ⟨⟨watching_ready _ _ (by decide +kernel), ⟨rfl, rfl, 3, by decide, by decide, by decide⟩, by decide +kernel, rfl⟩,
   ⟨watching_ready _ _ (by decide +kernel), ⟨rfl, rfl, 0, by decide, by decide, by decide⟩, by decide +kernel, by decide +kernel⟩,
   ⟨rfl, rfl, 0, by decide, by decide, by decide⟩, by decide +kernel⟩

theorem witness_CoreUnitIssues : (∀ k : BitVec 2, (running (.issue k 1 2 3 4)).readyFor core (.issue k 1 2 3 4))
    ∧ (running (.issue 0 1 2 15 0)).readyFor core (.issue 0 1 2 15 0) ∧ (running (.issue 0 1 2 16 0)).readyFor core (.issue 0 1 2 16 0)
    ∧ ((running (.issue 0 1 2 15 0)).core core.key).bad 1 = false ∧ ((running (.issue 0 1 2 15 0)).core core.key).unpopped < 128
    ∧ ((running (.issue 0 1 2 15 0)).core core.key).stores = [] :=
  ⟨fun k => running_ready _ (by revert k; decide +kernel), running_ready _ (by decide +kernel), running_ready _ (by decide +kernel),
   rfl, by decide +kernel, rfl⟩

theorem witness_CorePosts : (running (.issue 3 0 0 2 0)).readyFor core (.issue 3 0 0 2 0)
    ∧ (running (.issue 3 0 0 3 0)).readyFor core (.issue 3 0 0 3 0) ∧ ((running (.issue 3 0 0 2 0)).core core.key).bad 0 = false :=
  ⟨running_ready _ (by decide +kernel), running_ready _ (by decide +kernel), rfl⟩

/-- `running`, with a store not yet acknowledged. -/
def storing (o : CoreOp) : State := withCore { mode := .running, prog := Map.empty.put 0 (encodeCore o), stores := [(0, 4)] }

theorem storing_ready (o : CoreOp) (h : (storing o).coreReady core = true
    ∧ decodeCore (((storing o).core core.key).instrAt ((storing o).core core.key).pc.toNat) = some o) :
    (storing o).readyFor core o := ⟨h.1, h.2, Or.inl rfl, noTrace rfl⟩

theorem witness_issue_waits : (∀ k : BitVec 2, (storing (.issue k 0 0 2 4)).readyFor core (.issue k 0 0 2 4))
    ∧ ((storing (.issue 3 0 0 2 4)).core core.key).stores ≠ [] ∧ ((storing (.issue 0 0 0 2 4)).core core.key).bad 0 = false
    ∧ ((storing (.issue 0 0 0 2 4)).core core.key).unpopped < 128 :=
  ⟨fun k => storing_ready _ (by revert k; decide +kernel), by decide +kernel, rfl, by decide +kernel⟩

/-- A load that overlaps a store not yet acknowledged. -/
theorem witness_CoreLoads_waits : (storing (.load 4 1 2 0)).readyFor core (.load 4 1 2 0)
    ∧ ((storing (.load 4 1 2 0)).core core.key).wpCtl.getLsbD 0 = false
    ∧ (∃ st ∈ ((storing (.load 4 1 2 0)).core core.key).stores, 0 < st.1 + st.2 ∧ st.1 < 0 + 4)
    ∧ ∀ st ∈ ((storing (.load 4 1 2 0)).core core.key).stores, 0 < st.2 :=
  ⟨storing_ready _ (by decide +kernel), rfl, by decide +kernel, by decide +kernel⟩

theorem witness_CorePosts_agents : (∀ u : BitVec 2, (running (.issue 3 0 0 (u.setWidth 5) 0)).readyFor core (.issue 3 0 0 (u.setWidth 5) 0))
    ∧ ((running (.issue 3 0 0 0 0)).core core.key).stores = [] :=
  ⟨fun u => running_ready _ (by revert u; decide +kernel), rfl⟩

theorem witness_CoreCompletions : (running (.cpop 1 2)).readyFor core (.cpop 1 2) ∧ ((running (.cpop 1 2)).core core.key).cpl = []
    ∧ core.ok = true
    ∧ ((withCore { spireDone := some (0, { bytes := [], seq := some 0 }) }).core core.key).spireDone = some (0, { bytes := [], seq := some 0 })
    ∧ ((withCore { engines := Map.empty.put 17 { done := some (0, { bytes := [], seq := some 0 }) } }).core core.key |>.engine 17).done
        = some (0, { bytes := [], seq := some 0 }) :=
  ⟨running_ready _ (by decide +kernel), rfl, by decide, rfl, rfl⟩

theorem witness_CoreEvents : core.ok = true
    ∧ ((withCore { mode := .running, waitMask := some (1, 2), tbCmp := 1 }).core core.key).waitMask = some (1, 2)
    ∧ (1 : BitVec 2) &&& (withCore {}).events { cpl := [(1, 1)] } ≠ 0
    ∧ ((withCore { mode := .halting }).core core.key).quiet = true ∧ ((withCore { mode := .ended }).core core.key).contrib = none
    ∧ (withCore { mode := .ended }).plan.edges.any (fun e => e.src = core.key) = false :=
  ⟨by decide, rfl, by decide +kernel, by decide +kernel, rfl, rfl⟩

/-! The hypotheses of the statements are met: engines, spire, DMA/fill, boundaries. -/

/-- A `FIRE` of array 0 with one vector of one column, mode word width 4, its descriptor at 64; R80, Table 3-2. -/
def fireBytes : List Byte := [1, 1, 0, 0, 4, 0, 0, 0, 1, 0, 1, 0, 64, 0, 0, 0] ++ List.replicate 16 0

theorem witness_EngineFires : (queued fireBytes).engineHead core 3 = some { bytes := fireBytes, seq := some 0 }
    ∧ (FireCmd.ofBytes fireBytes).bad = false ∧ natAt fireBytes 0 1 = 1 ∧ (FireCmd.ofBytes fireBytes).addBias = false
    ∧ (FireCmd.ofBytes fireBytes).rangeBad (VecDesc.ofBytes (List.replicate 16 0)) = false
    ∧ (FireCmd.ofBytes fireBytes).dstKind = 0 ∧ (FireCmd.ofBytes fireBytes).final = false
    ∧ ((queued fireBytes).core core.key).sp.rewrote = [] := by decide +kernel

/-- The maintenance commands at the head of engine 3's queue, on array 7, row 1023, operands at 0 (Table 3-3). -/
theorem witness_EngineMaintains : ∀ op ∈ [2, 3, 4, 5],
    let m : Cmd := { bytes := [BitVec.ofNat 8 op, 7, 0xFF, 3] ++ List.replicate 8 0 ++ [4, 0, 0, 0] ++ List.replicate 16 0, seq := some 0 };
    (queued m.bytes).engineHead core 3 = some m ∧ natAt m.bytes 0 1 = op ∧ natAt m.bytes 1 1 = 7 ∧ natAt m.bytes 2 2 = 1023
    ∧ (ModeWord.ofNat (natAt m.bytes 12 4)).bad = false ∧ ((queued m.bytes).core core.key).sp.rewrote = []
    ∧ natAt m.bytes 4 4 + 1024 ≤ 8388608 ∧ natAt m.bytes 8 4 + 1040 ≤ 8388608 ∧ (0 : Nat) ≤ ((queued m.bytes).power 44).bucket := by
  decide +kernel

/-- The row of a programming agent's job, with its 512 bytes, at the head of the queue. -/
theorem witness_EngineMaintains_agent :
    let m : Cmd := { bytes := [2, 7, 0xFF, 3] ++ List.replicate 28 0, seq := none, rows := List.replicate 512 0 };
    let s := withCore { engines := Map.empty.put 3 { queue := [m] } };
    s.engineHead core 3 = some m ∧ natAt m.bytes 0 1 = 2 ∧ natAt m.bytes 1 1 = 7 ∧ natAt m.bytes 2 2 = 1023 ∧ s.mod.powerFail = false := by
  decide +kernel

theorem witness_ProgrammedRowReads : ({} : Machine.Array).levels.wf = true ∧ 1023 < 1024 ∧ 1039 < 1040 ∧ 0 ≠ 1023 := by decide +kernel

theorem witness_EngineRefusesBadCommands : (queued [0x77]).engineHead core 3 = some { bytes := [0x77], seq := some 0 }
    ∧ natAt [(0x77 : Byte)] 0 1 ∉ [1, 2, 3, 4, 5]
    ∧ (withCore { engines := Map.empty.put 3 { queue := [{ bytes := fireBytes, seq := some 0, poison := true }] } }).engineHead core 3
        = some { bytes := fireBytes, seq := some 0, poison := true } := by decide +kernel

/-- `queued fireBytes`, with a scratchpad. -/
def fireOver (sp : Scratch) : State := withCore { engines := Map.empty.put 3 { queue := [{ bytes := fireBytes, seq := some 0 }] }, sp := sp }

/-- A `FIRE` of no vector; one whose descriptor lies in a gated bank; one whose descriptor names an input beyond the scratchpad;
each maintenance command with operands beyond it. -/
theorem witness_EngineRefusesBadCommands_fields :
    (FireCmd.ofBytes (fireBytes.set 8 0)).vecs = 0 ∧ natAt (fireBytes.set 8 0) 0 1 = 1
    ∧ ((fireOver { gated := 0xFF }).descBytes core.key (FireCmd.ofBytes fireBytes)).any spPoison = true
    ∧ (let s := fireOver (Scratch.putAll core.key 67 [(0xFF, false)] {});
      let descs := s.descBytes core.key (FireCmd.ofBytes fireBytes);
      descs.any spPoison = false
      ∧ (descs.map (fun l => VecDesc.ofBytes (l.map Prod.fst))).any (FireCmd.ofBytes fireBytes).rangeBad = true)
    ∧ ∀ op ∈ [2, 3, 4, 5], let l : List Byte := [BitVec.ofNat 8 op, 0, 0, 0, 0xFF, 0xFF, 0x7F, 0, 0xFF, 0xFF, 0x7F, 0];
      natAt l 0 1 = op ∧ 8388608 < natAt l 4 4 + 20 ∧ 8388608 < natAt l 8 4 + 2 := by decide +kernel

theorem filled_word (a : Nat) : ({ filled := true } : Scratch).word a = 0 := by
  simp only [Scratch.word, Map.find]
  show eccWord 0 ^^^ 0 = 0
  decide +kernel

/-- A scratchpad that was filled, and to which nothing has been written, reads zero. -/
theorem filled_reads (k a n : Nat) : ∀ b ∈ (({ filled := true } : Scratch).view k a n).map (fun b => (b.byte, b.poison)), b.1 = 0 := by
  intro b h
  simp only [Scratch.view, List.map_map, List.mem_map] at h
  obtain ⟨i, -, rfl⟩ := h
  have e : ({ filled := true } : Scratch).readByte k (a + i) = eccDecode 0 := by
    rw [← filled_word (a + i)]
    simp [Scratch.readByte, Scratch.isGated, Scratch.unwritten]
  simp only [Function.comp, e]
  decide +kernel

/-- The input edges: five codes of 3 bits fewer carry their remainder on (R72); a vector of zeros. -/
theorem witness_EngineFires_edges : inputEdge 1 3 4 [13, 13, 13, 0, -5] = ([[2, 1, 2, 0, -1]], 0)
    ∧ (∀ u ∈ [(-128 : Int), 127, 0], -128 ≤ u ∧ u ≤ 127)
    ∧ ∀ b ∈ (fireOver { filled := true }).spRead core.key 0 (FireCmd.ofBytes fireBytes).inBytes, b.1 = 0 :=
  ⟨by decide +kernel, by decide +kernel, filled_reads _ _ _⟩

/-- A spire command of one row, column and inner index, its operands at 0, FP32 to FP32 (Table 3-6). -/
def spireBytes (op : Byte) (fmt : Byte) (out : Byte) : List Byte :=
  [op, fmt, out, 0] ++ List.replicate 12 0 ++ [1, 0, 1, 0, 1, 0, 1, 0] ++ List.replicate 8 0

theorem witness_SpireOperations :
    gemmBad (SpireCmd.ofBytes (spireBytes 0x10 0x33 4)) = false ∧ vecBad (SpireCmd.ofBytes (spireBytes 0x11 0x44 4)) = false
    ∧ normBad (SpireCmd.ofBytes (spireBytes 0x12 4 4)) = false ∧ softmaxBad (SpireCmd.ofBytes (spireBytes 0x13 4 4)) = false
    ∧ topkBad (SpireCmd.ofBytes (spireBytes 0x14 4 4)) = false ∧ narrowBad (SpireCmd.ofBytes (spireBytes 0x15 0 0)) = false
    ∧ let s := withCore { spireQ := [{ bytes := spireBytes 0x10 0x33 4, seq := some 0 }] }
      (s.core core.key).spireQ.head? = some { bytes := spireBytes 0x10 0x33 4, seq := some 0 } ∧ (s.core core.key).stopped = false
      ∧ (s.core core.key).spireDone = none ∧ (s.core core.key).sp.rewrote = [] ∧ core.ok = true := by decide +kernel

/-- An INT8 by INT8 product into INT32, its scale 1. -/
theorem witness_SpireOperations_int8 :
    let d := SpireCmd.ofBytes ([0x10, 0, 5, 0] ++ List.replicate 12 0 ++ [1, 0, 1, 0, 1, 0, 1, 0] ++ leBytes 4 0x3F800000 ++ List.replicate 4 0);
    gemmBad d = false ∧ d.fmtA = 0 ∧ d.fmtC = 5 ∧ d.accum = false ∧ d.scale = 0x3F800000 ∧ 0 < d.m ∧ 0 < d.n := by decide +kernel

/-- A region of partition 1 on stack 0, made in window 0, and a state of window 1 that has it at selector 2. -/
def region : Region := { stackSet := [0], size := 4096, extents := [[0]] }

def withRegion (bytes : List Byte) : State :=
  { withCore { dmaQ := [{ bytes := bytes, seq := some 0 }] } with
    parts := Map.empty.put 1 { entry := { valid := true, rights := 31 }, regions := Map.empty.put 2 region }
    mod := { state := .inService, coreMap := Map.empty.put core.key 1 }, plan := { window := 1 } }

/-- A DMA/fill command of 2,048 bytes between scratchpad address 8,386,560 and offset 2,048 of region 2 (Table 4-4). -/
def dmaBytes (op : Byte) (src dst : Nat) : List Byte :=
  [op, 0, 0, 0] ++ leBytes 4 2048 ++ leBytes 8 src ++ leBytes 8 dst ++ List.replicate 8 0

def regionAddr : Nat := 2 * 2 ^ 44 + 2048

theorem witness_DmaTransfers : ∀ op ∈ [(0x20 : Byte), 0x21, 0x22, 0x23],
    let b := dmaBytes op (if op = 0x22 then regionAddr else 8386560) (if op = 0x23 then regionAddr else 8386560);
    let v := (withRegion b).core core.key;
    core.ok = true ∧ v.stopped = false ∧ v.fenced = false ∧ v.dmaDone = none ∧ v.dmaQ.head? = some { bytes := b, seq := some 0 }
    ∧ v.sp.rewrote = [] ∧ v.guarded 8386560 2048 = false ∧ 8386560 + 2048 ≤ 8388608
    ∧ (op = 0x22 → (withRegion b).coreRegion core.key (DmaCmd.ofBytes b).src 2048 = some region)
    ∧ (op = 0x23 → (withRegion b).coreRegion core.key (DmaCmd.ofBytes b).dst 2048 = some region
        ∧ stackOff (DmaCmd.ofBytes b).dst % 2048 = 0)
    ∧ (withRegion b).isCopyB core.key = false := by decide +kernel

set_option maxRecDepth 4000 in
theorem witness_BoundaryProceeds :
    (let s : State := { serving with plan := { released := true, awaiting := [44], tNext := 200000000000 } };
      (s.field 44).stopArrived = false ∧ 44 ∈ s.plan.awaiting ∧ s.working 44 = [] ∧ s.gatherWaits = true ∧ s.plan.holdFrom = none
      ∧ s.plan.tNext.toNat ≤ s.now ∧ s.inService = true ∧ s.stopHolds = false)
    ∧ (let s : State := { serving with plan := { released := true, awaiting := [44], tNext := 199999936000, holdFrom := some 199999936000 } };
      s.inService = true ∧ 64000 ≤ s.since 199999936000 ∧ s.plan.awaiting.any s.fieldHalted = false)
    ∧ (let s : State := { serving with plan := { released := true, tNext := 200000000000 } };
      s.gatherWaits = false ∧ s.plan.tNext.toNat ≤ s.now ∧ s.mod.powerFail = false ∧ s.resetWaiting = none
      ∧ s.boundary.stopDue = false) := by decide +kernel

theorem witness_UnitsTakenOut :
    (let s : State := { withCore { mode := .running } with plan := { released := true, tNext := 199999984000 } };
      core.ok = true ∧ s.inService = true ∧ s.stop.kind ≠ .nowSpreading ∧ (s.core core.key).contrib = none
      ∧ s.fieldHalted core.field = false ∧ Nat.max s.plan.tNext.toNat (s.field core.field).hungFrom.toNat + 16000 ≤ s.now)
    ∧ (let u : UnitOut := { unit := packedCore core.key, phase := 1 };
      let s : State := { withCore {} with plan := { outUnits := [u] } };
      s.plan.outUnits.find? (fun x => x.unit = u.unit ∧ x.phase = 1 ∧ x.assist.isNone) = some u ∧ unpackKey u.unit = some core.key
      ∧ (s.core core.key).placeId = none)
    ∧ (let u : UnitOut := { unit := packedCore core.key, phase := 2, dest := core.key + 1 };
      let s : State := { withCore {} with plan := { outUnits := [u], rebuilds := [(44, 0)] } };
      s.plan.outUnits.find? (fun x => x.unit = u.unit ∧ s.unitProgrammed x) = some u
      ∧ s.plan.outUnits.filter (fun x => unpackField x.unit = 44 ∧ x.kind = .core ∧ x.phase = 2) = [u]
      ∧ s.plan.rebuilds.any (fun r => r.1 = 44) = true) := by decide +kernel

theorem witness_SignalBoxMessages :
    (∀ kind ∈ [(0x11 : Byte), 0x12], let b := [kind, 0x81, 0, 0, 0, 0, 0, 0, 1, 0, 0, 0, 0, 0, 0, 0]
      let s : State := { serving with mod := { serving.mod with signal := [(core.key, b)] } };
      s.mod.signal.find? (fun m => m.1 = core.key ∧ natAt m.2 0 1 = kind.toNat) = some (core.key, b) ∧ s.gateStopped = false
      ∧ (List.range 8).filter (fun i => bitAt (natAt b 1 1) i) = [0, 7] ∧ s.plan.window < natAt b 8 8)
    ∧ (let b : List Byte := [0x10] ++ List.replicate 15 0;
      let s : State := { withCore {} with mod := { serving.mod with signal := [(core.key, b)] }, plan := { slots := [{}] } };
      s.mod.signal.find? (fun m => m.1 = core.key ∧ natAt m.2 0 1 = 0x10) = some (core.key, b) ∧ s.slotAt core.key (natAt b 2 2) = some {}
      ∧ natAt b 8 8 = s.plan.window ∧ (s.core core.key).fenced = false) := by decide +kernel

/-- A reduction of two contributors into core 5 of field 44, and a packet of one of them. -/
def redRec : RedRec := { dest := core.key, offset := 0, length := 256, contributors := 2 }
def redEdge : Edge := { dest := core.key, src := core.key + 1, offset := 0, bytes := List.replicate 256 1, reduce := true }

theorem witness_PacketsArrive :
    (let e : Edge := { dest := core.key, src := core.key + 1, offset := 252, bytes := [1, 2, 3, 4] };
      let s : State := { withCore { entry := { hoffLen := 256 } } with plan := { edges := [e] } };
      s.plan.edges[0]? = some e ∧ s.arrivalHeld e.dest = false ∧ s.edgeFenced e = false ∧ e.reduce = false
      ∧ e.offset + e.bytes.length ≤ (s.core (s.physOf e.dest)).entry.hoffLen)
    ∧ (let s : State := { serving with plan := { edges := [redEdge] }, cores := Map.empty.put (core.key + 1) { edition := 1 }
                                       editions := Map.empty.put 1 { placement := some { reductions := [redRec] } } };
      s.plan.edges[0]? = some redEdge ∧ s.edgeFenced redEdge = false ∧ s.reductionOf redEdge = some redRec ∧ redEdge.bad = []
      ∧ redEdge.bytes.length = 256 ∧ redEdge.count < redRec.contributors ∧ (s.field 44).store = [])
    ∧ (let d : DigestMsg := { core := core.key };
      let s : State := { serving with plan := { digests := [d] } };
      s.plan.digests[0]? = some d ∧ s.arrivalHeld d.core = false ∧ d.window = s.plan.window
      ∧ s.plan.digests.find? (fun x => x.arrived ∧ s.digestPair d x) = none) := by decide +kernel

/-! The hypotheses of the statements are met: power, sleep, the ledger, upkeep. -/

/-- Field 44 powered, with a throttle of 1 since 0. -/
def throttled : State :=
  { serving with
    fields := Map.empty.put 44 { power := { converterOn := true, t := 1, hotSince := some 0 }
                                 sensors := Map.empty.put 0 { code := degCode 90 } } }

theorem witness_ThrottleAndBudget : throttled.runs 44 = true ∧ (throttled.power 44).hotSince = some 0
    ∧ degCode 90 ≤ (throttled.field 44).hottest ∧ 1000000 ≤ throttled.since 0 ∧ 1000000 ≤ throttled.since (throttled.power 44).lastHot
    ∧ ((withCore {}).power 44).rate ≤ 800 * ((withCore {}).budget.rhoPlan : Int) ∧ ((withCore {}).field 44).hottest ≤ degCode 85
    ∧ 0 < (throttled.power 44).t ∧ 10000000 ≤ throttled.since (throttled.power 44).lastTrigger
    ∧ serving.powered = true ∧ serving.budget.overAt = none ∧ serving.budget.powerLimit < serving.budget.powerLimit + 1
    ∧ serving.budget.lowAt = none ∧ 47999 < 48000 ∧ 100 * 100 ≤ 95 * serving.budget.powerLimit ∧ 49000 ≤ 49000 := by
  decide +kernel

theorem witness_ThrottleAndBudget_restore : ∀ x ∈ [serving.budget.overAt, serving.budget.lowAt, serving.budget.restoreAt], ∀ h,
    x = some h → 100000000 ≤ serving.since h := by
  simp [serving]

theorem witness_ShortsIsolateFields :
    (withCore {}).runs 44 = true ∧ ((withCore {}).power 44).foldBack = none
    ∧ ((withCore {}).power 44).hard < ((withCore {}).power 44).hard + 1 ∧ 499 < 500
    ∧ (let s : State := { serving with fields := Map.empty.put 44 { power := { foldBack := some 199999998000, iso := .detected } } };
      fieldExists 44 = true ∧ (s.power 44).foldBack = some 199999998000 ∧ 2000 ≤ s.since 199999998000 ∧ (s.power 44).iso = .detected
      ∧ 2000 ≤ s.since (s.power 44).isoAt)
    ∧ (({ power := { iso := .off } } : Field).power.iso = .off) := by decide +kernel

theorem witness_PaceAndCredits :
    (let s : State := { serving with fields := Map.empty.put 44 { power := { converterOn := true, lastRefill := some 199999999900, noWork := true }
                                                                  monitors := Map.empty.put 15 { kept := true } } };
      s.runs 44 = true ∧ (s.power 44).paceAt = none ∧ (List.replicate 16 0).length = 16 ∧ (s.power 44).noWork = true
      ∧ leastBy (fun m => (s.field 44).scaleNow m * 0 / 40960) ((List.range 16).filter (fun m => ((s.field 44).monitors.find m {}).kept)) = some 0
      ∧ s.clock.running = true ∧ 44 ∈ allFields ∧ (199999999900 : U64).toNat + 100 ≤ s.now)
    ∧ (let s : State := { serving with plan := { lastRebalance := some 199900000000 } };
      s.serving = true ∧ s.plan.lastRebalance = some 199900000000 ∧ 100000000 ≤ s.since 199900000000) := by decide +kernel

/-- A replan in service, and while a stop holds. -/
theorem witness_PaceAndCredits_replan : serving.serving = true ∧ serving.stopHolds = false
    ∧ (let s : State := { serving with mod := { serving.mod with state := .stopped }, stop := { kind := .globalStop } };
      s.serving = true ∧ s.stopHolds = true) := by decide +kernel

theorem witness_BelfryConverts :
    (let s : State := { withCore {} with fields := Map.empty.put 44 { brought := true, blfInbox := [(core.key, [0x20] ++ List.replicate 15 0)] } };
      fieldExists 44 = true ∧ (s.field 44).brought = true ∧ (s.field 44).belfry.stamp = 0 ∧ (s.field 44).sleep ≠ .cold
      ∧ (s.field 44).power.iso ≠ .off ∧ (s.field 44).blfInbox = (core.key, [0x20] ++ List.replicate 15 0) :: []
      ∧ natAt ([0x20] ++ List.replicate 15 0) 0 1 = 0x20 ∧ s.resultAddrOk core.key 0 = true ∧ (s.field 44).belfry.swQueue.length < 8)
    ∧ (let s : State := { serving with fields := Map.empty.put 44 { belfry := { swQueue := [{}] } } };
      (s.field 44).belfry.swQueue = [{}] ∧ s.powered = true ∧ (s.field 44).sleep ≠ .cold)
    ∧ 15 < 16 ∧ 8 ≤ 8 ∧ 256 * 4095 ≤ 2 ^ 8 * 4095 := by decide +kernel

theorem witness_BelfryConverts_write : serving.accepts (hdr 0) rowHlBelfryWrite true := accepts_of (by decide +kernel)

theorem witness_SleepAndWake :
    (let s : State := { serving with fields := Map.empty.put 44 { sleepTo := some (.cold, 200000000000) } };
      fieldExists 44 = true ∧ (s.power 44).iso ≠ .off ∧ (s.power 44).iso ≠ .declared
      ∧ (s.field 44).sleepTo = some (.cold, 200000000000) ∧ (200000000000 : U64).toNat ≤ s.now ∧ (s.field 44).wakeWanted = false)
    ∧ (∀ z ∈ [Sleep.idle, .dim, .dark, .cold], let s : State := { serving with fields := Map.empty.put 44 { sleep := z } };
      (s.field 44).sleepTo = none ∧ (s.field 44).wakeAt = none ∧ (s.field 44).sleep = z ∧ darkScrubNs ≤ s.since (s.field 44).darkSince)
    ∧ (({ wakeAt := some 200000000000 } : Field).wakeAt = some 200000000000) := by decide +kernel

/-- A field that sleeps, or enters sleep, while an engine of it has rows to program: its wake is due at once. -/
theorem witness_SleepAndWake_due : ∀ z ∈ [Sleep.idle, .dim, .dark, .cold],
    let busy : Map Core := Map.empty.put core.key { engines := Map.empty.put 0 { rowsLeft := [(0, 0, [])] } };
    let s : State := { serving with cores := busy, fields := Map.empty.put 44 { sleep := z } };
    let u : State := { serving with cores := busy, fields := Map.empty.put 44 { sleepTo := some (z, 200000000000) } };
    (s.field 44).sleepTo = none ∧ (s.field 44).sleep = z ∧ s.wakeDue 44 = true
    ∧ (u.field 44).sleepTo ≠ none ∧ u.wakeDue 44 = true := by decide +kernel

/-- `serving`, more than two days on. -/
def later : State := { serving with clock := { running := true, tb := 200000000000000 } }

/-- An engine whose array 7 is due since 0. -/
def dueEngine : Engine := { arrays := Map.empty.put 7 { refDue := true, overdueAt := some 0 } }

theorem witness_LedgerAndAgeing :
    serving.clock.running = true ∧ serving.ledger.writable = true ∧ serving.ledger.snapping = false
    ∧ 86400 * 1000000000 ≤ later.since later.ledger.snapAt
    ∧ (let x : JournalChange := { kind := jkField, what := jwIsolated, key := 44, val := 1 };
      let l : Ledger := { copyA := some 84, snapping := true, ownerNext := some (1, 0, 7), waiting := [x], rebuildA := some 84, rebuildB := some 14 };
      l.writable = true ∧ l.snapping = true ∧ l.fwNext = none ∧ l.ownerNext = some (1, 0, 7) ∧ l.waiting = x :: [] ∧ x.kind = jkField
      ∧ x.what = jwIsolated ∧ l.rebuildB = some 14 ∧ l.rebuildA = some 84 ∧ l.whole = false)
    ∧ (let l : Ledger := { copyA := some 84, copyB := some 14, snapping := true, ownerNext := some (1, 0, 7) };
      l.whole = true ∧ l.fwNext = none ∧ ({ serving with ledger := l } : State).slotWears = false
      ∧ ({ serving with ledger := { l with waiting := [{ kind := jkArray, key := arrayKey (coreKey 84 67) 15 7, what := jwCycle }] } } :
          State).slotWears = true)
    ∧ (let l : Ledger := { copyA := some 84, rebuildB := some 14, ownerNext := some (1, 0, 7) };
      l.rebuildB = some 14 ∧ l.copyA.isSome = true ∧ l.lostA = false ∧ l.ownerNext ≠ none)
    ∧ (Nat.max 998 0 + 1) % 1024 ≠ 1000
    ∧ 44 ∈ allFields ∧ (serving.field 44).agedAt = none
    ∧ (let s := withCore { edition := 1, emap := List.range 16, engines := Map.empty.put 3 dueEngine };
      core.ok = true ∧ (s.array core.key 3 7).refDue = true ∧ s.holdsWeights core.key 3 = true
      ∧ (s.array core.key 3 7).overdueAt = some 0) := by decide +kernel

/-- An engine whose refresh is open, row 1023 of array 7 programmed. -/
def openEngine : Engine := { arrays := Map.empty.put 7 { refOpen := true, jobRows := [1023] } }

theorem witness_RefreshAndTrims :
    (let s := withCore { edition := 1, emap := List.range 16, engines := Map.empty.put 3 openEngine };
      core.ok = true ∧ (s.array core.key 3 7).state ≠ 1 ∧ (s.array core.key 3 7).state ≠ 2 ∧ (s.engine core.key 3).fenced = false
      ∧ (s.field core.field).fenced = false ∧ (s.engine core.key 3).queue.length < 4 ∧ (s.array core.key 3 7).samplePass = false
      ∧ (s.field core.field).awake = true ∧ 256 ≤ (s.power core.field).bucket
      ∧ s.holdsWeights core.key 3 = true ∧ (s.engine core.key 3).refreshOpen = true ∧ (s.engine core.key 3).refresh = none
      ∧ s.assisted (s.edition (s.core core.key).edition).partition 4 = false ∧ s.freeSpare core.key = some 16
      ∧ (s.array core.key 3 7).jobRows.contains 1023 = true ∧ (s.array core.key 3 7).verified.contains 1023 = false
      ∧ (s.engine core.key 3).agentBusy = false ∧ settleNs ≤ s.since ((s.array core.key 3 7).progAt.find 1023 0))
    ∧ (let r : Refresh := { phase := 4, spare := 16 };
      r.phase = 4 ∧ r.settleAt.toNat ≤ serving.now ∧ r.inPlace = false ∧ r.spare ≠ 3)
    ∧ (let s : State := { serving with
          editions := Map.empty.put 1 { kind := .forerunner, state := .current }
          plan := { serving.plan with slots := [{ id := 1, edition := 1, layer := 5, wait := 1 }] } };
      s.spanOpen 1 5 = true ∧ s.spanEarly core.key 3 = false ∧ s.serving = true ∧ (s.edition 1).kind = .forerunner ∧ (s.edition 1).state = .current) := by decide +kernel

/-- `serving` with stack 23 and a region of partition 1. -/
def withStack (t : Stack) (r : Region) : State :=
  { serving with stackSet := Map.empty.put 23 t, parts := Map.empty.put 1 { regions := Map.empty.put 2 r } }

/-- An initialised region of the last extent of stack 23. -/
def lastExtent : Region := { region with stackSet := [23], extents := [[767]], inited := true }

theorem witness_BackgroundRepairs :
    (let s := withCore { sp := { filled := true, copying := [{ line := 32767, spare := 5 }] } };
      core.ok = true ∧ 32767 < 32768 ∧ s.powered = true ∧ (s.field core.field).scrubRuns = true
      ∧ (s.core core.key).sp.scrubs 32767 = true
      ∧ (s.core core.key).sp.copying.find? (fun x => x.line = 32767) = some { line := 32767, spare := 5 })
    ∧ (let s := withStack { trained := true, copying := [{ granule := 9, spare := 63 }] } lastExtent;
      s.stackBackground 23 = true ∧ s.allRegions.any (fun r => r.inited && !r.void && r.covers 23 (767 * cbPerExtent / cbPerExtent)) = true
      ∧ (s.stack 23).copying.find? (fun x => x.granule = 9) = some { granule := 9, spare := 63 }) := by decide +kernel

theorem witness_FillsAndClears :
    (let s := withStack {} { region with filling := some (0, 7) };
      (s.part 1).regions.find? 2 = some { region with filling := some (0, 7) } ∧ s.powered = true ∧ s.stopHolds = false
      ∧ s.fillTurn { region with filling := some (0, 7) } = true
      ∧ region.stackSet.all (fun n => !(s.stack n).void || decide ((s.stack n).link = .lost)) = true)
    ∧ (let s := withStack { trained := true, clearing := [767] } region;
      s.stackBackground 23 = true ∧ (s.stack 23).clearing.contains 767 = true)
    ∧ (let s := withStack { trained := true, switchAt := some 1 } region;
      (s.field (s.otherAttach 23)).fenced = false ∧ (s.field (s.otherAttach 23)).sleep ≠ .cold ∧ s.powered = true ∧ (s.stack 23).switchAt.isSome = true ∧ (s.stack 23).link ≠ .lost)
    ∧ (let s := withCore { clearing := true };
      core.ok = true ∧ s.powered = true ∧ (s.core core.key).clearing = true ∧ (s.field core.field).awake = true
      ∧ (s.core core.key).clearDone = false ∧ (s.core core.key).clearJob = none) := by decide +kernel

/-! The hypotheses of the statements are met: serving. -/

/-- A request of one prompt token and one more, under the partition's edition. -/
def desc : Desc := { edition := 0xFFFF, promptLen := 1, maxLen := 2, ringEntries := 16, grammar := 0xFFFF, steer := 0xFFFFFFFF
                     mask := 0xFFFFFFFFFFFFFFFF, topP := 0x3F800000 }

/-- `serving`, with the partition's regions 0 and 2 and a current edition of one section. -/
def offering : State :=
  { serving with
    parts := Map.empty.put 1 { entry := { valid := true, rights := 31, reqCount := 256, steerCount := 16 }, current := 1
                               regions := (Map.empty.put 0 { region with size := 1048576 }).put 2 { region with size := 1048576 } }
    plan := { tNext := 200000000500 }
    editions := Map.empty.put 1 { partition := 1, state := .current, serving := some { maxLen := 16, posPerPage := 16, groups := 1 }, frame := 1, entryLimit := 4 } }

theorem witness_RequestsAreAdmitted :
    let u := offering.taken (hdr 128) rowSvAdmit;
    u.editionBad 1 desc = none ∧ u.descBad 1 (u.editionFor 1 desc) desc true = false ∧ desc.ship = false ∧ u.assisted 1 1 = false
    ∧ (match u.admission 1 desc (u.classOf 1 0) 0 with | .ok .. => true | .refuse .. => false) = true := by decide +kernel

theorem witness_RequestsAreAdmitted_accepts : offering.accepts (hdr 128) rowSvAdmit ((hdr 128).length = 128) (descFields desc)
    ∧ offering.accepts (hdr 128) rowSvKvOpen ((hdr 128).length = 128) (descFields desc) :=
  ⟨accepts_of (by decide +kernel), accepts_of (by decide +kernel)⟩

theorem witness_RequestsAreAdmitted_opens :
    let u := offering.taken (hdr 128) rowSvKvOpen;
    u.editionBad 1 desc = none ∧ u.descBad 1 (u.editionFor 1 desc) desc false = false
    ∧ (u.edition (u.editionFor 1 desc)).noService = false ∧ u.entryPages 1 (u.editionFor 1 desc) desc = (some (0, [0]), 0) := by
  decide +kernel

/-- `serving`, with request 0 of partition 1 in a state. -/
def requested (r : Req) : State := { serving with reqs := Map.empty.put 0 r }

theorem witness_RequestCommands : ∀ z ∈ [ReqState.running, .siding, .prefill], let s := requested { state := z, partition := 1 };
    (∀ row ∈ [rowSvCancel, rowSvFinish, rowSvPause, rowSvResume, rowSvStatus, rowSvRingAck, rowSvKvResend],
      (s.taken (hdr 0) row).tagFault (hdr 0) = none) ∧ (s.req (tagIndex (hdr 0).reqTag)).state = z
    ∧ (s.req 0).ackBad 0 = false := by decide +kernel

theorem witness_RequestCommands_accepts :
    let s := requested { state := .running, partition := 1 };
    (s.accepts (hdr 0) rowSvCancel ((hdr 0).length = 0) ∧ s.accepts (hdr 0) rowSvFinish ((hdr 0).length = 0)
      ∧ s.accepts (hdr 0) rowSvPause ((hdr 0).length = 0) ∧ s.accepts (hdr 0) rowSvStatus ((hdr 0).length = 0)
      ∧ s.accepts (hdr 4) rowSvRingAck ((hdr 4).length = 4))
    ∧ (requested { state := .siding, partition := 1 }).accepts (hdr 0) rowSvResume ((hdr 0).length = 0)
    ∧ (requested { state := .draining, shipping := true, partition := 1 }).accepts (hdr 4) rowSvKvResend ((hdr 4).length = 4) :=
  ⟨⟨accepts_of (by decide +kernel), accepts_of (by decide +kernel), accepts_of (by decide +kernel), accepts_of (by decide +kernel),
    accepts_of (by decide +kernel)⟩, accepts_of (by decide +kernel), accepts_of (by decide +kernel)⟩

theorem witness_RequestCommands_deadline :
    let s := requested { state := .running, desc := { deadline := 199999999999 } };
    s.powered = true ∧ s.stopHolds = false ∧ s.deadlineDue 0 = true := by decide +kernel

theorem witness_PartitionServingRecords : (7 : BitVec 8).toNat ≤ 7 ∧ ClassRec.bad {} = false ∧ (2 : BitVec 8).toNat ≤ 2
    ∧ (serving.part 1).grammars.entries = [] ∧ (serving.taken (hdr 16) rowSvSteerLoad).steerInRange 1 15 = true
    ∧ (serving.taken (hdr 16) rowSvSteerLoad).steerUsed 1 15 = false
    ∧ (List.range 4096).find? (fun n => !(serving.part 1).grammars.has n) = some 0 := by decide +kernel

theorem witness_PartitionServingRecords_accepts : serving.accepts (hdr 20) rowSvClassSet ((hdr 20).length = 20)
    ∧ serving.accepts (hdr 4) rowSvRole ((hdr 4).length = 4) ∧ serving.accepts (hdr 8) rowSvGrammarLoad ((hdr 8).length = 8)
    ∧ serving.accepts (hdr 16) rowSvSteerLoad ((hdr 16).length = 16) :=
  ⟨accepts_of (by decide +kernel), accepts_of (by decide +kernel), accepts_of (by decide +kernel), accepts_of (by decide +kernel)⟩

theorem witness_SamplesAndReplays :
    (let m : Nat × List Byte := (core.key, [1, 0, 1, 0] ++ List.replicate 12 0);
      let s : State := { serving with mod := { serving.mod with sampler := [m] } };
      s.gateStopped = false ∧ s.mod.sampler.find? (fun x => x.1 = core.key) = some m ∧ natAt m.2 8 8 = s.plan.window
      ∧ natAt m.2 0 1 = 1 ∧ natAt m.2 2 2 = 1 ∧ s.isCopyB core.key = false)
    ∧ (let q : Replay := { slot := { id := 3, lastPrompt := false }, due := 1 };
      let s : State := { requested { state := .running } with plan := { replays := [q] } };
      s.plan.replays.find? (fun r => r.slot.id = 3 ∧ !r.returned) = some q ∧ s.mod.state ≠ .stopped ∧ s.stop.kind = .none
      ∧ q.due ≤ s.plan.window + 1 ∧ (s.req q.slot.req).gen = q.slot.gen ∧ (s.req q.slot.req).state = .running
      ∧ q.report = false ∧ q.slot.lastPrompt = false ∧ (serving.req q.slot.req).state = .free) := by decide +kernel

/-! The hypotheses of the statements are met: weights, regions. -/

/-- `serving`, with edition 1 of partition 1. -/
def building (e : Edition) : State := { serving with editions := Map.empty.put 1 { e with partition := 1 } }

theorem witness_EditionCommands :
    (let e : Edition := { state := .building, manDone := true, parts := Map.empty.put 0 { length := 8 }, kind := .forerunner };
      (building e).edition 1 = { e with partition := 1 } ∧ e.missing = [] ∧ e.parts.has 0 = true ∧ 4 + [(1 : Byte), 2, 3, 4].length ≤ 8
      ∧ ({ length := 8 } : PartShard).overlaps 4 4 = false ∧ ({ length := 8, frags := [(4, [1, 2, 3, 4])] } : PartShard).whole = none
      ∧ e.abortable = true)
    ∧ ((building { state := .ready }).edition 1).noService = false ∧ ((building { state := .ready }).part 1).switch = none
    ∧ ((building { state := .retained }).edition 1).state = .retained := by decide +kernel

theorem witness_EditionCommands_accepts :
    let s := building { state := .building };
    s.accepts (hdr 20) rowWtShard ((hdr 20).length = 16 + [(1 : Byte), 2, 3, 4].length) ∧ s.accepts (hdr 4) rowWtClose ((hdr 4).length = 4)
    ∧ s.accepts (hdr 16) rowWtSwitch ((hdr 16).length = 16) 0x0400 ∧ s.accepts (hdr 4) rowWtRetire ((hdr 4).length = 4)
    ∧ s.accepts (hdr 4) rowWtAbort ((hdr 4).length = 4) ∧ s.accepts (hdr 4) rowWtStatus ((hdr 4).length = 4) :=
  ⟨accepts_of (by decide +kernel), accepts_of (by decide +kernel), accepts_of (by decide +kernel), accepts_of (by decide +kernel),
   accepts_of (by decide +kernel), accepts_of (by decide +kernel)⟩

/-- A manifest's head: magic, version 1, edition 9, kind shadow, two shards (Table 5-2). -/
def manifest : List Byte :=
  leBytes 4 0x4E4D564B ++ leBytes 2 1 ++ leBytes 2 9 ++ leBytes 4 0 ++ leBytes 4 2 ++ List.replicate 128 0

theorem witness_EditionOpensAndRolls :
    manifestBad manifest = false ∧ manifestSpan manifest + sigBytes = 144 + 96 + 17104 ∧ manifest.length < 144 + 96 + 17104
    ∧ (Manifest.ofBytes manifest).edition ≠ 1 ∧ region.void = false ∧ (serving.heldEditions 1).1 < 4 ∧ (serving.heldEditions 1).2 < 16
    ∧ (let s : State := { building { state := .current } with parts := Map.empty.put 1 { current := 1, regions := Map.empty.put 15 region } };
      (s.part 1).regions.find? 15 = some region
      ∧ (s.editions.vals.any (fun e => decide (e.partition = 1) && decide (e.state = .building))) = false)
    ∧ (let e : Edition := { partition := 1, state := .staged, base := 1 };
      let s : State := { building { state := .current } with editions := (Map.empty.put 1 { partition := 1, state := .current }).put 2 e
                                                             parts := Map.empty.put 1 { current := 1 } };
      (s.edition 2).state = .staged ∧ (s.edition 2).base = (s.part 1).current ∧ (s.part 1).switch = none
      ∧ (s.edition 1).rolling = none ∧ (s.edition 2).placement.map Placement.fixed = (s.edition 1).placement.map Placement.fixed) := by
  decide +kernel

/-- A serving record (Table 5-6) at the start of region 3 of an edition, with no pair record. -/
def recorded : State :=
  let bytes := leBytes 4 0x5253564B ++ leBytes 2 1 ++ leBytes 2 0 ++ leBytes 4 2 ++ leBytes 2 1 ++ leBytes 2 1 ++ leBytes 4 1;
  { building { state := .verifying, kind := .forerunner, regions := Map.empty.put 3 { region with inited := true } } with
    stackSet := Map.empty.put 0 { trained := true, filled := true, mem := (bytes.zip (List.range 20)).foldl (fun m x => m.write x.2 x.1) {} } }

theorem witness_EditionEvents : (recorded.edition 1).state = .verifying ∧ (recorded.edition 1).kind = .forerunner
    ∧ (recorded.recordsOf 1).isSome = true
    ∧ ∀ ph ∈ [RollPhase.drain, .rewrite, .close], let s := building { rolling := some { phase := ph, base := 2 } };
      (s.rollingIn 1 ph).isSome = true ∧ s.tokensOf 2 = false ∧ s.rollEngines 1 { phase := ph, base := 2 } = [] := by decide +kernel

theorem witness_RegionCommands :
    madeSelector 15 = true ∧ setStacks (0x800000 : BitVec 24).toNat = [23] ∧ (2048 : U64).toNat % (2048 * [23].length) = 0
    ∧ (serving.taken (hdr 16) rowMmCreate).regionUsed 1 15 = false ∧ (serving.part 1).regions.find? 15 = none
    ∧ (let s : State := { serving with parts := Map.empty.put 1 { entry := { valid := true, extents := Vector.replicate 24 1 } } };
      (s.extentShort 1 [23] 2048).any (fun n => decide (n ≠ 0)) = false)
    ∧ (let s := withRegion [];
      (s.taken (hdr 0) rowMmDelete).regionUsed 1 2 = false ∧ (s.taken (hdr 0) rowMmWrite).namedRegion 1 0 regionAddr = some region
      ∧ stackOff regionAddr % 2048 = 0 ∧ stackOff regionAddr + 2048 ≤ region.size ∧ region.madeIn < s.plan.window
      ∧ (s.taken (hdr 0) rowMmWrite).writeGuarded 1 (stackSel regionAddr) (stackOff regionAddr) 2048 = false ∧ region.void = false)
    ∧ spPoison (recorded.regionBytes region 0 32) = false := by decide +kernel

theorem witness_RegionCommands_accepts :
    let s := withRegion [];
    s.accepts (hdr 16) rowMmCreate ((hdr 16).length = 16) ∧ s.accepts (hdr 0) rowMmDelete true ∧ s.accepts (hdr 0) rowMmWrite true
    ∧ s.accepts (hdr 0) rowMmRead true ∧ s.accepts (hdr 0) rowMmInfo true ∧ s.accepts (hdr 0) rowMmMarkInit true :=
  ⟨accepts_of (by decide +kernel), accepts_of (by decide +kernel), accepts_of (by decide +kernel), accepts_of (by decide +kernel),
   accepts_of (by decide +kernel), accepts_of (by decide +kernel)⟩

/-! The hypotheses of the statements are met: the fabric. -/

/-- A port whose 8 lanes are good, up at version 3. -/
def port : Port := { record := { cls := 1, laneMask := 0xFF, maxVersion := 3 }, up := true, version := 3, width := 8 }

/-- `serving` as module 0 of a group, port 31 up to member 1, with a job of members 0 and 1. -/
def joined (j : Job) : State :=
  { serving with fabric := {
      ports := Map.empty.put 31 { port with record := { port.record with role := 1, peerMember := 1 }, peer := 1 }
      route := { memberBits := 4, swNs := 100 }, jobs := [j] } }

def job : Job := { id := 5, epoch := 2, partition := 1, members := [0, 1], rank := 0, version := 3, floor := 1 }

/-- A packet to module 0 from member 1 of that job. -/
def packet (type offset : Nat) (payload : List Byte) : FabPkt :=
  { version := 3, type := type, epoch := 2, src := 1, job := 5, partition := 1, ref := 1, offset := offset, payload := payload, last := true }

theorem hears_of {s : State} {n ty : Nat} {p : FabPkt}
    (w : (s.powered && decide (n < 32) && (s.port n).up && decide (p.type = ty) && decide ((readPkt p).dst = s.moduleId)
      && decide ((s.port n).record.cls = 4 → (readPkt p).src = s.moduleId) && decide (p.version ≠ 0)
      && decide (p.version ≤ (s.port n).version) && decide (typeSince ty ≤ p.version)
      && decide (p.payload.length ≤ versionPayload p.version) && decide (p.payload.length ≤ lanePayload ty)
      && decide (s.pktPartition p < 64)) = true) : s.hears n ty p := by
  simp only [Bool.and_eq_true, decide_eq_true_eq, and_assoc] at w
  exact w

theorem witness_PortsAndRoutes :
    serving.portRecBad 31 { cls := 4, maxVersion := 3 } = false ∧ 31 < 32
    ∧ serving.routeBad { memberBits := 4, l1Bits := 14, swNs := 1000 } = false
    ∧ (let s : State := { serving with fabric := { ports := Map.empty.put 31 { port with up := false } } };
      (s.port 31).up = false ∧ (s.port 31).record.cls ≠ 0
      ∧ Nat.min (Nat.min (s.port 31).record.maxVersion.toNat 3) 1 = 1 ∧ widthOf 1 (laneCount ((s.port 31).record.laneMask &&& BitVec.ofNat 8 15)) = 4)
    ∧ (let s : State := { serving with fabric := { ports := Map.empty.put 31 { port with retrain := true } } };
      (s.port 31).up = true ∧ (s.port 31).good.getLsbD 7 = true ∧ (s.port 31).retrain = true
      ∧ widthOf (s.port 31).version (laneCount { s.port 31 with bad := (s.port 31).bad ||| BitVec.twoPow 8 7 }.good) = 6) := by
  decide +kernel

theorem witness_PortsAndRoutes_accepts : serving.accepts (hdr 0) rowFbPortSet true ∧ serving.accepts (hdr 0) rowFbRouteSet true
    ∧ serving.accepts (hdr 0) rowFbStatus ((hdr 0).length = 0) :=
  ⟨accepts_of (by decide +kernel), accepts_of (by decide +kernel), accepts_of (by decide +kernel)⟩

theorem witness_DataAndTime :
    (joined job).hears 31 0x01 { packet 0x01 0 [1] with job := 0 } ∧ (joined job).hears 31 0x02 { packet 0x02 0 [] with job := 0 }
    ∧ (joined job).hears 31 0x40 { packet 0x40 0 [] with job := 0 } ∧ (joined job).hears 31 0x41 { packet 0x41 0 (List.replicate 16 0) with job := 0 } :=
  ⟨hears_of (by decide +kernel), hears_of (by decide +kernel), hears_of (by decide +kernel), hears_of (by decide +kernel)⟩

theorem witness_DataAndTime_rest : (joined job).accepts (hdr 0) rowFbTime true
    ∧ RouteRec.idBad (joined job).fabric.route 1 = false ∧ 3 ≤ (joined job).fabric.peers.find 1 3
    ∧ (joined job).firstPort { version := 3, type := 0x40, dst := 1, partition := 1, last := true } = some 31
    ∧ (joined job).fabric.probes.any (fun q => q.dst = 1) = false
    ∧ (keptExchange (List.replicate 8 (0, 1, 2, 3))).isSome = true ∧ ((joined job).port 31).time.valid = false :=
  ⟨accepts_of (by decide +kernel), by decide +kernel, by decide +kernel, by decide +kernel, by decide +kernel, by decide +kernel, by decide +kernel⟩

theorem witness_JobsAndBarriers :
    (let s := joined { job with id := 6 };
      (∀ m ∈ [0, 1], RouteRec.idBad s.fabric.route m = false) ∧ s.moduleId ∈ [0, 1] ∧ [0, 1].Nodup ∧ s.job 5 = none)
    ∧ (joined job).job 5 = some job ∧ job.busy = false ∧ job.barrier = none ∧ job.roots = [] ∧ 2 ≤ job.members.length
    ∧ (joined job).jobOf (packet 0x10 0 []) = some job ∧ (packet 0x10 0 []).ref.toNat < job.members.length ∧ 0 ∉ job.done
    ∧ (let b : Barrier := { number := 3, timeout := 200000000000 };
      let j := { job with barrier := some { b with sentAt := 0 }, roots := [b] };
      (joined j).job 5 = some j ∧ j.roots.find? (fun b => decide (b.timeout ≤ (joined j).since b.first)) = some b
      ∧ (j.barrier.map Barrier.number) = some 3) := by decide +kernel

/-- Members of which version 3 is known lie above every floor. -/
theorem witness_JobsAndBarriers_floor : (let s : State := { joined job with fabric := { (joined job).fabric with peers := Map.empty.put 1 3 } };
    s.laggard (s.newJob (hdr 0) 5 2 3 [0, 1])) = none ∧ (joined job).rankPort job 1 = some 31 := by decide +kernel

theorem witness_JobsAndBarriers_heard : (joined job).hears 31 0x10 (packet 0x10 0 (leBytes 12 0))
    ∧ (joined job).hears 31 0x11 (packet 0x11 0 (leBytes 12 3)) ∧ (joined job).accepts (hdr 0) rowFbJob true
    ∧ (joined job).accepts (hdr 0) rowFbBarrier true :=
  ⟨hears_of (by decide +kernel), hears_of (by decide +kernel), accepts_of (by decide +kernel), accepts_of (by decide +kernel)⟩

/-- `joined` with region 2 of `region` in the partition. -/
def joinedRegion (j : Job) : State :=
  { joined j with parts := Map.empty.put 1 { entry := { valid := true, rights := 31 }, regions := Map.empty.put 2 region } }

theorem witness_JobReductions :
    (let u := (joinedRegion job).taken (hdr 0) rowFbReduce;
      u.resolve 1 0 regionAddr (512 * reduceSize 0) = some region ∧ reduceAllowed 3 0 0 = true ∧ childRanks 0 2 = [1] ∧ job.reduce = none
      ∧ (joinedRegion job).job 5 = some job)
    ∧ (packet 0x20 0 [1]).ref.toNat ∈ childRanks job.rank job.members.length ∧ (job.reduce.getD {}).cmd = none
    ∧ (let r : Reduce := { count := 2, all := true, sent := true };
      let j := { job with rank := 1, reduce := some r };
      (joined j).jobOf { packet 0x21 0 [1, 2, 3, 4] with ref := 0 } = some j ∧ r.all = true ∧ r.sent = true ∧ (0 : Nat) = parentRank j.rank ∧ j.rank ≠ 0
      ∧ (joinParts (r.result.filter (fun x => x.1 ≠ 0) ++ [(0, [1, 2, 3, 4])])).length < r.count * reduceSize r.fmt) := by
  decide +kernel

theorem witness_JobReductions_heard : (joinedRegion job).accepts (hdr 0) rowFbReduce true
    ∧ (joined job).hears 31 0x20 (packet 0x20 0 [1, 2, 3, 4]) ∧ (joined job).hears 31 0x20 (packet 0x20 0xFFFFFFFF [1, 0, 0, 0])
    ∧ (joined job).hears 31 0x21 (packet 0x21 0 [1, 2, 3, 4]) :=
  ⟨accepts_of (by decide +kernel), hears_of (by decide +kernel), hears_of (by decide +kernel), hears_of (by decide +kernel)⟩

theorem witness_MulticastsAndShipments :
    (let u := (joinedRegion job).taken (hdr 0) rowFbMcast;
      u.resolve 1 0 regionAddr 2048 = some region ∧ u.resolve 1 0 regionAddr (4 * [1].length) = some region ∧ job.mcast = none ∧ 2 ≤ job.version)
    ∧ (List.range job.members.length).filter (fun r => r ≠ job.rank) = [1]
    ∧ job.rx = [] ∧ mcastHeadOf [(0, [1, 2, 3])] = none
    ∧ (let m : Mcast := { targets := [1, 2], deadline := 200000000000 };
      (∃ n, n < m.targets.length ∧ m.results.has n = false ∧ n ≠ 0) ∧ m.deadline.toNat ≤ serving.now)
    ∧ (let s := requested { state := .admitted, kvWait := true };
      s.receiverOf { packet 0x08 0 [] with ref := 0 } = some 0 ∧ (s.req 0).kvFromPage = [] ∧ (s.req 0).kvManifest = [])
    ∧ (let s := requested { state := .admitted, kvWait := true, kvFromPage := [(3, [])] };
      s.powered = true ∧ (3, ([] : List Byte)) ∈ (s.req 0).kvFromPage ∧ 3 ∉ (s.req 0).kvHave ∧ 1000000 ≤ s.since (s.req 0).kvLast)
    ∧ (let s := requested { state := .draining, shipping := true, desc := { ship := true } };
      s.shipmentOf { packet 0x0A 0 [] with src := shipModule (s.req 0).desc, ref := BitVec.ofNat 32 (shipTag (s.req 0).desc) } = some 0
      ∧ 3 ∉ (s.req 0).kvNaks) := by decide +kernel

theorem witness_MulticastsAndShipments_heard : (joinedRegion job).accepts (hdr 0) rowFbMcast true
    ∧ (joined job).hears 31 0x30 (packet 0x30 0 [1, 2, 3]) ∧ (joined job).hears 31 0x31 (packet 0x31 0 (leBytes 8 0))
    ∧ (joined job).hears 31 0x08 { packet 0x08 0 [] with job := 0 } ∧ (joined job).hears 31 0x09 { packet 0x09 63488 (List.replicate 2048 0) with job := 0 }
    ∧ (joined job).hears 31 0x0A { packet 0x0A 0 [] with job := 0 } ∧ (joined job).hears 31 0x0B { packet 0x0B 0 (leBytes 4 3) with job := 0 } :=
  ⟨accepts_of (by decide +kernel), hears_of (by decide +kernel), hears_of (by decide +kernel), hears_of (by decide +kernel),
   hears_of (by decide +kernel), hears_of (by decide +kernel), hears_of (by decide +kernel)⟩

/-! The hypotheses of the statements are met: sessions and the link. -/

/-- `serving`, with connector A as it is given. -/
def linked (c : Connector) : State := { serving with alaok := { conns := Map.empty.put 0 c } }

/-- A connector that carries, with a session. -/
def carrying (v : Session) : Connector := { up := true, trained := true, hello := true, link := 0x0202, sess := v }

theorem witness_SessionsAndAuthentication :
    (linked (carrying {})).accepts (hdr 32) rowSsOpen ((hdr 32).length = 32)
    ∧ (linked (carrying { session with id := 9 })).accepts (hdr 32) rowSsOpen ((hdr 32).length = 32)
    ∧ serving.accepts (hdr 0) rowSsClose ((hdr 0).length = 0)
    ∧ (linked (carrying { session with standby := true })).accepts (hdr 0) rowSsTakeover ((hdr 0).length = 0)
    ∧ ({ linked (carrying { session with standby := true }) with mod := { state := .bringUp } } : State).accepts (hdr 0) rowSsTakeover ((hdr 0).length = 0)
    ∧ serving.accepts (hdr 0) rowSsEcho ((hdr 0).length = 0) ∧ serving.accepts (hdr 440) rowSsAuth ((hdr 440).length = 440)
    ∧ serving.accepts (hdr 16616) rowSsAuth ((hdr 16616).length = 16616) :=
  ⟨accepts_of (by decide +kernel), accepts_of (by decide +kernel), accepts_of (by decide +kernel), accepts_of (by decide +kernel),
   accepts_of (by decide +kernel), accepts_of (by decide +kernel), accepts_of (by decide +kernel), accepts_of (by decide +kernel)⟩

/-- What the signature functions of `Config` answer is free: a proof that is presented is either of the two cases. -/
theorem witness_SessionsAndAuthentication_rest :
    commonSet 0x0300 0x0301 = some 0x0301 ∧ (linked (carrying { session with id := 9 })).sessionNamed 9 = some 0
    ∧ (linked (carrying { session with nonce := some 4, nonceAt := 190000000001 })).liveNonce 0 = some 4
    ∧ (linked (carrying { session with authKey := 6, authLevel := 0 })).ledger.owner = 0
    ∧ ({ linked (carrying { session with authKey := 6, authLevel := 0 }) with ledger := { owner := 6 } } : State).anchorOk 0 = true
    ∧ 10000000000 ≤ serving.since 190000000000 ∧ (200000000000 : U64).toNat ≤ serving.now := by decide +kernel

theorem witness_ConnectorLink :
    (let s := linked { carrying session with rx := Map.empty.put 0 { credits := 64 }, lastTx := 199999990000 };
      (s.conn 0).carries = true ∧ nodeStream (s.conn 0).link 0 = true ∧ ((s.conn 0).rx.find 0 {}).skipping = false
      ∧ frame.seq = ((s.conn 0).rx.find 0 {}).next ∧ ceilDiv 4096 64 ≤ ((s.conn 0).rx.find 0 {}).credits
      ∧ 4096 ≤ maxPayload (s.conn 0).link ∧ 10000 ≤ s.since (s.conn 0).lastTx ∧ (s.conn 0).lanes.getLsbD 3 = true
      ∧ (s.conn 0).lanes &&& ~~~ BitVec.twoPow 4 3 ≠ 0 ∧ (s.conn 0).link ≠ 0x0100 ∧ 0x0201 ≤ (s.conn 0).link.toNat
      ∧ (s.conn 0).sess.isOpen = true ∧ (s.conn 0).clkValid = false)
    ∧ (let s := linked { up := true, trained := true };
      s.clock.running = true ∧ (s.conn 0).hello = false ∧ (s.conn 0).lockUntil = none ∧ 1000000 ≤ s.since (s.conn 0).helloAt)
    ∧ commonLink 0x0100 0x0100 = some 0x0100 ∧ commonLink 0x0001 0x00FF = none ∧ (serving.conn 1).trained = false
    ∧ (BitVec.twoPow 4 3) &&& ~~~ BitVec.twoPow 4 3 = 0 := by decide +kernel

/-! The hypotheses of the statements are met: management, protection, debug. -/

theorem witness_ManagementAndHealth :
    serving.accepts (hdr 0) rowMgInfo ((hdr 0).length = 0) ∧ serving.accepts (hdr 16) rowMgPowerSet ((hdr 16).length = 16)
    ∧ serving.accepts (hdr 0) rowMgPowerGet ((hdr 0).length = 0) ∧ serving.accepts (hdr 16) rowMgPolicySet ((hdr 16).length = 16) 0x0400 0x0200
    ∧ serving.accepts (hdr 16) rowMgSelftest ((hdr 16).length = 16) ∧ serving.accepts (hdr 8) rowMgReset ((hdr 8).length = 8)
    ∧ ({ serving with mod := { state := .outOfService } } : State).accepts (hdr 8) rowMgReset ((hdr 8).length = 8)
    ∧ serving.accepts (hdr 0) rowHlConfig true ∧ serving.accepts (hdr 16) rowHlCounters ((hdr 16).length = 16)
    ∧ serving.accepts (hdr 0) rowHlRepairMap true ∧ serving.accepts (hdr 0) rowHlLedgerRead true ∧ serving.accepts (hdr 0) rowHlFaults true
    ∧ serving.accepts (hdr 0) rowHlBelfry true :=
  ⟨accepts_of (by decide +kernel), accepts_of (by decide +kernel), accepts_of (by decide +kernel), accepts_of (by decide +kernel),
   accepts_of (by decide +kernel), accepts_of (by decide +kernel), accepts_of (by decide +kernel), accepts_of (by decide +kernel),
   accepts_of (by decide +kernel), accepts_of (by decide +kernel), accepts_of (by decide +kernel), accepts_of (by decide +kernel),
   accepts_of (by decide +kernel)⟩

theorem witness_ManagementAndHealth_rest :
    SelfTestParams.targetOk 2 (packedCore core.key) = true ∧ serving.mod.tests.length < 4 ∧ serving.inService = true
    ∧ serving.stopHolds = false ∧ serving.stop.kind ≠ .settling ∧ serving.isLevel0 0 = true ∧ fieldExists 44 = true
    ∧ scopeExists 4 0 = true ∧ 6 + 1 ≤ counterCount 4
    ∧ (let x : SelfTest := { units := [packedCore core.key], tests := 2 };
      ({ serving with mod := { state := .inService, tests := [x] } } : State).mod.tests[0]? = some x
      ∧ benched.resultsFit x [(packedCore core.key, 1, 1)] = true) := by decide +kernel

theorem witness_ProtectionCommands :
    serving.accepts (hdr (16 + 176 * 1)) rowPrSet ((hdr (16 + 176 * 1)).length = 16 + 176 * [({} : ProtEntry)].length)
    ∧ serving.accepts (hdr 17) rowPrSet ((hdr 17).length = 16 + [(255 : Byte)].length) ∧ serving.accepts (hdr 448) rowPrSet ((hdr 448).length = 448)
    ∧ serving.accepts (hdr 18) rowPrFirmware ((hdr 18).length = 16 + [(1 : Byte), 2].length) ∧ serving.accepts (hdr 0) rowPrGet true
    ∧ serving.accepts (hdr 56) rowPrAttest ((hdr 56).length = 56) :=
  ⟨accepts_of (by decide +kernel), accepts_of (by decide +kernel), accepts_of (by decide +kernel), accepts_of (by decide +kernel),
   accepts_of (by decide +kernel), accepts_of (by decide +kernel)⟩

theorem witness_ProtectionCommands_rest :
    let u := serving.taken (hdr 17) rowPrSet;
    [({} : ProtEntry)].any protBad = false ∧ 63 + [({} : ProtEntry)].length ≤ 64 ∧ (u.tablesNext.setEntries 63 [{}]).bad = false
    ∧ ((List.range 1).zip [(255 : Byte)]).any (fun x => u.mapBad (6799 + x.1) x.2.toNat) = false ∧ (u.tablesNext.setMap 6799 [255]).bad = false
    ∧ serving.ledger.ownerNext = none ∧ serving.ledger.fwFrag.length = 0 ∧ serving.ledger.fwNext = none ∧ 2199550 + 2 ≤ 2199552 := by
  decide +kernel

/-- An attestation in progress, its command outstanding. -/
theorem witness_ProtectionCommands_attests :
    let o : Outst := { op := rowPrAttest.op, cmdTag := 7 };
    let s : State := { linked (carrying { session with outst := [o] }) with mod := { serving.mod with attests := [{ cmdTag := 7 }] } };
    s.mod.attests = { cmdTag := 7 } :: [] ∧ s.owedOn 0 7 = some 0 ∧ (s.conn 0).sess.outst.find? (fun x => x.is 0 7) = some o
    ∧ s.mod.attests.length < 4 ∧ 4 ≤ (List.replicate 4 ({} : Attest)).length := by decide +kernel

theorem witness_AssistsAndAnswers :
    serving.accepts (hdr 4) rowAsModeSet ((hdr 4).length = 4) 0 0x0200
    ∧ serving.accepts (hdr 9) rowAsAnswer (decide ((hdr 9).length = 8 + [(0 : Byte)].length) && answerLengthOk 1 [0]) :=
  ⟨accepts_of (by decide +kernel), accepts_of (by decide +kernel)⟩

theorem witness_AssistsAndAnswers_rest :
    (let a : Assist := { id := 3, fn := 1, partition := 1, deadline := 200000000000, desc := some (desc, hdr 128) };
      let s : State := { serving with alaok := { serving.alaok with assists := [a] } };
      s.alaok.assists.find? (fun a => a.id = 3 ∧ a.partition = 1) = some a ∧ s.now ≤ a.deadline.toNat ∧ natAt [(0 : Byte)] 0 1 = 0)
    ∧ (let a : Assist := { id := 3, fn := 6, partition := 1, deadline := 199999999999 };
      let s : State := { serving with alaok := { serving.alaok with assists := [a] } };
      s.alaok.assists.find? (fun a => a.id = 3) = some a ∧ s.stopHolds = false ∧ a.deadline ≠ 0 ∧ a.deadline.toNat < s.now) := by
  decide +kernel

/-- The map of a value at each number of a list. -/
def tabled {α : Type} (l : List Nat) (v : α) : Map α := l.foldl (fun m k => m.put k v) .empty

/-- `serving`, stopped in a way. -/
def stopped (k : StopKind) : State := { serving with mod := { state := .stopped }, stop := { kind := k } }

theorem witness_DebugStops :
    serving.accepts (hdr 0) rowDbStop ((hdr 0).length = 0) ∧ (stopped .globalStop).accepts (hdr 0) rowDbStop ((hdr 0).length = 0)
    ∧ serving.accepts (hdr 0) rowDbStopNow ((hdr 0).length = 0) ∧ serving.accepts (hdr 0) rowDbGo ((hdr 0).length = 0)
    ∧ (stopped .nowStop).accepts (hdr 0) rowDbGo ((hdr 0).length = 0) ∧ (stopped .globalStop).accepts (hdr 0) rowDbGo ((hdr 0).length = 0) :=
  ⟨accepts_of (by decide +kernel), accepts_of (by decide +kernel), accepts_of (by decide +kernel), accepts_of (by decide +kernel),
   accepts_of (by decide +kernel), accepts_of (by decide +kernel)⟩

theorem witness_DebugStops_rest :
    (let s : State := { serving with stop := { kind := .settling } };
      s.powered = true ∧ s.plan.replays.all (fun q => q.returned) = true)
    ∧ (let s : State := { serving with stop := { kind := .nowSpreading }, fields := Map.empty.put 44 { stopArrived := true } };
      fieldExists 44 = true ∧ (s.field 44).stopArrived = true ∧ (s.field 44).snap = none ∧ (s.field 45).stopArrived = false
      ∧ ((List.range 68).map (coreKey 44)).all (fun k => (s.core k).unitsQuiet) = true ∧ 45 ∈ allFields ∧ (s.field 45).snap = none)
    ∧ (let s : State := { serving with stop := { kind := .nowSpreading }, fields := tabled allFields { snap := some {} } };
      ∀ g ∈ allFields, g ≠ 44 → (s.field g).snap.isSome = true)
    ∧ (stopped .nowStop).stop.nowBase = .none := by decide +kernel

theorem witness_DebugAccess :
    (withCore { mode := .halted }).accepts (hdr 0) rowDbWatchSet true ∧ (withCore { mode := .halted }).accepts (hdr 0) rowDbCoreRead true
    ∧ (withCore { mode := .halted }).accepts (hdr 0) rowDbCoreGo true ∧ serving.accepts (hdr 16) rowDbTrace ((hdr 16).length = 16)
    ∧ serving.accepts (hdr 32) rowDbDigest ((hdr 32).length = 32) :=
  ⟨accepts_of (by decide +kernel), accepts_of (by decide +kernel), accepts_of (by decide +kernel), accepts_of (by decide +kernel),
   accepts_of (by decide +kernel)⟩

theorem witness_DebugAccess_rest :
    core.ok = true ∧ (withCore {}).coreDenied (hdr 0) core.key = false ∧ ((withCore { mode := .halted }).core core.key).mode = .halted
    ∧ serving.fieldDenied 0 44 = false ∧ 2048 ≤ 2048 ∧ serving.mod.state ≠ .outOfService ∧ (15 : BitVec 8).toNat ≤ 15
    ∧ (let s : State := { serving with collector := { waiting := [(1, 0, [])] } };
      s.gateStopped = false ∧ s.collector.waiting = (1, 0, []) :: [] ∧ (s.collector.of 1 0).length < 31 ∧ s.collector.recs.length < 1024) := by
  decide +kernel

/-! The hypotheses of the statements are met: bring-up and the rules over all commands. -/

/-- The example of R370: the scale of monitor 5 of field 57 at 0.75 V is 2,526, from the smallest class-loop total. -/
theorem test_monitor_scale :
    probeScale { bandgap0 := 0, bandgap1 := 0, ground := 0, sensors := [], railOk := true, wireFails := []
                 classLoops := [[], [], [35360, 34240, 36800, 34880]], monitors := [[], [], [0, 0, 0, 0, 0, 54400]], paceCounts := []
                 coreFails := [], engineFails := [], lineFails := [], spareFails := [] } 2 5 = 2526 := by decide +kernel

/-- A module in bring-up at a phase. -/
def rising (n : Nat) : State := { mod := { state := .bringUp, phase := n, pwrGood := true } }

theorem witness_BringUpAndPower :
    State.reset.mod.state = .noPower ∧ State.reset.mod.powerFail = false ∧ (rising 1).mod.failure = none ∧ (rising 2).mayBring gateField = true
    ∧ (let s : State := { rising 5 with fields := (Map.empty.put gateField { brought := true }).put 84 { unrecorded := true } };
      s.mayBring 84 = true ∧ (s.field 84).unrecorded = true ∧ s.mayBring 74 = false)
    ∧ (ledgerCandidates false).find? (fun f => [84].contains f) = some 84 ∧ (rising 3).copyStands false (some 84) = true
    ∧ (rising 3).ledger.ownerRead.slotRead = some 0
    ∧ (let s : State := { rising 3 with ledger := { fw := [{ svn := 1 }] } };
      s.ledger.ownerRead.bestImage.isSome = true)
    ∧ (let s : State := { rising 5 with fields := tabled allFields { brought := true, power := { converterOn := true } } };
      (s.stack 23).trained = false ∧ s.carriesStack (stackHome 23) = true ∧ (s.stack 23).link = .home
      ∧ (∀ g ∈ allFields, (s.field g).brought = true) ∧ s.goodFields.length < 80)
    ∧ (let s : State := { rising 5 with fields := tabled allFields { brought := true, code := 1 } };
      80 ≤ s.goodFields.length)
    ∧ (let s : State := { rising 8 with stackSet := tabled (List.range 24) { trained := true, fillDone := true } };
      ∀ j, j < 24 → (s.stack j).trained = true ∧ (s.stack j).fillDone = true)
    ∧ 43999 < 44000 ∧ ({ rising 5 with mod := { powerFail := true } } : State).mod.powerFail = true := by decide +kernel

theorem witness_CommandsNeedASession : (Instr.ssEcho (hdr 0)).header = some (hdr 0) ∧ State.reset.powered = false
    ∧ (linked (carrying {})).powered = true ∧ ((linked (carrying {})).conn 0).sess.isOpen = false := by decide +kernel

theorem witness_IdleStepTicks : serving.pending = [] ∧ serving.clock.running = true ∧ State.reset.pending = [] ∧ State.reset.clock.running = false := by
  decide +kernel

theorem witness_RegisterWritesReadBack : (31 : BitVec 5) ≠ 0 ∧ (0 : BitVec 5) ≠ 31 := by decide

theorem witness_RegisterWritesReadBack_jumps : (running (.jal 16382)).readyFor core (.jal 16382)
    ∧ (running (.jalr 31 2 4)).readyFor core (.jalr 31 2 4) ∧ ((running (.jalr 31 2 4)).core core.key).bad 2 = false
    ∧ (0 : Int) + 4 + 4 * (16382 : BitVec 26).toInt < 65536 :=
  ⟨running_ready _ (by decide +kernel), running_ready _ (by decide +kernel), rfl, by decide⟩

theorem witness_CoreWordsReadBack : (CoreOp.alu 14 31 31 31).wellFormed = true ∧ (CoreOp.load 4 31 31 0xFFFF).wellFormed = true := by decide

/-- A state that keeps what every step keeps, with a command waiting, and its step. -/
theorem witness_StepKeepsLegal :
    let s : State := { withCore {} with pending := [.hotSwapCharged] };
    s.legal ∧ s.stepsTo { s with pending := [], mod := { s.mod with pwrGood := true } } :=
  ⟨⟨fun c h => by rw [List.mem_singleton.mp h]; decide, by unfold State.windowLegal; decide +kernel,
    fun c h => by rw [List.mem_singleton.mp h]; exact ⟨⟨rfl, List.nodup_nil, List.nodup_nil⟩, fun _ h => by cases h⟩, fun _ h => by cases h⟩, rfl⟩

/-! The hypotheses of the statements are met: the cores and engines, the further cases. -/

/-- A core that runs an instruction, otherwise as it is given. -/
def issuing (v : Core) (o : CoreOp) : State := withCore { v with mode := .running, prog := Map.empty.put 0 (encodeCore o) }

theorem issuing_ready (v : Core) (o : CoreOp) (t : v.traceCtl = 0) (h : (issuing v o).coreReady core = true
    ∧ decodeCore (((issuing v o).core core.key).instrAt ((issuing v o).core core.key).pc.toNat) = some o
    ∧ (issuing v o).haltsAt core.key = false) : (issuing v o).readyFor core o :=
  ⟨h.1, h.2.1, Or.inl h.2.2, noTrace (show ((issuing v o).core core.key).traceCtl = 0 from t)⟩

def anyCmd : Cmd := { bytes := [], seq := some 0 }

/-- A queue that is full, and a poisoned register. -/
theorem witness_CoreUnitIssues_full : (∀ k : BitVec 2, (issuing { unpopped := 128 } (.issue k 1 2 3 4)).readyFor core (.issue k 1 2 3 4))
    ∧ (∀ k : BitVec 2, (issuing { poison := 2 } (.issue k 1 2 3 4)).readyFor core (.issue k 1 2 3 4))
    ∧ ((issuing { poison := 2 } (.issue 0 1 2 3 4)).core core.key).bad 1 = true
    ∧ (let v : Core := { emap := [9], engines := Map.empty.put 9 { queue := List.replicate 4 anyCmd }
                         spireQ := List.replicate 4 anyCmd, dmaQ := List.replicate 8 anyCmd };
      4 ≤ (v.engine (v.emap.getD (0 : BitVec 5).toNat 0)).queue.length ∧ 4 ≤ v.spireQ.length ∧ 8 ≤ v.dmaQ.length ∧ v.stores = []
      ∧ (issuing v (.issue 0 0 0 0 0)).coreReady core = true) :=
  ⟨fun k => issuing_ready _ _ rfl (by revert k; decide +kernel), fun k => issuing_ready _ _ rfl (by revert k; decide +kernel), by decide +kernel,
   by decide +kernel⟩

theorem witness_CoreCompletions_more : (issuing { cpl := [(1, 2)] } (.cpop 1 1)).readyFor core (.cpop 1 1)
    ∧ ((issuing { cpl := [(1, 2)] } (.cpop 1 1)).core core.key).cpl = (1, 2) :: []
    ∧ ((withCore { dmaDone := some (0, anyCmd) }).core core.key).dmaDone = some (0, anyCmd) ∧ anyCmd.seq.isSome = true
    ∧ natAt anyCmd.bytes 0 1 ≠ 2 ∧ natAt [(2 : Byte), 7] 0 1 = 2 ∧ natAt [(2 : Byte), 7] 1 1 = 7 ∧ (0x02000000 : Word).toNat / 2 ^ 24 ≠ 1
    ∧ (0x02000000 : Word).toNat / 2 ^ 24 ≠ 3 :=
  ⟨issuing_ready _ _ rfl (by decide +kernel), by decide +kernel, by decide +kernel, by decide +kernel, by decide +kernel, by decide +kernel,
   by decide +kernel, by decide +kernel, by decide +kernel⟩

theorem witness_CoreEvents_more : ((withCore { mode := .faulted }).core core.key).mode = .faulted
    ∧ ((withCore { mode := .faulted }).core core.key).contrib = none ∧ ((withCore { mode := .faulted }).core core.key).quiet = true
    ∧ (∀ n, (withCore { mode := .running, waitMask := some (1, 2) }).traceStalls core.key n = false) :=
  ⟨by decide +kernel, by decide +kernel, by decide +kernel, noTrace rfl⟩

/-- `fireOver` on an input whose segments all begin with 17, in a field whose bucket holds `n` credits. -/
def fireWith (n : Nat) : State :=
  { fireOver ((List.range 16).foldl (fun p i => Scratch.putAll core.key (64 * i) [(0x11, false)] p) { filled := true }) with
    fields := Map.empty.put 44 { power := { converterOn := true, bucket := n }, brought := true } }

/-- A `FIRE` of such an input in two passes (Table 3-2: input mode 2, shift 4, width 4) needs 32 credits: with none it waits. -/
theorem witness_EngineFires_credits : let s := fireWith 0;
    let f := FireCmd.ofBytes ((fireBytes.set 2 0x12).set 4 0x34);
    let d := VecDesc.ofBytes (List.replicate 16 0);
    f.bad = false ∧ f.vecs = 1 ∧ f.rangeBad d = false ∧ (s.engine core.key 3).paid = 0 ∧ (s.power 44).bucket = 0
    ∧ (fireVector s core.key 3 f d s.free).segs = 32 := by decide +kernel

/-- A `FIRE` with a bias, its values clean (Table 3-2: `add_bias` in the flags). -/
theorem witness_EngineFires_bias : ∃ b : Byte, let f := FireCmd.ofBytes (fireBytes.set 2 b);
    f.addBias = true ∧ spPoison ((queued fireBytes).spRead core.key f.bias (4 * f.cols)) = false := by
  refine ⟨?_, ?_⟩
  · exact 0x20
  · decide +kernel

/-- So does a `REF_SAMPLE`. -/
theorem witness_EngineMaintains_credits : let s := fireWith 0;
    firedCount ((s.spRead core.key 0 1024).map (fun b => int8 b.1)) = 16 ∧ (s.power (core.key / 68)).bucket < 16 - (s.engine core.key 3).paid := by
  decide +kernel

/-- Copy B of a pair, which performs no `STORE`, and whose sample messages count for nothing. -/
def copyB : State :=
  { withCore { placeId := some 1, edition := 1 } with editions := Map.empty.put 1 { partition := 1, pairs := [(0, 1)] } }

theorem witness_copyB : copyB.isCopyB core.key = true := by decide +kernel

theorem witness_SignalBoxMessages_discarded : (withCore {}).slotAt core.key 0 = none ∧ natAt [(0x10 : Byte)] 8 8 ≠ serving.plan.window + 1
    ∧ ((withCore { fenced := true }).core core.key).fenced = true := by decide +kernel

/-- The last contribution to a line: one was there, and the second completes it. -/
theorem witness_PacketsArrive_line :
    let r : RedRec := { redRec with contributors := 2 };
    let l : StoreLine := { core := redEdge.dest, offset := 0, length := 256, need := 2, count := 1, words := List.replicate 64 0 };
    let s : State := { serving with plan := { edges := [{ redEdge with count := 1 }] }
                                    cores := (Map.empty.put (core.key + 1) { edition := 1 }).put core.key { entry := { hoffLen := 256 } }
                                    editions := Map.empty.put 1 { placement := some { reductions := [r] } }
                                    fields := Map.empty.put 44 { store := [l] } };
    s.plan.edges[0]? = some { redEdge with count := 1 } ∧ s.edgeFenced { redEdge with count := 1 } = false
    ∧ s.reductionOf { redEdge with count := 1 } = some r ∧ (s.field 44).store = [l] ∧ l.need ≤ l.count + 1
    ∧ 0 + 256 ≤ (s.core core.key).entry.hoffLen := by decide +kernel

theorem witness_PacketsArrive_more : serving.inputHeld core.key 0 256 = false
    ∧ (let f : Edge := { dest := core.key, src := core.key + 1, reduce := true };
      (let s : State := { serving with cores := Map.empty.put (core.key + 1) { fenced := true } }; s.edgeFenced f) = true)
    ∧ (let s : State := { serving with cores := (Map.empty.put 0 { edition := 1 }).put 1 { edition := 1 }
                                       editions := Map.empty.put 1 { pairs := [(0, 1)] }
                                       plan := { digests := [{ core := 0, groups := List.replicate 16 0 },
                                                             { core := 1, arrived := true, groups := List.replicate 16 0 }] } };
      let a : DigestMsg := { core := 0, groups := List.replicate 16 0 };
      let b : DigestMsg := { core := 1, arrived := true, groups := List.replicate 16 0 };
      s.plan.digests[0]? = some a ∧ a.arrived = false ∧ s.arrivalHeld a.core = false
      ∧ s.plan.digests.find? (fun x => x.arrived ∧ s.digestPair a x) = some b
      ∧ digestMismatch a b (s.edition (s.core (s.physOf a.core)).edition).pairTol = none
      ∧ digestMismatch { a with groups := 9 :: List.replicate 15 0 } b (s.edition (s.core (s.physOf a.core)).edition).pairTol = some 0
      ∧ ({ a with window := 1 } : DigestMsg).window ≠ s.plan.window) := by decide +kernel

/-! The hypotheses of the statements are met: power, sleep, the ledger and upkeep, the further cases. -/

/-- A service field 44 with these power registers, its monitors 0 to 15 kept. -/
def powered (p : FieldPower) : State :=
  { serving with
    mod := { serving.mod with serviceSet := [44] }
    fields := Map.empty.put 44 { power := { p with converterOn := true }, brought := true
                                 monitors := (List.range 16).foldl (fun m i => m.put i { kept := true }) Map.empty } }

theorem witness_ThrottleAndBudget_more : let s := powered { t := 1 };
    s.runs 44 = true ∧ 0 < (s.power 44).t ∧ 10000000 ≤ s.since (s.power 44).lastTrigger ∧ 10000000 ≤ s.since (s.power 44).lastLower
    ∧ (s.power 44).rate ≤ 800 * (s.budget.rhoPlan : Int) ∧ (s.field 44).hottest ≤ degCode 85 := by decide +kernel

/-- A rail that has fallen to 0.499 V in a field that is not gated. -/
theorem witness_ShortsIsolateFields_rail : 499 < 500 ∧ (powered {}).runs 44 = true ∧ (powered {}).railGated 44 = false
    ∧ ({ powered {} with fields := Map.empty.put 44 { sleep := .dark } } : State).railGated 44 = true := by decide +kernel

theorem witness_ShortsIsolateFields_more : ((powered {}).power 44).iso = .none ∧ ((powered { iso := .detected }).power 44).iso = .detected
    ∧ 2000 ≤ (powered { iso := .detected }).since ((powered { iso := .detected }).power 44).isoAt := by decide +kernel

/-- A pace of 0 is below the floor: one setpoint up at step 3 from setpoint 2, none left at step 7. -/
theorem witness_PaceAndCredits_low :
    (∀ x ∈ [(3, 2), (7, 0)], let s := powered { step := x.1, setpoint := x.2 };
      s.serving = true ∧ (s.power 44).noWork = false ∧ 44 ∈ s.serviceFields ∧ 0 < (s.power 44).floor ∧ (s.power 44).paceAt = none
      ∧ leastBy (fun m => (s.field 44).scaleNow m * 0 / 40960) ((List.range 16).filter (fun m => ((s.field 44).monitors.find m {}).kept)) = some 0
      ∧ ((s.power 44).setpoint < 4 ∧ (s.power 44).setpoint + 1 ≤ stepSetpoint (s.power 44).step ↔ x.1 = 3))
    ∧ (powered {}).runs 44 = true ∧ (powered {}).plan.rebalanced ≠ some ((powered {}).budget.inForce, (powered {}).holdingFields) := by
  decide +kernel

/-- A round of mid codes leaves eight working sensors; one of ends of the range leaves none. -/
theorem witness_BelfryConverts_rounds : ∀ x ∈ [(16 * 2000, true), (16 * 4095, false)], let s := powered {};
    let sums := List.replicate 16 x.1;
    let v1 := (s.field 44).afterRound sums s.stamp;
    sums.length = 16 ∧ (∀ y ∈ sums, y ≤ 16 * 4095) ∧ (s.field 44).sleep ≠ .cold ∧ (s.field 44).belfry.stamp = 0
    ∧ s.serving = true ∧ (s.field 44).power.converterOn = true ∧ decide (5 ≤ v1.working.length) = x.2
    ∧ (x.2 = false → v1.hottest < degCode 105 ∧ (s.field 44).roundRate v1 sums s.now ≤ 320000) := by decide +kernel

theorem witness_SleepAndWake_more :
    (∀ z ∈ [Sleep.idle, .cold], let v : Field := { sleepTo := some (z, 200000000000), wakeWanted := true };
      v.wakeAt = none ∧ z ≠ .lit ∧ (200000000000 : U64).toNat ≤ serving.now)
    ∧ (let v : Field := { sleep := .cold, wakeAt := some 200000000000, belfry := { stamp := 200000000000 } };
      v.roundSince 200000000000 = true ∧ v.sleep ≠ .lit ∧ (200000000000 : U64).toNat ≤ serving.now) := by decide +kernel

/-- A journal three quarters full, a snapshot with an image that waits, and a change of each kind. -/
theorem witness_LedgerAndAgeing_more :
    (let l : Ledger := { copyA := some 84, journal := 24576 }; l.writable = true ∧ l.snapping = false ∧ 24576 ≤ l.journal)
    ∧ (let l : Ledger := { copyA := some 84, snapping := true, fwNext := some ({}, true, 0, 7) };
      l.writable = true ∧ l.ownerNext = none ∧ l.fwNext = some ({}, true, 0, 7))
    ∧ (∀ x ∈ ([{ kind := jkCore, what := jwEmap, key := 0, vals := [1] }, { kind := jkCore, what := jwCoreState, key := 0, val := 1 },
        { kind := jkRelocation, key := 0, val := 1 }, { kind := jkStuck, key := 0, vals := [1, 2] },
        { kind := jkArray, what := jwCycle, key := 0 }, { kind := jkArray, what := jwRaise, key := 0, val := 3 },
        { kind := jkArray, what := jwStamp, key := 0, val := 3 }] : List JournalChange),
      ({ copyA := some 84, waiting := [x] } : Ledger).waiting = x :: [] ∧ (x.kind = jkArray → arrayKeyCore x.key % 68 < 66))
    ∧ (let s : State := { serving with fields := Map.empty.put 44 { agedAt := some 199000000000 } };
      (s.field 44).agedAt = some 199000000000 ∧ 1000000000 ≤ s.since 199000000000) := by decide +kernel

/-- A core with work, an array 7 of its engine 3 as given. -/
def arrayOn (g : Engine) (a : Machine.Array) (b : Nat) : State :=
  let s := withCore { edition := 1, emap := List.range 16, engines := Map.empty.put 3 { g with arrays := Map.empty.put 7 a } };
  { s with fields := Map.empty.put 44 { power := { converterOn := true, bucket := b }, brought := true }, plan := { released := true } }

theorem sampleFirings_length (a : Machine.Array) (h : a.reload = false) : a.sampleFirings.length = 256 := by
  simp [Array.sampleFirings, h]

/-- A sample goes on over a window's credits, ends its first pass, and ends. -/
theorem witness_RefreshAndTrims_samples :
    (∀ a ∈ ([{ samplePaid := 255 }, { samplePaid := 256 }, { samplePaid := 256, samplePass := true }] : List Machine.Array),
      let s := arrayOn {} a 0;
      s.array core.key 3 7 = a ∧ a.reload = false ∧ (s.power core.field).bucket = 0 ∧ a.state ≠ 1 ∧ a.state ≠ 2 ∧ a.shadow = none
      ∧ (s.engine core.key 3).fenced = false ∧ (s.engine core.key 3).queue.length < 4 ∧ (s.field core.field).awake = true)
    ∧ 255 + 0 < 256 ∧ 256 ≤ 256 + 0 := by decide +kernel

set_option maxRecDepth 4000 in
theorem witness_RefreshAndTrims_refresh :
    (let s := arrayOn {} { refOpen := true } 0;
      s.holdsWeights core.key 3 = true ∧ (s.engine core.key 3).refreshOpen = true ∧ (s.engine core.key 3).refresh = none
      ∧ s.assisted (s.edition (s.core core.key).edition).partition 4 = false ∧ s.hwNext core.key 3 = true ∧ s.freeSpare core.key = some 16)
    ∧ (let s := { arrayOn {} { refOpen := true } 0 with
          parts := Map.empty.put 1 { modes := 0x7F }, editions := Map.empty.put 1 { partition := 1 } };
      s.assisted (s.edition (s.core core.key).edition).partition 4 = true ∧ s.assistRoom 1 = true)
    ∧ (let r : Refresh := { phase := 0, startAt := 200000000000 };
      let s := arrayOn { refresh := some r } { refOpen := true } 0;
      r.assist = none ∧ r.startAt.toNat ≤ s.now ∧ (s.engine core.key 3).refreshOpen = true
      ∧ (s.updEngine core.key 3 (fun v => { v with refresh := none })).freeSpare core.key = some 16) := by decide +kernel

theorem witness_RefreshAndTrims_settle : ∀ done ∈ [true, false],
    let r : Refresh := { phase := 4, spare := 16 };
    let s := withCore { edition := 1, placeId := some core.key, emap := List.range 16
                        engines := (Map.empty.put 3 { refresh := some r }).put 16 { arrays := Map.empty.put 0 { trimmed := done } } };
    (s.engine core.key 3).refresh = some r ∧ r.settleAt.toNat ≤ s.now ∧ (s.field core.field).awake = true
    ∧ s.refreshOwner core.key r.spare = some (3, r) ∧ r.inPlace = false ∧ r.spare ≠ 3 ∧ (s.engine core.key r.spare).rowsLeft = []
    ∧ (s.engine core.key r.spare).agentBusy = false ∧ s.asked core.key r.spare = false ∧ (s.rowsOf core.key r.spare).isSome = true
    ∧ ((∀ x ∈ (s.engine core.key r.spare).arrays.vals, x.trimmed = true ∨ x.state = 1 ∨ x.state = 2) ↔ done = true) := by decide +kernel

theorem witness_RefreshAndTrims_rows :
    (let s := arrayOn {} { jobRows := [1023], reprog := [1023] } 0;
      (s.array core.key 3 7).reload = false ∧ (s.array core.key 3 7).jobRows.contains 1023 = true
      ∧ (s.array core.key 3 7).reprog.contains 1023 = true ∧ s.refreshOwner core.key 3 = none)
    ∧ (let s := arrayOn {} { jobRows := [1023] } 0;
      settleNs ≤ s.since ((s.array core.key 3 7).progAt.find 1023 0) ∧ (s.array core.key 3 7).reprog.contains 1023 = false
      ∧ (s.engine core.key 3).rowsLeft.any (fun r => r.2.1 = 1024 * 7 + 1023) = false)
    ∧ ∀ z ∈ [EdState.ready, .current, .retained, .retiring],
      ((building { state := z, kind := .forerunner }).edition 1).kind = .forerunner := by decide +kernel

/-- R142: a field that may program, and one whose concurrency is 0. -/
theorem witness_FillsAndClears_conc : ((powered { conc := 1 }).power 44).conc ≠ 0 ∧ ((powered { conc := 0 }).power 44).conc = 0 := by
  decide +kernel

theorem witness_FillsAndClears_more :
    (let r : Region := { region with filling := some (0, 7) };
      (withStack {} r).fillTurn r = true)
    ∧ (let s : State := { withCore { clearing := true } with fields := Map.empty.put 44 { sleep := .dim } };
      (s.core core.key).clearing = true ∧ (s.field core.field).awake = false)
    ∧ (let s := withCore { clearing := true, clearJob := some 1 };
      (s.core core.key).clearJob = some 1 ∧ (s.array core.key 17 7).state = 0 ∧ (s.array core.key 17 7).job ≠ 1)
    ∧ (let s := withCore { clearing := true, clearJob := some 0 };
      (s.core core.key).clearJob = some 0 ∧ (∀ e < 18, ∀ a < 8, (s.array core.key e a).state = 0 ∧ (s.array core.key e a).job = 0)
      ∧ ∀ e < 18, (s.engine core.key e).agentBusy = false)
    ∧ (let s := withCore { clearing := true, clearDone := true };
      (s.core core.key).clearDone = true ∧ ∀ e < 18, ∀ a < 8, (s.array core.key e a).trimmed = true)
    ∧ (let s := withCore { clearing := true, clearDone := true
                           engines := Map.empty.put 17 { arrays := Map.empty.put 7 { trimmed := false } } };
      (s.array core.key 17 7).state = 0 ∧ (s.array core.key 17 7).trimmed = false) := by decide +kernel

/-! The hypotheses of the statements are met: serving, weights and regions, the further cases. -/

/-- `offering` that asks the control node. -/
def asking : State := { offering with parts := offering.parts.put 1 { offering.part 1 with modes := 0x7F } }

/-- The control node is asked; an entry table without room refuses, a receiving request too; a request that ships itself. -/
theorem witness_RequestsAreAdmitted_more :
    (asking.taken (hdr 128) rowSvAdmit).assisted 1 1 = true ∧ (asking.taken (hdr 128) rowSvAdmit).assistRoom 1 = true
    ∧ (let s : State := { offering with parts := offering.parts.put 1 { offering.part 1 with entry := { valid := true, rights := 31 } } };
      let u := s.taken (hdr 128) rowSvAdmit;
      (match u.admission 1 desc (u.classOf 1 0) 0 with | .ok .. => false | .refuse .. => true) = true
      ∧ u.entryPages 1 (u.editionFor 1 desc) desc = (none, 0))
    ∧ (let d : Desc := { desc with ship := true, shipTo := 1 };
      let s : State := { offering with fabric := { route := { memberBits := 4 }, peers := Map.empty.put (shipModule d) 3 } };
      RouteRec.idBad s.fabric.route (shipModule d) = false ∧ 3 ≤ s.fabric.peers.find (shipModule d) 0) := by decide +kernel

/-- What a pause, a resume, an acknowledgement, a resend and each case of a deadline ask of a request. -/
theorem witness_RequestCommands_more :
    ({ state := .admitted } : Req).active = true
    ∧ (let s : State := { serving with mod := { serving.mod with deferred := [.pause 0 0 0 7] } }; s.pauseWaits 0 = true)
    ∧ ({} : Req).ackBad 1 = true ∧ (1 : Nat) ∉ ((List.range 1).map ({} : Edition).pageId)
    ∧ (let r : Req := { state := .draining, closing := some true, buffered := [[1]], desc := { ringEntries := 16 } };
      r.ackBad 0 = false ∧ r.state ≠ .retired
      ∧ Nat.min r.buffered.length (r.desc.ringEntries.toNat - { r with consumed := 0 }.unconsumed) = r.buffered.length)
    ∧ (let x : Slot := { req := 0 };
      let s : State := { requested { state := .siding, desc := { deadline := 199999999999, promptLen := 1 } } with plan := { slots := [x] } };
      s.deadlineDue 0 = true ∧ s.inFlight 0 = true ∧ (s.req 0).sidedFrom = .running ∧ (s.req 0).desc.deadlineContinue = false)
    ∧ (∀ z ∈ [ReqState.siding, .running, .admitted, .prefill],
      let s := requested { state := z, desc := { deadline := 199999999999, promptLen := 1 }, sidedFrom := .prefill };
      s.deadlineDue 0 = true ∧ s.inFlight 0 = false ∧ (s.req 0).prefillPos < (s.req 0).desc.promptLen.toNat ∧ (s.req 0).kvWait = false
      ∧ (s.req 0).closing = none ∧ (s.req 0).sidedFrom ≠ .running)
    ∧ (requested { state := .admitted, kvWait := true, desc := { deadline := 199999999999 } }).deadlineDue 0 = true
    ∧ (requested { state := .running, desc := { deadline := 199999999999, deadlineContinue := true } }).deadlineDue 0 = true := by
  decide +kernel

/-- Bytes at the start of partition 1's region `sel`. -/
def regionOf (sel : Nat) (bytes : List Byte) : State :=
  { serving with
    parts := Map.empty.put 1 { entry := { valid := true, rights := 31, reqCount := 256, steerCount := 16 }
                               regions := Map.empty.put sel { region with inited := true } }
    stackSet := Map.empty.put 0 { trained := true, filled := true
                                  mem := (bytes.zip (List.range bytes.length)).foldl (fun m x => m.write x.2 x.1) {} } }

/-- A grammar of one state without transitions, and a steering set of one vector (Tables 7-13, 7-14). -/
def grammarBytes : List Byte :=
  leBytes 4 0x4D47564B ++ leBytes 4 1 ++ leBytes 4 0 ++ leBytes 4 0 ++ leBytes 8 32 ++ leBytes 8 64
    ++ leBytes 8 0xFFFFFFFFFFFFFFFF ++ leBytes 4 0 ++ leBytes 4 0 ++ leBytes 4 0xFFFFFFFF ++ List.replicate 12 0
def steerBytes : List Byte := leBytes 4 0x5453564B ++ leBytes 2 1 ++ List.replicate 10 0 ++ leBytes 2 0 ++ leBytes 2 16 ++ leBytes 4 256

theorem witness_PartitionServingRecords_more :
    7 < (8 : BitVec 8).toNat ∧ 2 < (3 : BitVec 8).toNat ∧ (serving.taken (hdr 8) rowSvGrammarLoad).grammarBad 1 0 = true
    ∧ (serving.taken (hdr 16) rowSvSteerLoad).steerInRange 1 16 = false ∧ (serving.taken (hdr 16) rowSvSteerLoad).steerLength 1 0 = none
    ∧ (let l : List (Nat × Grammar) := (Map.empty.put 3 { offset := 64 }).entries;
      (l.find? (fun e => e.2.offset = 64)).map Prod.fst = some 3)
    ∧ (requested { state := .running, partition := 1, desc := { grammar := 3, steer := 15 } }).grammarUsed 1 3 = true
    ∧ (requested { state := .running, partition := 1, desc := { grammar := 3, steer := 15 } }).steerUsed 1 15 = true := by decide +kernel

theorem findIn_map {α : Type} (v : α) {n : Nat} : ∀ {l : List Nat}, n ∈ l → Map.findIn n (l.map (fun k => (k, v))) = some v
  | k :: l, h => by
    by_cases e : k = n
    · simp [Map.findIn, e]
    · simpa [Map.findIn, e] using findIn_map v ((List.mem_cons.mp h).resolve_left (Ne.symm e))

/-- A partition that has a grammar under each of its handles, `n` of them (the 4,096 of R214). -/
theorem witness_PartitionServingRecords_full (n : Nat) :
    let g : Map Grammar := ⟨(List.range n).map (fun k => (k, { offset := 1 }))⟩;
    (∀ k, k < n → g.has k = true) ∧ ∀ e ∈ g.entries, e.2.offset ≠ 0 := by
  refine ⟨fun k h => ?_, fun e h => ?_⟩
  · exact Option.isSome_iff_exists.mpr ⟨_, findIn_map _ (List.mem_range.mpr h)⟩
  · obtain ⟨k, -, rfl⟩ := List.mem_map.mp h
    exact Nat.one_ne_zero

theorem witness_PartitionServingRecords_tables : (regionOf 0 grammarBytes).grammarBad 1 0 = false
    ∧ ((regionOf 1 steerBytes).steerLength 1 0).isSome = true := by decide +kernel

theorem witness_SamplesAndReplays_more : copyB.isCopyB core.key = true ∧ natAt [(2 : Byte)] 0 1 ≠ 1
    ∧ (∀ q ∈ ([{ slot := { id := 3, gen := 1 }, due := 1 }, { slot := { id := 3, lastPrompt := false }, report := true, due := 1 },
          { slot := { id := 3, lastPrompt := false }, due := 1, copyBad := true },
          { slot := { id := 3, lastPrompt := false, sect := 1, edition := 1 }, due := 1 },
          { slot := { id := 3, sect := 1, edition := 1 }, due := 1 }] : List Replay),
      let s : State := { requested { state := .running } with
        plan := { replays := [q] }, editions := Map.empty.put 1 { placement := some { sections := [{}, {}] } } };
      let u := s.payReplay 3;
      u.plan.replays.find? (fun r => r.slot.id = 3 ∧ !r.returned) = some q ∧ s.mod.state ≠ .stopped ∧ s.stop.kind ≠ .nowSpreading
      ∧ q.due ≤ s.plan.window + 1 ∧ q.owed = [] ∧ (s.req 0).closing = none
      ∧ (q.slot.gen = 1 ∨ q.report = true ∨ u.replayBad q = q.copyBad)
      ∧ (q.slot.sect = 1 → (s.edition 1).sections = q.slot.sect + 1)) := by decide +kernel

/-- A charge that the window's held-back credits do not meet stays owed. -/
theorem witness_SamplesAndReplays_owed : let q : Replay := { slot := { id := 3, lastPrompt := false, sect := 1 }, due := 1, owed := [(44, 10)] };
    let s : State := { requested { state := .running } with plan := { replays := [q] } };
    ((s.payReplay 3).plan.replays.find? (fun r => r.slot.id = 3 ∧ !r.returned)) = some q ∧ q.owed ≠ [] := by decide +kernel

set_option exponentiation.threshold 400 in
/-- Whatever the digest of a shard is, some manifest gives it. -/
theorem witness_EditionCommands_digest (b : List Byte) :
    ∃ man : List Byte, Config.sha384 b = ({ manifest := man } : Edition).shardDigest 0 := by
  refine ⟨List.replicate 144 0 ++ leBytes 48 (Config.sha384 b) ++ [], ?_⟩
  have h := natAt_append (List.replicate 144 0) (leBytes 48 (Config.sha384 b)) []
  rw [length_leBytes, List.length_replicate, leNat_leBytes, Nat.mod_eq_of_lt] at h
  · exact h.symm
  · exact Nat.lt_of_lt_of_le (Config.digest384 b).isLt (by decide)

/-- A fragment that begins, and one that completes its shard; a staging region without room; a shard of a wrong kind. -/
theorem witness_EditionCommands_more :
    (let x : PartShard := { length := 8, frags := [(0, [1, 2, 3, 4])] };
      let x1 : PartShard := { x with frags := x.frags ++ [(4, [5, 6, 7, 8])] };
      x.overlaps 4 4 = false ∧ x1.whole = some [1, 2, 3, 4, 5, 6, 7, 8] ∧ ({ length := 8 } : PartShard).whole = none)
    ∧ (building { state := .building, staging := 5 }).stagingPlace 1 8 = none
    ∧ (let s : State := { building { state := .building, staging := 5, parts := Map.empty.put 1 { length := 4 } } with
          parts := Map.empty.put 1 { regions := Map.empty.put 5 { region with size := 4096 } } };
      s.stagingPlace 1 8 = some 2048 ∧ s.stagingPlace 1 2049 = none ∧ (s.stagedPoison 1).contains 0 = false)
    ∧ (∀ k ∈ [(0 : Byte), 6], (ShardRec.ofBytes (List.replicate 12 0 ++ [k])).kind < 3 ∨ 5 < (ShardRec.ofBytes (List.replicate 12 0 ++ [k])).kind)
    ∧ ({ state := .building, shardCount := 3, placement := some {} } : Edition).placement ≠ none
    ∧ (recorded.recordsOf 1).isSome = true ∧ ((building { state := .building, kind := .rolling }).recordsOf 1) = none
    ∧ ((building { state := .building, manDone := true, shardCount := 2 }).edition 1).missing ≠ [] := by decide +kernel

/-- A refresh of a serving edition that asked for shards. -/
theorem witness_EditionCommands_awaited :
    let a : Assist := { id := 3, fn := 4, sub := 1, partition := 1 };
    let s : State := { building { state := .current } with
      alaok := { serving.alaok with assists := [a] }
      cores := Map.empty.put core.key { edition := 1, engines := Map.empty.put 3 {} }
      plan := { asks := [{ key := core.key, engine := 3, edition := 1, assist := some 3 }] } };
    (s.edition 1).state ≠ .building ∧ s.shardsAwaited 1 = true := by decide +kernel

/-- A shard of stack content, its header good, its payload one codeblock (Tables 5-3, 5-4). -/
def shardBytes (kind : Nat) : List Byte :=
  leBytes 4 0x4853564B ++ leBytes 2 1 ++ leBytes 2 1 ++ leBytes 4 2 ++ leBytes 1 kind ++ List.replicate 19 0 ++ leBytes 4 2048
    ++ List.replicate 28 0 ++ List.replicate 2048 0

theorem witness_EditionCommands_stack : (ShardRec.ofBytes (shardBytes 4)).kind = 4 ∧ shardBad 1 2 (shardBytes 4) = false
    ∧ shardBad 1 3 (shardBytes 4) = true ∧ (ShardRec.ofBytes (shardBytes 4)).stackDst + (ShardRec.ofBytes (shardBytes 4)).payload.length ≤ 4096 := by
  decide +kernel

theorem witness_EditionOpensAndRolls_more :
    (building { state := .building, staging := 15, manLen := 240, parts := Map.empty.put 0xFFFFFFFF { length := 240 } }).edition 1
      = { partition := 1, state := .building, staging := 15, manLen := 240, parts := Map.empty.put 0xFFFFFFFF { length := 240 } }
    ∧ ({ length := 240 } : PartShard).overlaps 0 240 = false ∧ ({ length := 240, frags := [(0, List.replicate 240 0)] } : PartShard).whole.isSome = true
    ∧ (Manifest.ofBytes manifest).edition = 9
    ∧ (let s : State := { building { state := .staged } with parts := Map.empty.put 1 { switch := some {} } }; (s.part 1).switch ≠ none)
    ∧ ((building { state := .current, rolling := some {} }).edition 1).rolling ≠ none
    ∧ (({ placement := some { cores := [{}] } } : Edition).placement.map Placement.fixed) ≠ ({} : Edition).placement.map Placement.fixed := by
  decide +kernel

/-- An edition in VERIFYING on core 5, its engines as given. -/
def verifying (g : Engine) : State :=
  { withCore { edition := 1, emap := List.range 16, good := true, engines := Map.empty.put 3 g } with
    editions := Map.empty.put 1 { partition := 1, state := .verifying, kind := .shadow
                                  placement := some { cores := [{ core := core.key }] } } }

/-- A rolling switch of a mode that is none. -/
theorem witness_EditionOpensAndRolls_mode : (3 : BitVec 16).toNat % 256 ≠ 1 ∧ (1 : BitVec 16).toNat % 256 = 1 := by decide

theorem witness_EditionEvents_more :
    (let s := verifying { arrays := Map.empty.put 0 { state := 1 } };
      (s.edEngines 1).find? (fun x => (s.engine x.1 x.2).arrays.vals.any (fun a => a.state ≠ 0)) = some (core.key, 3)
      ∧ s.mapWaits core.key core.key = false ∧ (s.edition 1).places.find? (fun q => s.physOf q = core.key) = some core.key
      ∧ s.freeSpare core.key = some 16)
    ∧ (let s := verifying { rowsLeft := [(0, 0, [])] };
      (s.edEngines 1).all (fun x => s.engineSettled x.1 x.2) = false)
    ∧ (let s := verifying {};
      (s.edEngines 1).all (fun x => s.engineSettled x.1 x.2) = true
      ∧ (s.edition 1).places.any (fun q => s.mapWaits q (s.physOf q)) = false ∧ s.recordsOf 1 = none) := by decide +kernel

/-- An edition in VERIFYING whose records were found bad. -/
theorem witness_EditionEvents_bad : ((building { state := .verifying, badRecords := true }).edition 1).state = .verifying
    ∧ ((building { state := .verifying, badRecords := true }).edition 1).badRecords = true := by decide +kernel

theorem witness_EditionEvents_waits :
    (let s : State := { building { rolling := some { phase := .drain, base := 2 } } with plan := { slots := [{ edition := 2 }] } };
      s.tokensOf 2 = true)
    ∧ (let s : State := { building { rolling := some { phase := .rewrite, base := 2 } } with
          plan := { outUnits := [{ editions := [2] }] } };
      s.rollMoves 1 { phase := .rewrite, base := 2 } = true ∧ s.rollLeft 1 = []) := by decide +kernel

theorem witness_RegionCommands_more :
    (let s := withRegion [];
      (s.taken (hdr 16) rowMmCreate).regionUsed 1 2 = false
      ∧ ((requested { state := .running, partition := 1 }).taken (hdr 16) rowMmCreate).regionUsed 1 0 = true
      ∧ (s.extentShort 1 [23] 2048).any (fun n => decide (n ≠ 0)) = true)
    ∧ (let s : State := { withRegion [] with plan := { window := 0, released := true } };
      s.plan.released = true ∧ region.madeIn = s.plan.window)
    ∧ ({ region with void := true } : Region).void = true
    ∧ (let s : State := { requested { state := .running, partition := 1, desc := { steer := 15 } } with
          parts := Map.empty.put 1 { steers := Map.empty.put 15 { offset := 0, length := 272 } } };
      s.writeGuarded 1 1 0 2048 = true)
    ∧ spPoison ((regionOf 0 []).regionBytes region 2048 2048) = false := by decide +kernel

/-! The hypotheses of the statements are met: units, the fabric, sessions, management, the further cases. -/

/-- Core 5 with work of an edition of partition 1, a unit of it in phase 1; `m` the partition's mode bits. -/
def outOf (u : UnitOut) (v : Core) (m : BitVec 7) : State :=
  { withCore { v with edition := 1, placeId := some core.key } with
    cores := (Map.empty.put core.key { v with edition := 1, placeId := some core.key }).put (coreKey 44 64) { good := true }
    parts := Map.empty.put 1 { entry := { valid := true, rights := 31 }, modes := m }
    editions := Map.empty.put 1 { partition := 1 }, plan := { outUnits := [u] } }

theorem witness_UnitsTakenOut_tests :
    (let u : UnitOut := { unit := packedCore core.key, phase := 1 };
      (let s := outOf u {} 0x7F;
        (s.relocateChoice core.key).isSome = true ∧ s.assisted 1 7 = true ∧ s.assistRoom 1 = true)
      ∧ (let s := outOf u {} 0;
        s.assisted 1 7 = false ∧ (s.core core.key).edition ≠ 0
        ∧ (s.updUnit u.unit (fun x => { x with assist := none })).relocateChoice core.key = some (coreKey 44 64))
      ∧ (let s : State := { outOf u {} 0 with cores := Map.empty.put core.key { edition := 1, placeId := some core.key } };
        (s.updUnit u.unit (fun x => { x with assist := none })).relocateChoice core.key = none))
    ∧ (let u : UnitOut := { unit := packedEngine core.key 3, kind := .engine, phase := 1 };
      (let s := outOf u { emap := List.range 16 } 0;
        (s.updUnit u.unit (fun x => { x with assist := none })).freeSpare core.key = some 16 ∧ (s.engine core.key 3).refresh = none)
      ∧ (let s := outOf u { emap := List.range 16, engines := Map.empty.put 3 { refresh := some { phase := 7 } } } 0;
        ((s.engine core.key 3).refresh.map (fun r => decide (r.phase = 7))) = some true)) := by decide +kernel

theorem witness_UnitsTakenOut_done :
    (∀ r ∈ ([none, some { phase := 7, spare := 16 }, some { phase := 6, spare := 16 }] : List (Option Refresh)),
      let u : UnitOut := { unit := packedEngine core.key 3, kind := .engine, phase := 2 };
      let s := outOf u { emap := List.range 16, engines := Map.empty.put 3 { refresh := r } } 0;
      s.plan.outUnits.find? (fun x => x.unit = u.unit ∧ s.unitProgrammed x) = some u ∧ (s.engine core.key 3).refresh = r
      ∧ unpackEngine u.unit = 3)
    ∧ (let u : UnitOut := { unit := packedCore core.key, phase := 2, dest := core.key + 1 };
      let s : State := { withCore {} with plan := { outUnits := [u], rebuilds := [(44, 0)] } };
      let us := s.plan.outUnits.filter (fun u => unpackField u.unit = 44 ∧ u.kind = .core ∧ u.phase = 2);
      us ≠ [] ∧ (∀ x ∈ us, s.unitProgrammed x = true ∧ x.serves = false) ∧ ∀ x ∈ us, ∀ y ∈ us, unpackKey y.unit ≠ some x.dest) := by decide +kernel

theorem witness_UnitsTakenOut_serves :
    (let u : UnitOut := { unit := packedCore core.key, phase := 1, serves := true };
      let s : State := { outOf u {} 0 with cores := Map.empty.put core.key { edition := 1, placeId := some core.key } };
      s.assisted 1 7 = false ∧ (s.updUnit u.unit (fun x => { x with assist := none })).relocateChoice core.key = none)
    ∧ (let u : UnitOut := { unit := packedCore core.key, phase := 2, dest := core.key + 1, serves := true };
      let s := outOf u {} 0;
      s.plan.outUnits.find? (fun x => x.unit = u.unit ∧ s.unitProgrammed x) = some u) := by decide +kernel

theorem witness_PortsAndRoutes_more : 32 ≤ 32 ∧ serving.portRecBad 31 { cls := 5, maxVersion := 3 } = true
    ∧ serving.routeBad { memberBits := 5 } = true
    ∧ (let s : State := { serving with fabric := { ports := Map.empty.put 31 { port with bad := 0x7F, retry := [{ type := 0x20 }] } } };
      (s.port 31).up = true ∧ (s.port 31).good.getLsbD 7 = true
      ∧ widthOf (s.port 31).version (laneCount { s.port 31 with bad := (s.port 31).bad ||| BitVec.twoPow 8 7 }.good) = 0) := by
  decide +kernel

theorem witness_DataAndTime_more :
    (joined job).jobOf (packet 0x01 0 []) = some job ∧ (joined { job with epoch := 3 }).jobOf (packet 0x01 0 []) = none
    ∧ (let s : State := { joined job with fabric := { (joined job).fabric with
          probes := [{ dst := 1, cmd := (0, 7) }], exch := List.replicate 7 (1, 0, 1, 2, 3) } };
      s.fabric.probes.find? (fun q => q.dst = 1 ∧ q.seq = 0) = some { dst := 1, cmd := (0, 7) }
      ∧ s.fabric.probes.find? (fun q => q.dst = 1 ∧ q.seq = 1) = none
      ∧ ((s.fabric.exch.filter (fun e => e.1 = 1)).map Prod.snd).length = 7 ∧ s.fabric.probes.any (fun q => q.dst = 1) = true)
    ∧ (let s : State := { joined job with fabric := { (joined job).fabric with peers := Map.empty.put 1 2 } };
      s.fabric.peers.find 1 3 < 3)
    ∧ (serving.firstPort { version := 3, type := 0x40, dst := 1, partition := 1, last := true }) = none
    ∧ (let s : State := { serving with fabric := { ports := Map.empty.put 31 { port with time := { valid := true, tMeas := 199000000000 } } } };
      10 ^ 9 ≤ s.since (s.port 31).time.tMeas) := by decide +kernel

theorem witness_JobsAndBarriers_more :
    (let s := joined { job with barrier := some {} }; (s.job 5).any (fun x => x.busy || decide (x.partition ≠ 1)) = true)
    ∧ (let s : State := { joined job with fabric := { (joined job).fabric with peers := Map.empty.put 1 1 } }; s.laggard (s.newJob (hdr 0) 5 2 2 [0, 1]) = some 1)
    ∧ ({ number := 3, arrived := insertNat 1 [0] } : Barrier).arrived.length = job.members.length
    ∧ natAt (leBytes 12 0) 0 2 ∈ ({ job with done := [0] } : Job).done
    ∧ (let s : State := { joined job with fabric := { (joined job).fabric with
          route := { memberBits := 4, l1Bits := 14, swNs := 100 }, peers := Map.empty.put 65536 1 } };
      (s.newJob (hdr 0) 6 2 1 [0, 65536]).version ≤ 1 ∧ (∀ m ∈ [0, 65536], RouteRec.idBad s.fabric.route m = false))
    ∧ (∀ x ∈ ({ job with done := [0] } : Job).roots, x.number ≠ 0)
    ∧ (let b : Barrier := { number := 3, timeout := 100 };
      let j := { job with rank := 1, barrier := some b };
      (joined j).job 5 = some j ∧ j.roots.find? (fun b => decide (b.timeout ≤ (joined j).since b.first)) = none
      ∧ b.timeout + j.tbar ≤ (joined j).since b.sentAt) := by decide +kernel

theorem witness_JobReductions_more :
    reduceAllowed 1 5 2 = false ∧ job.later (packet 0x20 0 [1]) = true
    ∧ ({ job with reduceNo := 1 } : Job).later (packet 0x20 0 []) = false ∧ ({ failed := some 1 } : Reduce).failed ≠ none
    ∧ (let r : Reduce := { cmd := some (0, 7) }; (({ job with reduce := some r }).reduce.getD {}).cmd ≠ none)
    ∧ (let j := { job with members := [0], rank := 0 }; childRanks j.rank j.members.length = [] ∧ ({ count := 1 } : Reduce).whole [] = true)
    ∧ ({ count := 1 } : Reduce).whole [1] = false ∧ 2 ∉ childRanks job.rank job.members.length
    ∧ (let r : Reduce := { count := 1, cmd := some (0, 7) };
      let kept := { r with parts := r.parts.put 1 [(0, [1, 2, 3, 4])] };
      r.sent = false ∧ kept.whole (childRanks 0 2) = true)
    ∧ (let r : Reduce := { count := 1, all := true, sent := true };
      r.count * reduceSize r.fmt ≤ (joinParts (r.result.filter (fun x => x.1 ≠ 0) ++ [(0, [1, 2, 3, 4])])).length) := by decide +kernel

/-- Rank 1 sends its partial up to rank 0, which a port leads to; where none does the reduction ends on it. -/
theorem witness_JobReductions_up : let j := { job with members := [1, 0], rank := 1 };
    j.rank ≠ 0 ∧ parentRank j.rank = 0 ∧ childRanks j.rank j.members.length = [] ∧ ({ count := 1 } : Reduce).whole [] = true
    ∧ (joined j).rankPort j 0 = some 31 ∧ ((joined j).port 31).retrain = false
    ∧ ({ joined j with fabric := { (joined j).fabric with ports := .empty } } : State).rankPort j 0 = none := by decide +kernel

/-- A multicast in a job of version 1; a status that a target passes up to the module it has the message from. -/
theorem witness_MulticastsAndShipments_forwards :
    (let j := { job with version := 1, slow := 1 };
      (joinedRegion j).job 5 = some j ∧ j.version < 2)
    ∧ (let head := leBytes 4 1 ++ leBytes 4 1 ++ leBytes 4 255 ++ leBytes 4 1 ++ leBytes 4 0 ++ List.replicate 2028 0;
      let x : McastRx := { origin := 1, seq := 6, sender := 1, got := [(0, head)] };
      let j := { job with rx := [x] };
      (joined j).job 5 = some j ∧ (joined j).jobOf (packet 0x31 0 (leBytes 4 1 ++ leBytes 4 6 ++ leBytes 8 0)) = some j
      ∧ natAt (leBytes 4 1 ++ leBytes 4 6) 0 4 ≠ j.rank ∧ j.rx.find? (fun r => r.origin = 1 ∧ r.seq = 6) = some x
      ∧ ((mcastHeadOf x.got).any (fun mh => mh.targets.contains (joined j).moduleId)) = true) := by decide +kernel

/-- A page's packet that does not begin at a multiple of 2,048 of its page. -/
theorem witness_MulticastsAndShipments_misaligned : (packet 0x09 100 (List.replicate 2048 0)).offset % 2048 ≠ 0
    ∧ (packet 0x09 100 (List.replicate 2048 0)).payload.length = 2048 := by decide +kernel

theorem witness_MulticastsAndShipments_more :
    ({ job with mcast := some {} } : Job).mcast ≠ none
    ∧ (∀ r ∈ (none : Option (List Nat)).getD [], r < job.members.length ∧ r ≠ job.rank)
    ∧ (let m : Mcast := { targets := [1] }; ∀ n, n < m.targets.length → m.results.has n = true ∨ ∃ e ∈ [(0, 0)], e.1 = n)
    ∧ serving.now < ({ deadline := 200000000001 } : Mcast).deadline.toNat
    ∧ (let b := leBytes 4 0x4B4D564B ++ leBytes 2 1 ++ List.replicate 26 0 ++ leBytes 4 1 ++ List.replicate 80 0;
      64 ≤ b.length ∧ 64 + 52 * natAt b 32 4 ≤ b.length ∧ natAt b 4 2 = 1 ∧ natAt b 0 4 = 0x4B4D564B
      ∧ ∃ e ∈ manifestPages b, e.1 ∉ ([] : List Nat) ∧ (Map.empty : Map Nat).find e.1 0 ≠ 2 ^ 32 - 1)
    ∧ (let r : Req := { kvFromPage := [(3, []), (4, [])], kvParts := Map.empty.put 3 (2 ^ 31 - 1) };
      (∃ e ∈ r.kvFromPage, e.1 = 3) ∧ 3 ∉ r.kvHave ∧ (¬ ∃ e ∈ r.kvFromPage, e.1 = 5) ∧ r.kvFromPage.find? (fun e => e.1 = 3) = some (3, [])
      ∧ (r.kvParts.find 3 0).testBit 31 = false ∧ r.kvParts.find 3 0 + 2 ^ 31 = 2 ^ 32 - 1
      ∧ (∃ x ∈ r.kvFromPage, x.1 ≠ 3 ∧ x.1 ∉ r.kvHave)) := by decide +kernel

/-- Resuming from the other connector, a standby place, and each state of a proof. -/
theorem witness_SessionsAndAuthentication_more :
    commonSet 0x0600 0x0700 = none
    ∧ (let s : State := { serving with alaok := { serving.alaok with conns := Map.empty.put 1 (carrying { session with id := 9 }) } };
      s.sessionNamed 9 = some 1 ∧ s.sessionNamed 8 = none ∧ (s.conn 0).sess.isOpen = false ∧ (s.conn 1).sess.standby = false)
    ∧ serving.standbyPlace 1 = true ∧ serving.liveNonce 0 = none
    ∧ ({ session with authTag := 6 } : Session).authTag ≠ (hdr 440).cmdTag ∧ 1 < (2 : BitVec 8).toNat
    ∧ ({ session with fails := 1 } : Session).fails < 2 ∧ 2 ≤ ({ session with fails := 2 } : Session).fails
    ∧ ({ owner := 1 } : Ledger).owner ≠ 0 ∧ ({ ownerNext := some (1, 0, 7) } : Ledger).ownerNext ≠ none := by decide +kernel

theorem witness_ConnectorLink_more :
    (let s := linked { carrying session with rx := Map.empty.put 0 { credits := 0, skipping := true, next := 1 } };
      let r := (s.conn 0).rx.find 0 {};
      frame.seq ≠ r.next ∧ r.skipping = true ∧ r.credits < ceilDiv 64 64)
    ∧ ({ frame with crcOk := false } : Frame).crcOk = false ∧ nodeStream 0x0202 5 = true
    ∧ (linked { up := true, trained := true, lockUntil := some 1 } |>.conn 0).lockUntil ≠ none
    ∧ (let c : Connector := { carrying session with clkValid := true, clkAt := 199000000000 };
      10 ^ 9 ≤ (linked c).since c.clkAt ∧ (keptExchange (List.replicate 8 (0, 1, 2, 3))).isSome = true) := by decide +kernel

/-- A nak that names a stream which the module does not send, and one for a frame that waits unacknowledged. -/
theorem witness_ConnectorLink_naks : ¬((5 : Nat) = 2 ∨ (5 : Nat) = 3 ∨ (5 : Nat) = 4)
    ∧ (let s := linked { carrying session with tx := Map.empty.put 2 { unacked := [(1, {})] } };
      let u := (s.frameHead 0 { frame with stream := 2, seq := 1 }).conn 0;
      s.mod.powerFail = false ∧ (u.tx.find 2 {}).unacked.any (fun y => seqUpTo y.1 1) = true) := by decide +kernel

theorem witness_ManagementAndHealth_more :
    (17000 ≤ (17000 : Word).toNat ∧ (17000 : Word).toNat ≤ 27000 ∧ 2000 ≤ (12000 : Word).toNat ∧ (12000 : Word).toNat ≤ 12000
      ∧ 5 ≤ (5 : BitVec 16).toNat ∧ (40 : BitVec 16).toNat ≤ 40)
    ∧ ((1 : BitVec 8).toNat ≤ 1 ∧ (3 : BitVec 8).toNat ≤ 3 ∧ (3600000 : Word) ≠ 0 ∧ (3600000 : Word).toNat ≤ 3600000)
    ∧ ({ serving with mod := { state := .bringUp } } : State).serving = false ∧ ({ serving with mod := { state := .bringUp } } : State).inService = false
    ∧ 4 ≤ (List.replicate 4 ({} : SelfTest)).length ∧ scopeExists 1 100 = false ∧ 64 ≤ 64
    ∧ ({ serving with stop := { kind := .settling } } : State).stop.kind = .settling ∧ fieldExists 100 = false
    ∧ (let x : SelfTest := { units := [packedEngine core.key 3], tests := 3 };
      ∀ n ∈ [0, 1], benched.resultsFit x [(packedEngine core.key 3, n, 1)] = true) := by decide +kernel

theorem witness_ManagementAndHealth_selftest :
    (let x : SelfTest := { units := [packedCore core.key], tests := 1, second := true };
      let s : State := withCore { engines := Map.empty.put 0 { arrays := Map.empty.put 0 { samplePass := true
                                                                                           shadow := some (0, []) } } };
      packedCore core.key ∈ x.ran [] 0 ∧ (s.arrayAt (packedCore core.key)).samplePass = true
      ∧ (s.arrayAt (packedCore core.key)).shadow.isSome = true)
    ∧ (let x : SelfTest := { units := [packedCore core.key], tests := 1 };
      let s : State := { serving with fields := serving.fields.put 44 { serving.field 44 with power := { (serving.power 44) with bucket := 300 } } };
      x.passed [] 0 ≠ [] ∧ (serving.payTest x []).2.2 = false ∧ (s.payTest x []).2.2 = true)
    ∧ (let x : SelfTest := { units := [packedCore core.key], tests := 2 };
      (serving.payTest x [(packedCore core.key, 1, 2)]).2.2 = true ∧ x.passed [(packedCore core.key, 1, 2)] 0 = []) := by
  decide +kernel

/-- R375, R378: an idle test skips a placed array, a halted core's control-core test is skipped, and an engine under refresh waits. -/
theorem test_selftest_skips :
    (let x : SelfTest := { units := [packedCore core.key], tests := 1, idleOnly := true };
      let s : State := { benched with cores := Map.empty.put core.key { good := true, edition := 1, placeId := some core.key } };
      benched.testResults x [] = [] ∧ s.testResults x [] = [(packedCore core.key, 0, 2)])
    ∧ (let x : SelfTest := { units := [packedCore core.key], tests := 0x18 };
      let s : State := { benched with cores := Map.empty.put core.key { good := true, mode := .halted } };
      s.testResults x [] = [(packedCore core.key, 4, 2)])
    ∧ (let x : SelfTest := { units := [packedEngine core.key 3], tests := 1 };
      let s : State := { benched with cores := Map.empty.put core.key { good := true, engines := Map.empty.put 3 { refresh := some {} } } };
      benched.resultsFit x [] = true ∧ s.resultsFit x [] = false) := by decide +kernel

/-- R376: an engine test runs where its unit's queue has a free slot, and waits where it has none. -/
theorem witness_ManagementAndHealth_room : ∀ n ∈ [3, 4],
    let x : SelfTest := { units := [packedEngine core.key 0], tests := 4 };
    let s : State := { benched with
      cores := Map.empty.put core.key { good := true, engines := Map.empty.put 0 { queue := List.replicate n anyCmd } } };
    let l := s.testResults x [];
    x.running l ≠ [] ∧ ((∀ z ∈ x.running l, z ∈ (s.testFitted x l).fit) ↔ n = 3) := by decide +kernel

theorem witness_ManagementAndHealth_states :
    (let s : State := { serving with mod := { state := .stopped } };
      s.accepts (hdr 16) rowHlCounters ((hdr 16).length = 16))
    ∧ ({ serving with mod := { state := .stopped } } : State).accepts (hdr 16) rowMgSelftest ((hdr 16).length = 16) :=
  ⟨accepts_of (by decide +kernel), accepts_of (by decide +kernel)⟩

theorem witness_ProtectionCommands_more :
    (let u := { serving with mod := { serving.mod with state := .bringUp } };
      u.serving = false ∧ u.mod.deferred = [] ∧ (u.tablesNext.setEntries 63 [{}]).bad = false)
    ∧ (([] : List ProtEntry) = [] ∧ 64 < 63 + [({} : ProtEntry), {}].length) ∧ 6800 < 6799 + [(255 : Byte), 255].length
    ∧ ({ ownerNext := some (1, 0, 7) } : Ledger).ownerNext ≠ none ∧ ({ fwNext := some ({}, true, 0, 7) } : Ledger).fwNext ≠ none
    ∧ serving.isLevel0 0 = true ∧ (linked (carrying { session with level := some 1 })).isLevel0 0 = false
    ∧ (linked (carrying { session with level := some 1 })).sessOwns 0 2 = false := by decide +kernel

/-- Cores halted by debug in a partition whose debug right a change withdraws. -/
theorem witness_ProtectionCommands_halted :
    let s : State := { serving with
      cores := Map.empty.put core.key { mode := .halted, placeId := some core.key }, mod := { serving.mod with coreMap := Map.empty.put core.key 1 } };
    (protGrants (s.part (1 + 0)).entry).rights.getLsbD 3 = true ∧ (protGrants {}).rights.getLsbD 3 = false ∧ s.cores.has core.key = true
    ∧ s.ownerOf ((s.core core.key).placeId.getD core.key) = 1 + 0 ∧ (s.core core.key).mode = .halted := by decide +kernel

/-- `serving` with an assist outstanding. -/
def assisting (a : Assist) : State := { serving with alaok := { serving.alaok with assists := [a] } }

theorem witness_AssistsAndAnswers_accepted : ∀ fn ∈ [1, 5], let body : List Byte := [1];
    ((assisting { id := 3, fn := fn, partition := 1 }).powered && ((assisting { id := 3, fn := fn, partition := 1 }).conn 0).carries
      && (((assisting { id := 3, fn := fn, partition := 1 }).takePacket (hdr 9)).checks (hdr 9) rowAsAnswer
        (decide ((hdr 9).length = 8 + body.length) && answerLengthOk fn body) 0 0).isNone) = true := by decide +kernel

/-- In time, too late, of another function; an answer outside its limits. -/
theorem witness_AssistsAndAnswers_cases :
    (let a : Assist := { id := 3, fn := 5, partition := 1, deadline := 199999999999 };
      a.deadline ≠ 0 ∧ a.deadline.toNat < (assisting a).now ∧ (assisting a).now ≥ a.deadline.toNat)
    ∧ (let a : Assist := { id := 3, fn := 5, partition := 1, deadline := 200000000000 };
      (assisting a).now ≤ a.deadline.toNat ∧ a.sub = 0 ∧ (assisting a).assistAnswer a [2] = none)
    ∧ ({ fn := 4, sub := 1 } : Assist).sub ≠ 0
    ∧ (let a : Assist := { id := 3, fn := 2, kept := [9], slot := 4, partition := 1 };
      let x : Slot := { id := 4 };
      let s : State := { assisting a with plan := { slots := [x] } };
      natAt (leBytes 4 9) 0 4 ∈ a.kept ∧ a.kept ≠ [] ∧ ({ fn := 2 } : Assist).kept = [] ∧ s.slotOf a.slot = some x ∧ s.assisted (s.req x.req).partition 3 = false)
    ∧ (let a : Assist := { id := 3, fn := 3, slot := 4, partition := 1 };
      let s : State := { assisting a with plan := { slots := [{ id := 4 }] } };
      natAt (leBytes 4 noState) 0 4 = noState ∧ s.slotOf a.slot = some { id := 4 } ∧ ({ id := 4 } : Slot).gramLate = false)
    ∧ (let a : Assist := { id := 3, fn := 4, req := packedEngine core.key 3, partition := 1 };
      unpackKey a.req = some core.key ∧ natAt (leBytes 8 200000000000) 0 8 ≤ (assisting a).now)
    ∧ (let a : Assist := { id := 3, fn := 6, partition := 1, entries := [] };
      (assisting a).movable 1 [] = some [] ∧ a.entries.all (fun _ => false) = true) := by decide +kernel

/-- An answer to an assist whose deadline has passed. -/
theorem witness_AssistsAndAnswers_expired :
    let s : State := { serving with alaok := { serving.alaok with expired := [(3, 1)] } };
    s.alaok.assists.find? (fun a => a.id = 3 ∧ a.partition = 1) = none ∧ ((3 : Word), 1) ∈ s.alaok.expired := by decide +kernel

theorem witness_DebugStops_more : (stopped .nowStop).accepts (hdr 0) rowDbStopNow ((hdr 0).length = 0)
    ∧ ({ serving with stop := { kind := .nowSpreading } } : State).accepts (hdr 0) rowDbStopNow ((hdr 0).length = 0)
    ∧ (stopped .globalStop).stop.kind ≠ .nowStop :=
  ⟨accepts_of (by decide +kernel), accepts_of (by decide +kernel), by decide⟩

theorem witness_DebugAccess_more : ({ field := 44, core := 68 } : CoreRef).ok = false ∧ fieldExists 100 = false
    ∧ (∀ n, n < 68 → ((withCore {}).core (coreKey 44 n)).traceQ = []) ∧ 15 < (16 : BitVec 8).toNat
    ∧ (let q : ProbeParams := { probe := 15, kind := 0, flags := 0, layer := 0, core := 0, cAddr := 0, tag := 0, ring := BitVec.ofNat 64 (5 * 2 ^ 44), ringRecords := 32 };
      (regionOf 5 []).ringBad 1 q = false ∧ serving.ringBad 1 q = true)
    ∧ (let s : State := { serving with collector := { waiting := [(1, 0, [])], recs := List.replicate 31 (1, 0, []) } };
      s.collector.recs.length < 1024 ∧ 31 ≤ (s.collector.of 1 0).length) := by decide +kernel

theorem witness_BringUpAndPower_more :
    (let s : State := { rising 5 with fields := tabled allFields { brought := true } };
      (s.field (stackAlternate 23)).brought = true ∧ (s.stack 23).link = .home ∧ (s.field (stackHome 23)).brought = true
      ∧ s.carriesStack (stackHome 23) = false ∧ s.carriesStack (stackAlternate 23) = false)
    ∧ (let s : State := { rising 5 with fields := tabled allFields { brought := true, power := { converterOn := true } }
                                        stackSet := Map.empty.put 23 { link := .alternate } };
      (s.stack 23).link = .alternate ∧ s.carriesStack (stackAlternate 23) = true ∧ (s.stack 23).trained = false)
    ∧ (let s := withStack { trained := true } region; s.powered = true ∧ (s.stack 23).trained = true ∧ (s.stack 23).fillDone = false)
    ∧ (ledgerCandidates false).find? (fun f => ([] : List Nat).contains f) = none
    ∧ ({ fw := [] } : Ledger).ownerRead.bestImage = none := by decide +kernel

/-- A slot that bears no signature does not stand. -/
theorem unsigned_slot (x : LedgerSlot) (h : x.made = false) (hs : x.signatures = []) : x.stands = false := by
  simp [LedgerSlot.stands, sigOk, slotBytes, sigBytes, h, hs]

/-- A feed that leaves its range before the module has power. -/
theorem witness_BringUpAndPower_unpowered : State.reset.powered = false ∧ State.reset.mod.powerFail = false ∧ 43999 < 44000
    ∧ (rising 5).powered = true ∧ (rising 5).mod.powerFail = false := by decide +kernel

theorem witness_BringUpAndPower_slots :
    ({ slots := [{ made := false }, { made := false }] } : Ledger).slotRead = none := by
  simp [Ledger.slotRead, unsigned_slot]

/-! Single steps, worked out by hand from the spec. -/

/-- What a register of the core holds after one command. -/
def after (i : Instr) (s : State) (r : BitVec 5) : Option (Word × Bool) :=
  match exec i s with
  | .next t => some ((t.core core.key).reg r, (t.core core.key).bad r)
  | _ => none

/-- `running`, with registers g1 and g2 given and g2 poisoned. -/
def operands (o : CoreOp) (a b : Word) : State :=
  withCore { mode := .running, prog := Map.empty.put 0 (encodeCore o), poison := 4
             regs := ((Vector.replicate 32 (0 : Word)).set 1 a).set 2 b }

/-- Table 4-3, R104: the sum wraps modulo 2^32, and a poisoned source poisons it. -/
theorem test_add_wraps : after (.add core 3 1 2) (operands (.alu 0 3 1 2) 0xFFFFFFFF 2) 3 = some (1, true) := by decide +kernel

/-- R102: a write to g0 is discarded. -/
theorem test_add_to_g0 : after (.add core 0 1 1) (operands (.alu 0 0 1 1) 5 2) 0 = some (0, false) := by decide +kernel

/-- Table 4-3: the high word of −1 × −1 is 0, unsigned 0xFFFFFFFE. -/
theorem test_mulh : after (.mulh core 3 1 1) (operands (.alu 11 3 1 1) 0xFFFFFFFF 0) 3 = some (0, false) := by decide +kernel
theorem test_mulhu : after (.mulhu core 3 1 1) (operands (.alu 12 3 1 1) 0xFFFFFFFF 0) 3 = some (0xFFFFFFFE, false) := by decide +kernel

/-- Table 4-3: an arithmetic shift takes its amount, 33, from the low 5 bits. -/
theorem test_sra : after (.sra core 3 1 2) (operands (.alu 7 3 1 2) 0x80000000 33) 3 = some (0xC0000000, true) := by decide +kernel

/-- Table 4-3: `slti` compares signed with its sign-extended immediate. -/
theorem test_slti : after (.slti core 3 1 0xFFFF) (operands (.slti 3 1 0xFFFF) 0xFFFFFFFE 0) 3 = some (1, false) := by decide +kernel

/-- R107: the power record's range; a value out of it is refused with `BAD_PARAM` and changes nothing (R223). -/
theorem test_power_out_of_range : (match exec (.mgPowerSet (hdr 16) 27001 5000 20) serving with
    | .next t => decide (t.budget = serving.budget) | _ => false) = true := by decide +kernel
theorem test_power_in_range : (match exec (.mgPowerSet (hdr 16) 27000 2000 40) serving with
    | .next t => t.budget.powerLimit | _ => 0) = 27000 := by decide +kernel

/-- R15: a step with no command is one nanosecond. -/
theorem test_idle_tick : (match step serving with | .next t => t.clock.tb | _ => 0) = 200000000001 := by decide +kernel

/-- R21: a field with no working core left is no longer awaited. -/
theorem test_done_report : (match exec (.doneReport ⟨44, []⟩) { serving with plan := { released := true, awaiting := [43, 44] } } with
    | .next t => t.plan.awaiting | _ => []) = [43] := by decide +kernel

/-- Table 7-1, R199: a command on an entry that is FREE is refused; the request table is unchanged. -/
theorem test_cancel_free : (match exec (.svCancel (hdr 0)) serving with | .next t => decide (t.mod.deferred = []) | _ => false) = true := by
  decide +kernel

/-- R347: after the third proof that fails the connector takes no hello for 1 s: the lockout ends at its time. -/
theorem test_lockout_ends : (match exec (.authLockoutExpiry 0) (linked { up := true, lockUntil := some 200000000000 }) with
    | .next t => (t.conn 0).lockUntil | _ => some 1) = none := by decide +kernel

/-- R416: a stop reaches a field: its cores stop. -/
theorem test_stop_arrival : (match exec (.stopNowArrival 44) { withCore {} with stop := { kind := .nowSpreading } } with
    | .next t => (t.core core.key).stopped && (t.field 44).stopArrived | _ => false) = true := by decide +kernel
end Sys2Proof.Tests
end

section
/-! The register file of a control core (R102), and the return address that a jump writes to it. -/

namespace Sys2Proof.Machine

/-! Reading a register back after a write. -/

theorem Core.reg_zero (v : Core) : v.reg 0 = 0 := rfl
theorem Core.bad_zero (v : Core) : v.bad 0 = false := rfl
theorem Core.setReg_zero (v : Core) (w : Word) (bad : Bool) : v.setReg 0 w bad = v := rfl

theorem Core.setReg_regs (v : Core) {rd : BitVec 5} (w : Word) (bad : Bool) (h : rd ≠ 0) :
    (v.setReg rd w bad).regs = v.regs.set rd.toNat w := by
  rw [Core.setReg, if_neg h]

theorem Core.setReg_poison (v : Core) {rd : BitVec 5} (w : Word) (bad : Bool) (h : rd ≠ 0) :
    (v.setReg rd w bad).poison = if bad then v.poison ||| BitVec.twoPow 32 rd.toNat
      else v.poison &&& ~~~ (BitVec.twoPow 32 rd.toNat) := by
  rw [Core.setReg, if_neg h]

theorem Core.reg_setReg_self (v : Core) {rd : BitVec 5} (w : Word) (bad : Bool) (h : rd ≠ 0) : (v.setReg rd w bad).reg rd = w := by
  simp only [Core.reg, if_neg h, v.setReg_regs w bad h, Vector.getElem_set_self]

theorem Core.bad_setReg_self (v : Core) {rd : BitVec 5} (w : Word) (bad : Bool) (h : rd ≠ 0) : (v.setReg rd w bad).bad rd = bad := by
  have hlt : rd.toNat < 32 := rd.isLt
  rw [Core.bad, v.setReg_poison w bad h, decide_eq_true h, Bool.true_and]
  cases bad <;> simp [hlt]

theorem Core.reg_setReg_ne (v : Core) {r rd : BitVec 5} (w : Word) (bad : Bool) (h : r ≠ rd) :
    (v.setReg rd w bad).reg r = v.reg r := by
  have hn : rd.toNat ≠ r.toNat := fun e => h (BitVec.eq_of_toNat_eq e.symm)
  by_cases hd : rd = 0
  · rw [hd, Core.setReg_zero]
  · simp only [Core.reg, v.setReg_regs w bad hd, Vector.getElem_set_ne _ _ hn]

theorem Core.bad_setReg_ne (v : Core) {r rd : BitVec 5} (w : Word) (bad : Bool) (h : r ≠ rd) :
    (v.setReg rd w bad).bad r = v.bad r := by
  have hn : rd.toNat ≠ r.toNat := fun e => h (BitVec.eq_of_toNat_eq e.symm)
  have hlt : r.toNat < 32 := r.isLt
  by_cases hd : rd = 0
  · rw [hd, Core.setReg_zero]
  · rw [Core.bad, Core.bad, v.setReg_poison w bad hd]
    cases bad <;> simp [hn.symm, hlt]

/-! A retirement leaves the registers as the instruction left them. -/

theorem Core.afterRetire_reg {w v : Core} {pc : Nat} (h : w.afterRetire v pc) (r : BitVec 5) : w.reg r = v.reg r := by
  obtain ⟨q, rfl⟩ := h
  rfl

theorem Core.afterRetire_bad {w v : Core} {pc : Nat} (h : w.afterRetire v pc) (r : BitVec 5) : w.bad r = v.bad r := by
  obtain ⟨q, rfl⟩ := h
  rfl

/-! Jumps. -/

/-- The core after a jump to `t`: the signature has taken the target (R124). -/
def Core.jumped (v : Core) (t : Nat) : Core := { v with sig := crcRun v.sig (leBytes 4 t) }

@[simp] theorem Core.jumped_reg (v : Core) (t : Nat) (r : BitVec 5) : (v.jumped t).reg r = v.reg r := rfl
@[simp] theorem Core.jumped_bad (v : Core) (t : Nat) (r : BitVec 5) : (v.jumped t).bad r = v.bad r := rfl

theorem State.jump_inRange (s : State) (k : Nat) {t : Int} (h0 : 0 ≤ t) (h1 : t < 65536) :
    s.jump k t = .retire (s.updCore k (fun v => v.jumped t.toNat)) t.toNat [(0x01, BitVec.ofInt 32 t)] := by
  unfold State.jump
  rw [if_neg (by omega)]
  rfl

/-- R107: a jump whose target lies in the program store writes its return address to `rd` and goes there. -/
theorem State.retires_link (s : State) (c : CoreRef) (i : Instr) (o : CoreOp) (rd : BitVec 5) (ret : Word) {t : Int}
    (x : exec i s = .next (s.runCore c o)) (r : s.readyFor c o) (h0 : 0 ≤ t) (h1 : t < 65536)
    (e : s.coreExec c.key ((s.core c.key).instrAt (s.core c.key).pc.toNat) o
      = (s.updCore c.key (fun v => v.setReg rd ret false)).jump c.key t) :
    s.retires c i (((s.core c.key).setReg rd ret false).jumped t.toNat) t.toNat := by
  rw [State.jump_inRange _ _ h0 h1] at e
  refine State.retires_of s c i o _ _ _ _ x r e ?_ ?_
  · exact State.coreFrame_trans (State.updCore_coreFrame _ _ _) (State.updCore_coreFrame _ _ _)
  · rw [State.updCore_core, State.updCore_core]

/-- What a register holds after a jump that retires with its return address in it. -/
theorem State.gives_link {s : State} {c : CoreRef} {i : Instr} {v : Core} {rd : BitVec 5} {ret : Word} {t pc : Nat}
    (hd : rd ≠ 0) (h : s.retires c i ((v.setReg rd ret false).jumped t) pc) :
    s.gives i (fun u => (u.core c.key).reg rd = ret ∧ (u.core c.key).bad rd = false) := by
  obtain ⟨u, hu, after, -⟩ := h
  refine ⟨u, hu, ?_, ?_⟩
  · rw [Core.afterRetire_reg after, Core.jumped_reg, Core.reg_setReg_self _ _ _ hd]
  · rw [Core.afterRetire_bad after, Core.jumped_bad, Core.bad_setReg_self _ _ _ hd]

theorem State.jal_retires (s : State) (c : CoreRef) (off : BitVec 26) (r : s.readyFor c (.jal off))
    (h0 : 0 ≤ (s.core c.key).target off.toInt) (h1 : (s.core c.key).target off.toInt < 65536) :
    s.retires c (.jal c off)
      (((s.core c.key).setReg 31 (BitVec.ofNat 32 (s.core c.key).nextPc) false).jumped ((s.core c.key).target off.toInt).toNat)
      ((s.core c.key).target off.toInt).toNat :=
  State.retires_link s c (.jal c off) (.jal off) 31 (BitVec.ofNat 32 (s.core c.key).nextPc) rfl r h0 h1 rfl

theorem State.jalr_retires (s : State) (c : CoreRef) (rd ra : BitVec 5) (imm : BitVec 16) (r : s.readyFor c (.jalr rd ra imm))
    (hb : (s.core c.key).bad ra = false) (h : (((s.core c.key).reg ra + imm.signExtend 32) &&& ~~~ 3).toNat < 65536) :
    s.retires c (.jalr c rd ra imm)
      (((s.core c.key).setReg rd (BitVec.ofNat 32 (s.core c.key).nextPc) false).jumped
        (((s.core c.key).reg ra + imm.signExtend 32) &&& ~~~ 3).toNat)
      (((s.core c.key).reg ra + imm.signExtend 32) &&& ~~~ 3).toNat := by
  have e : s.coreExec c.key ((s.core c.key).instrAt (s.core c.key).pc.toNat) (.jalr rd ra imm) =
      (s.updCore c.key (fun v => v.setReg rd (BitVec.ofNat 32 (s.core c.key).nextPc) false)).jump c.key
        ((((s.core c.key).reg ra + imm.signExtend 32) &&& ~~~ 3).toNat : Int) := by
    simp only [State.coreExec, hb, Bool.false_eq_true, if_false]
  have retires := State.retires_link s c (.jalr c rd ra imm) _ rd _ rfl r (Int.natCast_nonneg _) (Int.ofNat_lt.mpr h) e
  rwa [Int.toNat_natCast] at retires

/-- Settles O57: the reads of `setReg`, and the retirements of `jal` and `jalr`. -/
theorem registerWritesReadBack : Obligations.RegisterWritesReadBack := by
  intro v rd r w bad
  refine ⟨v.reg_zero, v.bad_zero, v.setReg_zero w bad, fun h => ⟨v.reg_setReg_self w bad h, v.bad_setReg_self w bad h⟩,
    fun h => ⟨v.reg_setReg_ne w bad h, v.bad_setReg_ne w bad h⟩, fun s c ra imm off => ⟨fun ready h0 h1 => ?_, fun ready hb hd h => ?_⟩⟩
  · exact State.gives_link (by decide) (s.jal_retires c off ready h0 h1)
  · exact State.gives_link hd (s.jalr_retires c rd ra imm ready hb h)

end Sys2Proof.Machine
end

section
/-! The messages that `post` hands to the agents (R113, R250). -/

namespace Sys2Proof.Machine

/-! The message keeps the 32 bytes of its command store entry under the overrides of `post` (R112). -/

theorem length_spliceLe (l : List Byte) (o n v : Nat) (h : o + n ≤ l.length) : (spliceLe l o n v).length = l.length := by
  simp only [spliceLe, List.length_append, List.length_take, List.length_drop, length_leBytes]
  omega

/-- An entry is 8 words of 4 bytes, whatever the words are. -/
@[simp] theorem Core.length_csEntry (v : Core) (cs : Nat) : (v.csEntry cs).length = 32 := rfl

theorem length_overrideCount_post (l : List Byte) (v : Nat) (h : l.length = 32) : (overrideCount 3 l v).length = 32 :=
  (length_spliceLe l 4 4 v (by omega)).trans h

theorem length_overrideAddr_post (l : List Byte) (v : Nat) (h : l.length = 32) : (overrideAddr 3 l v).length = 32 :=
  (length_spliceLe l 8 4 v (by omega)).trans h

theorem Core.length_issued_post (v : Core) (ra rb : BitVec 5) (cs : BitVec 9) : (v.issued 3 ra rb cs).length = 32 := by
  have count : (if ra = 0 then v.csEntry cs.toNat else overrideCount 3 (v.csEntry cs.toNat) (v.reg ra).toNat).length = 32 := by
    split
    · exact v.length_csEntry _
    · exact length_overrideCount_post _ _ (v.length_csEntry _)
  unfold Core.issued
  dsimp only
  split
  · exact count
  · exact length_overrideAddr_post _ _ count

/-! What a message handed to an agent changes. -/

@[simp] theorem State.faultCore_core (s : State) (k unit kind action : Nat) (uk : UnitKind) (data : List Byte) (j : Nat) :
    (s.faultCore k unit kind action uk data).core j = s.core j := by
  unfold State.core; rw [State.faultCore_cores]

@[simp] theorem State.postTo_core (s : State) (k agent : Nat) (m : List Byte) (j : Nat) :
    (s.postTo k agent m).core j = s.core j := by
  unfold State.postTo
  split
  · split
    · rfl
    · rw [State.faultCore_core, State.countField_core]
  · split
    · rfl
    · rfl

theorem contains_signalKinds (n : Nat) : signalKinds.contains n = true ↔ n = 0x10 ∨ n = 0x11 ∨ n = 0x12 := by
  simp [signalKinds]

/-- R250: the signal box takes a message of a kind it knows, and another is discarded. -/
theorem State.postTo_signalBox_signal (s : State) (k : Nat) (m : List Byte) :
    (s.postTo k 0 m).mod.signal
      = s.mod.signal ++ (if natAt m 0 1 = 0x10 ∨ natAt m 0 1 = 0x11 ∨ natAt m 0 1 = 0x12 then [(k, m)] else []) := by
  simp only [State.postTo, if_true, contains_signalKinds]
  split
  · rfl
  · rw [State.faultCore, State.fault_mod_signal, State.countField_mod, List.append_nil]

theorem State.postTo_signalBox_sampler (s : State) (k : Nat) (m : List Byte) : (s.postTo k 0 m).mod.sampler = s.mod.sampler := by
  simp only [State.postTo, if_true]
  split
  · rfl
  · rw [State.faultCore, State.fault_mod_sampler, State.countField_mod]

theorem State.postTo_sampler_mod (s : State) (k : Nat) (m : List Byte) :
    (s.postTo k 1 m).mod = { s.mod with sampler := s.mod.sampler ++ [(k, m)] } := rfl

theorem State.postTo_belfry_mod (s : State) (k : Nat) (m : List Byte) : (s.postTo k 2 m).mod = s.mod := rfl

theorem State.postTo_belfry_inbox (s : State) (k : Nat) (m : List Byte) :
    ((s.postTo k 2 m).field (k / 68)).blfInbox = (s.field (k / 68)).blfInbox ++ [(k, m)] := by
  have handed : s.postTo k 2 m = s.updField (k / 68) (fun v => { v with blfInbox := v.blfInbox ++ [(k, m)] }) := rfl
  rw [handed, State.updField_field]

/-! What the frame of a core keeps. -/

theorem State.coreFrame_mod {s t : State} {k : Nat} (f : s.coreFrame t k) : t.mod = s.mod := by rw [f.rest]

theorem State.coreFrame_blfInbox {s t : State} {k : Nat} (f : s.coreFrame t k) (j : Nat) :
    (t.field j).blfInbox = (s.field j).blfInbox := by rw [f.fields]

/-! The outcomes of `post`. -/

/-- A core that is ready for an instruction which waits stays as it is. -/
theorem State.runCore_waits (s : State) (c : CoreRef) (o : CoreOp) (r : s.readyFor c o)
    (e : s.coreExec c.key ((s.core c.key).instrAt (s.core c.key).pc.toNat) o = .wait) : s.runCore c o = s := by
  obtain ⟨ready, decodes, noBreak, -⟩ := r
  have noHalt := State.noHalt noBreak
  simp only [State.runCore, ready, decodes, e, if_neg noHalt, Bool.not_true, Bool.false_eq_true, if_false, ne_eq, not_true_eq_false]

/-- A core that is ready for an instruction which retires with a state that differs from its own beyond the core. -/
theorem State.exec_retires (s : State) (c : CoreRef) (i : Instr) (o : CoreOp) (s1 : State) (pc : Nat) (recs : List (Nat × Word))
    (x : exec i s = .next (s.runCore c o)) (r : s.readyFor c o)
    (e : s.coreExec c.key ((s.core c.key).instrAt (s.core c.key).pc.toNat) o = .retire s1 pc recs) :
    ∃ t, exec i s = .next t ∧ (t.core c.key).afterRetire (s1.core c.key) pc ∧ s1.coreFrame t c.key := by
  obtain ⟨l, hl⟩ := State.runCore_retires s c o r s1 pc recs e
  obtain ⟨frame, after⟩ := State.coreRetire_frame s1 c.key ((s.core c.key).instrAt (s.core c.key).pc.toNat) pc l
    (s.core c.key).pc.toNat
  exact ⟨_, x.trans (congrArg _ hl), after, frame⟩

/-- A core whose signature has taken the instruction word `w` (R124). -/
def Core.signed (v : Core) (w : Word) : Core := { v with sig := crcRun v.sig (leBytes 4 w.toNat) }

section
variable (s : State) (k : Nat) (w : Word) (ra rb unit : BitVec 5) (cs : BitVec 9)

theorem State.coreIssue_poison (u : BitVec 2) (h : (s.core k).bad ra = true ∨ (s.core k).bad rb = true) :
    s.coreIssue k w u ra rb unit cs = .fault fcPoisonReg :=
  if_pos h

theorem State.coreIssue_post_badUnit (ha : (s.core k).bad ra = false) (hb : (s.core k).bad rb = false) (h : 2 < unit.toNat) :
    s.coreIssue k w 3 ra rb unit cs = .fault fcBadUnit := by
  simp [State.coreIssue, ha, hb, h]

theorem State.coreIssue_post_waits (ha : (s.core k).bad ra = false) (hb : (s.core k).bad rb = false) (h : unit.toNat ≤ 2)
    (hs : (s.core k).stores ≠ []) : s.coreIssue k w 3 ra rb unit cs = .wait := by
  simp [State.coreIssue, ha, hb, h, hs]

theorem State.coreIssue_post_retires (ha : (s.core k).bad ra = false) (hb : (s.core k).bad rb = false) (h : unit.toNat ≤ 2)
    (hs : (s.core k).stores = []) : s.coreIssue k w 3 ra rb unit cs =
      .retire ((s.updCore k (fun v => v.signed w)).postTo k unit.toNat ((s.core k).issued 3 ra rb cs)) (s.core k).nextPc
        [(0x02, w)] := by
  simp [State.coreIssue, ha, hb, h, hs, Core.signed]
end

/-- What holds of the cores after a `post` of core `k`: it goes on with its registers and scratchpad, and no other core
changes. -/
structure State.postedBy (s t : State) (k : Nat) : Prop where
  pc : (t.core k).pc.toNat = ((s.core k).pc.toNat + 4) % 65536
  regs : (t.core k).regs = (s.core k).regs
  sp : (t.core k).sp = (s.core k).sp
  others : ∀ j, j ≠ k → t.core j = s.core j

/-- R113: a `post` that neither faults nor waits hands its message on and changes, beyond what that changes, its own core, trace
and counters alone. -/
theorem State.post_hands (s : State) (c : CoreRef) (ra rb unit : BitVec 5) (cs : BitVec 9)
    (r : s.readyFor c (.issue 3 ra rb unit cs)) (ha : (s.core c.key).bad ra = false) (hb : (s.core c.key).bad rb = false)
    (h : unit.toNat ≤ 2) (hs : (s.core c.key).stores = []) :
    ∃ (s1 t : State), exec (.post c ra rb unit cs) s = .next t ∧ s.postedBy t c.key ∧ s1.mod = s.mod ∧ s1.fields = s.fields
      ∧ (s1.postTo c.key unit.toNat ((s.core c.key).issued 3 ra rb cs)).coreFrame t c.key := by
  obtain ⟨t, ht, after, frame⟩ := State.exec_retires s c (.post c ra rb unit cs) _ _ _ _ rfl r
    (s.coreIssue_post_retires c.key _ ra rb unit cs ha hb h hs)
  rw [State.postTo_core, State.updCore_core] at after
  obtain ⟨q, hq⟩ := after
  refine ⟨s.updCore c.key (fun v => v.signed ((s.core c.key).instrAt (s.core c.key).pc.toNat)), t, ht,
    ⟨?_, ?_, ?_, fun j hj => ?_⟩, rfl, rfl, frame⟩
  · rw [hq]
    exact BitVec.toNat_ofNat _ _
  · rw [hq]
    rfl
  · rw [hq]
    rfl
  · rw [frame.cores j hj, State.postTo_core, State.updCore_core_ne _ _ _ _ hj]

/-- Settles O12: the fault, the wait and the retirement of `post`, and what each agent takes. -/
theorem corePosts : Obligations.CorePosts := by
  intro s c ra rb unit cs v m known goesOn ready
  have goes {t : State} (posted : s.postedBy t c.key) : goesOn t := ⟨posted.pc, posted.regs, posted.sp, posted.others⟩
  refine ⟨fun hp => ?_, fun ha hb => ⟨fun hu => ?_, fun hu hs => ?_, fun hs => ⟨v.length_issued_post ra rb cs, ?_, ?_, ?_⟩⟩⟩
  · exact State.coreFaults_of s c _ _ _ rfl ready (s.coreIssue_poison c.key _ ra rb unit cs 3 hp)
  · exact State.coreFaults_of s c _ _ _ rfl ready (s.coreIssue_post_badUnit c.key _ ra rb unit cs ha hb hu)
  · exact congrArg _ (State.runCore_waits s c _ ready (s.coreIssue_post_waits c.key _ ra rb unit cs ha hb hu hs))
  · rintro rfl
    obtain ⟨s1, t, ht, posted, hmod, -, frame⟩ := s.post_hands c ra rb 0 cs ready ha hb (by decide) hs
    refine ⟨t, ht, goes posted, ?_, ?_⟩
    · rw [State.coreFrame_mod frame, ← hmod]
      exact s1.postTo_signalBox_signal c.key m
    · rw [State.coreFrame_mod frame, ← hmod]
      exact s1.postTo_signalBox_sampler c.key m
  · rintro rfl
    obtain ⟨s1, t, ht, posted, hmod, -, frame⟩ := s.post_hands c ra rb 1 cs ready ha hb (by decide) hs
    have tookIt : t.mod = { s.mod with sampler := s.mod.sampler ++ [(c.key, m)] } := by
      rw [State.coreFrame_mod frame, ← hmod]
      exact s1.postTo_sampler_mod c.key m
    exact ⟨t, ht, goes posted, by rw [tookIt], by rw [tookIt]⟩
  · rintro rfl
    obtain ⟨s1, t, ht, posted, hmod, hfields, frame⟩ := s.post_hands c ra rb 2 cs ready ha hb (by decide) hs
    refine ⟨t, ht, goes posted, ?_, ?_⟩
    · have sameField : s1.field (c.key / 68) = s.field (c.key / 68) := by unfold State.field; rw [hfields]
      rw [State.coreFrame_blfInbox frame, ← sameField]
      exact s1.postTo_belfry_inbox c.key m
    · rw [State.coreFrame_mod frame]
      exact (s1.postTo_belfry_mod c.key m).trans hmod

end Sys2Proof.Machine
end

section
/-! What the rebuild of lost work leaves of the fields (R398): a field stays lost, and its belfry and sensors stand. -/

namespace Sys2Proof.Machine

/-! What stands of a field while its power, its sleep and its counters change. -/

/-- Whether a field is lost, its belfry with the messages to it, and its sensors. -/
def Field.standing (v : Field) : Bool × Belfry × List (Nat × List Byte) × Map Sensor := (v.lost, v.belfry, v.blfInbox, v.sensors)

/-- An operation changes no more of the fields than their power, sleep, role and accounts. -/
structure State.fieldsStand (s t : State) : Prop where
  standing : ∀ f, (t.field f).standing = (s.field f).standing

theorem State.fieldsStand.refl (s : State) : s.fieldsStand s := ⟨fun _ => rfl⟩

theorem State.fieldsStand.trans {s t u : State} (a : s.fieldsStand t) (b : t.fieldsStand u) : s.fieldsStand u :=
  ⟨fun f => (b.standing f).trans (a.standing f)⟩

theorem State.fieldsStand.of_fields {s t : State} (h : t.fields = s.fields) : s.fieldsStand t :=
  ⟨fun f => by unfold State.field; rw [h]⟩

theorem State.fieldsStand.lost {s t : State} (h : s.fieldsStand t) (f : Nat) : (t.field f).lost = (s.field f).lost :=
  congrArg Prod.fst (h.standing f)

theorem State.fieldsStand.belfry {s t : State} (h : s.fieldsStand t) (f : Nat) : (t.field f).belfry = (s.field f).belfry :=
  congrArg (fun x => x.2.1) (h.standing f)

theorem State.fieldsStand.blfInbox {s t : State} (h : s.fieldsStand t) (f : Nat) : (t.field f).blfInbox = (s.field f).blfInbox :=
  congrArg (fun x => x.2.2.1) (h.standing f)

theorem State.fieldsStand.sensors {s t : State} (h : s.fieldsStand t) (f : Nat) : (t.field f).sensors = (s.field f).sensors :=
  congrArg (fun x => x.2.2.2) (h.standing f)

theorem State.updField_fieldsStand (s : State) (f : Nat) (g : Field → Field) (h : ∀ v, (g v).standing = v.standing) :
    s.fieldsStand (s.updField f g) := by
  constructor
  intro j
  by_cases e : j = f
  · rw [e, State.updField_field, h]
  · rw [State.updField_field_ne _ _ _ _ e]

theorem State.updPower_fieldsStand (s : State) (f : Nat) (g : FieldPower → FieldPower) : s.fieldsStand (s.updPower f g) :=
  s.updField_fieldsStand f _ (fun _ => rfl)

theorem State.countField_fieldsStand (s : State) (f k n : Nat) : s.fieldsStand (s.countField f k n) := by
  unfold State.countField
  split
  · exact s.updField_fieldsStand f _ (fun _ => rfl)
  · exact .refl s

theorem State.fieldsStand.foldl {β : Type} {s t : State} (a : s.fieldsStand t) (g : State → β → State)
    (h : ∀ (u : State) (x : β), u.fieldsStand (g u x)) (l : List β) : s.fieldsStand (l.foldl g t) :=
  List.foldlRecOn l g (motive := s.fieldsStand) a (fun u hu x _ => hu.trans (h u x))

/-- What no turn of a loop changes, the loop does not change. -/
theorem State.foldl_proj {α β : Type} (p : State → α) (g : State → β → State) (h : ∀ (t : State) (x : β), p (g t x) = p t)
    (l : List β) (s : State) : p (l.foldl g s) = p s :=
  List.foldlRecOn l g (motive := fun t => p t = p s) rfl (fun t ht x _ => (h t x).trans ht)

/-! Reads of the stacks (R268 to R272) write no field. -/

theorem State.allocGranule_fields (s : State) (k g : Nat) : (s.allocGranule k g).fields = s.fields := by
  unfold State.allocGranule
  dsimp only
  split
  · rfl
  · split <;> simp

theorem State.blameOverrun_fields (s : State) : s.blameOverrun.fields = s.fields := by
  unfold State.blameOverrun
  split <;> rfl

theorem State.strongDecode_fields (s : State) (k : Nat) : (s.strongDecode k).fields = s.fields := by
  unfold State.strongDecode
  dsimp only
  split <;> simp [State.blameOverrun_fields]

theorem State.cbChecked_fields (s : State) (k cb : Nat) (r : CbRead) : (s.cbChecked k cb r).fields = s.fields := by
  unfold State.cbChecked
  simp only [apply_ite State.fields, State.updStack_fields, State.allocGranule_fields, State.event_fields, State.countStack_fields,
    State.strongDecode_fields, ite_self]

theorem State.cbTouched_fields (s : State) (k cb p : Nat) (r : CbRead) : (s.cbTouched k cb p r).fields = s.fields := by
  unfold State.cbTouched
  rw [State.cbChecked_fields]
  split <;> simp

theorem State.regionTouched_fields (s : State) (r : Region) (o n p : Nat) : (s.regionTouched r o n p).fields = s.fields := by
  refine State.foldl_proj State.fields _ (fun t c => ?_) _ _
  split
  · exact State.cbTouched_fields ..
  · rfl

theorem State.layerTouched_fields (s : State) (ed layer : Nat) (only : Nat × Nat → Bool) :
    (s.layerTouched ed layer only).fields = s.fields := by
  refine State.foldl_proj State.fields _ (fun t r => ?_) _ _
  split
  · split
    · exact State.regionTouched_fields ..
    · rfl
  · rfl

theorem State.goldenTouched_fields (s : State) (ed target row : Nat) : (s.goldenTouched ed target row).fields = s.fields := by
  unfold State.goldenTouched
  dsimp only
  split
  · split
    · exact State.layerTouched_fields ..
    · rfl
  · split
    · split
      · exact State.regionTouched_fields ..
      · rfl
    · rfl

/-! Rows that move to another core (R396, R398). -/

theorem State.askShards_fields (s : State) (part unit : Nat) (wanted : List Nat) : (s.askShards part unit wanted).1.fields = s.fields := by
  unfold State.askShards
  split <;> simp

theorem State.askRows_fields (s : State) (q : RowAsk) : (s.askRows q).fields = s.fields := State.askShards_fields ..

theorem State.wearAsk_fields (s : State) (k e a job : Nat) (second : Bool) : (s.wearAsk k e a job second).fields = s.fields := by
  unfold State.wearAsk
  split
  · rfl
  · split <;> rfl

theorem State.charge_fields (s : State) (k e : Nat) : (s.charge k e).fields = s.fields := by
  unfold State.charge
  split
  · split
    · rfl
    · dsimp only
      split
      · rfl
      · exact State.foldl_proj State.fields _ (fun t a => t.wearAsk_fields ..) _ _
  · rfl

theorem State.setSleep_fieldsStand (s : State) (f : Nat) (z : Sleep) : s.fieldsStand (s.setSleep f z) := by
  unfold State.setSleep
  refine State.fieldsStand.trans ?_ (State.updField_fieldsStand _ f _ (fun _ => rfl))
  exact s.countField_fieldsStand ..

theorem State.beginWake_fieldsStand (s : State) (f : Nat) : s.fieldsStand (s.beginWake f) := by
  unfold State.beginWake
  dsimp only
  generalize hu : (if (s.field f).scrubWake = true then s.updField f _ else s) = u
  have begins : s.fieldsStand u := by
    rw [← hu]
    split
    · exact s.updField_fieldsStand f _ (fun _ => rfl)
    · exact .refl s
  refine begins.trans ?_
  split
  · exact .refl u
  split
  · exact u.updField_fieldsStand f _ (fun _ => rfl)
  split
  · exact .refl u
  split
  · exact u.setSleep_fieldsStand f .lit
  · refine State.fieldsStand.trans ?_ (State.updPower_fieldsStand ..)
    exact u.updField_fieldsStand f _ (fun _ => rfl)

theorem State.agentRow_fieldsStand (s : State) (k e : Nat) : s.fieldsStand (s.agentRow k e) := by
  unfold State.agentRow
  dsimp only
  split
  · exact .refl s
  split
  · exact .refl s
  split
  · exact .of_fields (s.wearAsk_fields ..)
  split
  · exact .of_fields (s.wearAsk_fields ..)
  split
  · exact s.beginWake_fieldsStand _
  split
  · exact .refl s
  · refine State.fieldsStand.trans ?_ (State.updPower_fieldsStand ..)
    exact .of_fields rfl

theorem State.agentIssue_fieldsStand (s : State) (k e : Nat) : s.fieldsStand (s.agentIssue k e) := by
  unfold State.agentIssue
  split
  · exact .refl s
  · exact (State.fieldsStand.of_fields (s.charge_fields k e)).trans (State.agentRow_fieldsStand ..)

theorem State.queueRows_fieldsStand (s : State) (k e job : Nat) (rows : List (Nat × List Byte)) :
    s.fieldsStand (s.queueRows k e job rows) := by
  refine State.fieldsStand.trans ?_ (State.agentIssue_fieldsStand ..)
  exact .of_fields rfl

theorem State.queueSourced_fieldsStand (s : State) (k e job ed target : Nat) (rows : List Nat) :
    s.fieldsStand (s.queueSourced k e job ed target rows) := by
  refine State.fieldsStand.trans (.of_fields ?_) (State.queueRows_fieldsStand ..)
  simp only [apply_ite State.fields, State.askRows_fields, State.event_fields, ite_self]
  exact State.foldl_proj State.fields _ (fun t r => t.goldenTouched_fields ..) _ _

theorem State.queueMoved_fieldsStand (s : State) (unit k d : Nat) : s.fieldsStand (s.queueMoved unit k d) := by
  unfold State.queueMoved
  dsimp only
  split
  · exact .refl s
  · refine .foldl ?_ _ (fun t l => t.queueSourced_fieldsStand ..) _
    exact .of_fields rfl

theorem State.newHold_fields (s : State) (ed : Nat) (r : Rolling) (us : Nat) : (s.newHold ed r us).fields = s.fields := by
  unfold State.newHold State.weightsReport
  split <;> simp

theorem State.rehold_fields (s : State) (ed : Nat) (moved : Bool) : (s.rehold ed moved).fields = s.fields := by
  unfold State.rehold
  split
  · dsimp only
    split
    · exact State.newHold_fields ..
    · split
      · exact State.newHold_fields ..
      · rfl
  · rfl

theorem State.reholdOn_fields (s : State) (fs : List Nat) (moved : Bool) : (s.reholdOn fs moved).fields = s.fields := by
  refine State.foldl_proj State.fields _ (fun t e => ?_) _ _
  split
  · exact State.rehold_fields ..
  · rfl

theorem State.moveCore_fieldsStand (s : State) (unit k d : Nat) : s.fieldsStand (s.moveCore unit k d) := by
  refine State.fieldsStand.trans ?_ (.of_fields (State.reholdOn_fields ..))
  refine State.fieldsStand.trans (.of_fields ?_) (State.queueMoved_fieldsStand ..)
  split <;> rfl

theorem State.buildMove_fields (s : State) (ed place k : Nat) (choice : Option Nat) :
    (s.buildMove ed place k choice).fields = s.fields := by
  unfold State.buildMove
  dsimp only
  split
  · rfl
  · split
    · rfl
    · exact State.event_fields ..

theorem State.rebuildCore_fieldsStand (s : State) (k d : Nat) : s.fieldsStand (s.rebuildCore k d) := by
  refine State.fieldsStand.trans ?_ (State.moveCore_fieldsStand ..)
  exact .of_fields rfl

/-! The records of the ledger (R178, R180). -/

theorem State.copyLost_fields (s : State) (copyB : Bool) : (s.copyLost copyB).fields = s.fields := by
  unfold State.copyLost
  dsimp only
  rw [State.event_fields]
  split <;> rfl

theorem State.journalWritten_fields (s : State) (kind : Nat) (r : Nat × List Byte) : (s.journalWritten kind r).fields = s.fields := by
  unfold State.journalWritten
  dsimp only
  split
  · exact State.foldl_proj State.fields _ (fun t c => t.copyLost_fields c) _ _
  · rfl

theorem State.fieldCommitted_fieldsStand (s : State) (f : Nat) : s.fieldsStand (s.fieldCommitted f) := by
  refine (State.fieldsStand.of_fields (s.journalWritten_fields jkField (f, (s.field f).record))).trans ?_
  exact State.updField_fieldsStand _ _ _ (fun _ => rfl)

/-! The loss of a field (R398, R399). -/

theorem State.attestsEnd_fields (s : State) : s.attestsEnd.fields = s.fields :=
  State.foldl_proj State.fields _ (fun t _ => t.finish_fields ..) _ _

theorem State.faultField_fields (s : State) (f kind action : Nat) (unitKind : UnitKind) (data : List Byte) :
    (s.faultField f kind action unitKind data).fields = s.fields := State.fault_fields ..

theorem State.gateLost_fields (s : State) (data : List Byte) : (s.gateLost data).fields = s.fields := by
  have ends := (State.attestsEnd_fields _).trans (s.faultField_fields gateField 0x10 0 .field data)
  unfold State.gateLost
  dsimp only
  split
  · exact (State.report_fields ..).trans ends
  · exact ends

theorem State.askRelocation_fields (s : State) (f : Nat) : (s.askRelocation f).fields = s.fields := by
  refine State.foldl_proj State.fields _ (fun t p => ?_) _ _
  split
  · rfl
  · split <;> simp

/-- R368, R398: a reserve field enters service, its record is committed, and the field it stands in for has no grant left. -/
theorem State.serves_fieldsStand (s : State) (g f : Nat) (p : FieldPower → FieldPower) :
    s.fieldsStand (((s.updField g (fun v => { v with role := .service })).fieldCommitted g).updPower f p) := by
  refine State.fieldsStand.trans ?_ (State.updPower_fieldsStand ..)
  refine State.fieldsStand.trans ?_ (State.fieldCommitted_fieldsStand ..)
  exact s.updField_fieldsStand g _ (fun _ => rfl)

/-- R398: a field that is to be lost is lost, whatever becomes of its work. -/
theorem State.loseField_lost (s : State) (f : Nat) (data : List Byte) (h : fieldExists f = true) :
    ((s.loseField f data).field f).lost = true := by
  unfold State.loseField
  split
  case isTrue c => simpa [h] using c
  case isFalse c =>
    dsimp only
    generalize hu : s.updField f _ = u
    have lost : (u.field f).lost = true := by rw [← hu, State.updField_field]
    have keeps {t : State} (k : u.fieldsStand t) : (t.field f).lost = true := (k.lost f).trans lost
    apply keeps
    split
    · exact .of_fields (u.gateLost_fields data)
    split
    · exact .refl u
    split
    · exact .of_fields ((State.askRelocation_fields ..).trans (State.event_fields ..))
    next g _ =>
      refine .foldl (.foldl (.foldl ?reserve _ (fun t x => ?moved) _) _ (fun t k => ?built) _) _
        (fun t k => t.rebuildCore_fieldsStand ..) _
      case reserve =>
        exact (u.serves_fieldsStand g f (fun p => { p with grant := 0, allowNext := 0, drops := [] })).trans (.of_fields rfl)
      case moved =>
        split
        · exact State.moveCore_fieldsStand ..
        · exact .refl t
      case built =>
        split
        · exact .of_fields (State.buildMove_fields ..)
        · exact .refl t

end Sys2Proof.Machine
end

section
/-! The belfry: what a conversion gives (R237), its rounds (R235, R241), and its conversions outside the round (R236 to R239). -/

namespace Sys2Proof.Machine

/-! The result of a conversion (R237). -/

theorem blfResult_toNat (sum : Nat) {shift : Nat} (seq : BitVec 7) (h : shift ≤ 8) :
    (blfResult sum shift seq).result.toNat = Nat.min 0xFFFF (sum >>> shift) := by
  have fits : Nat.min 0xFFFF (sum >>> shift) < 2 ^ 16 := Nat.lt_succ_of_le (Nat.min_le_left ..)
  have v : sum / 2 ^ Nat.min shift 8 = sum >>> shift := by
    rw [Nat.shiftRight_eq_div_pow, show Nat.min shift 8 = shift from Nat.min_eq_left h]
  unfold blfResult
  dsimp only
  rw [v, BitVec.toNat_ofNat, Nat.mod_eq_of_lt fits]

theorem blfResult_sat (sum : Nat) {shift : Nat} (seq : BitVec 7) (h : shift ≤ 8) :
    (blfResult sum shift seq).sat = decide (0xFFFF < sum >>> shift) := by
  unfold blfResult
  rw [Nat.shiftRight_eq_div_pow, show Nat.min shift 8 = shift from Nat.min_eq_left h]

/-- R237: the mean of 2^n samples of 12-bit codes is such a code. -/
theorem shiftRight_le_code {sum shift : Nat} (h : sum ≤ 2 ^ shift * 4095) : sum >>> shift ≤ 4095 := by
  rw [Nat.shiftRight_eq_div_pow]
  exact Nat.div_le_of_le_mul h

/-- R237: with a shift of n the result of 2^n samples is their mean, a 12-bit code. -/
theorem blfResult_mean (sum : Nat) {shift : Nat} (seq : BitVec 7) (h : shift ≤ 8) (codes : sum ≤ 2 ^ shift * 4095) :
    (blfResult sum shift seq).result.toNat = sum / 2 ^ shift ∧ (blfResult sum shift seq).result.toNat ≤ 4095
      ∧ (blfResult sum shift seq).sat = false := by
  have code := shiftRight_le_code codes
  have mean : (blfResult sum shift seq).result.toNat = sum >>> shift := by
    rw [blfResult_toNat sum seq h]
    exact Nat.min_eq_right (by omega)
  refine ⟨mean.trans (Nat.shiftRight_eq_div_pow ..), Nat.le_trans (Nat.le_of_eq mean) code, ?_⟩
  rw [blfResult_sat sum seq h]
  exact decide_eq_false (by omega)

/-! What a wake and a decision about a field's limits leave alone. -/

theorem State.setSleep_cores (s : State) (f : Nat) (z : Sleep) : (s.setSleep f z).cores = s.cores := State.countField_cores ..

theorem State.setSleep_alaok (s : State) (f : Nat) (z : Sleep) : (s.setSleep f z).alaok = s.alaok := State.countField_alaok ..

theorem State.beginWake_cores (s : State) (f : Nat) : (s.beginWake f).cores = s.cores := by
  unfold State.beginWake
  simp only [apply_ite State.cores, State.updField_cores, State.updPower_cores, State.setSleep_cores, ite_self]

theorem State.beginWake_alaok (s : State) (f : Nat) : (s.beginWake f).alaok = s.alaok := by
  unfold State.beginWake
  simp only [apply_ite State.alaok, State.updField_alaok, State.updPower_alaok, State.setSleep_alaok, ite_self]

theorem State.decideField_fieldsStand (s : State) (f : Nat) : s.fieldsStand (s.decideField f) := by
  unfold State.decideField
  split
  · exact .refl s
  · exact .foldl (.refl s) _ (fun t x => t.updPower_fieldsStand ..) _

theorem State.decideField_cores (s : State) (f : Nat) : (s.decideField f).cores = s.cores := by
  unfold State.decideField
  split
  · rfl
  · exact State.foldl_proj State.cores _ (fun t _ => t.updPower_cores ..) _ _

theorem State.raiseT_fieldsStand (s : State) (f n : Nat) : s.fieldsStand (s.raiseT f n) := by
  unfold State.raiseT
  refine State.fieldsStand.trans ?_ (State.updPower_fieldsStand ..)
  refine State.fieldsStand.trans ?_ (State.decideField_fieldsStand ..)
  exact s.updPower_fieldsStand ..

theorem State.raiseT_cores (s : State) (f n : Nat) : (s.raiseT f n).cores = s.cores := State.decideField_cores ..

theorem State.switchOff_fieldsStand (s : State) (f : Nat) : s.fieldsStand (s.switchOff f) := by
  refine State.fieldsStand.trans ?_ (.of_fields (State.foldl_proj State.fields _ (fun t k => t.updStack_fields k _) _ _))
  refine State.fieldsStand.trans ?_ (State.updPower_fieldsStand ..)
  exact s.updField_fieldsStand f _ (fun _ => rfl)

theorem State.switchOff_cores (s : State) (f : Nat) : (s.switchOff f).cores = s.cores :=
  State.foldl_proj State.cores _ (fun t k => t.updStack_cores k _) _ _

theorem State.attestDone_fields (s : State) : s.attestDone.fields = s.fields := by
  unfold State.attestDone
  split
  · rfl
  · exact State.finish_fields ..

theorem State.attestDone_cores (s : State) : s.attestDone.cores = s.cores := by
  unfold State.attestDone
  split
  · rfl
  · exact State.finish_cores ..

/-! What the signal box does with a round (R228, R241). -/

/-- R228: the state in which the signal box weighs a round: `THERMAL_WARN` is raised, the rate and the triggers' times are noted. -/
def State.roundNoted (s : State) (f : Nat) (rate : Int) (was : Nat) : State :=
  (if was < degCode 85 ∧ degCode 85 ≤ (s.field f).hottest then s.event evThermalWarn (f * 2 ^ 15) else s).updPower f (fun p => { p with
    rate := rate
    hotSince := if degCode 90 ≤ (s.field f).hottest then some (p.hotSince.getD s.stamp) else none
    lastTrigger := if 800 * (s.budget.rhoPlan : Int) < rate ∨ degCode 85 < (s.field f).hottest then s.stamp else p.lastTrigger })

theorem State.roundNoted_fieldsStand (s : State) (f : Nat) (rate : Int) (was : Nat) : s.fieldsStand (s.roundNoted f rate was) := by
  refine State.fieldsStand.trans (.of_fields ?_) (State.updPower_fieldsStand ..)
  split
  · exact State.event_fields ..
  · rfl

theorem State.roundNoted_cores (s : State) (f : Nat) (rate : Int) (was : Nat) : (s.roundNoted f rate was).cores = s.cores := by
  unfold State.roundNoted
  rw [State.updPower_cores]
  split
  · exact State.event_cores ..
  · rfl

/-- R241: a field left with fewer than five working sensors, and not isolated, is given up. -/
theorem State.roundActs_sensorsGone (s : State) (f : Nat) (rate : Int) (was : Nat) (few : (s.field f).working.length < 5)
    (cool : (s.field f).hottest < degCode 105) (slow : rate ≤ 320000) :
    s.roundActs f rate was = (s.roundNoted f rate was).sensorsGone f := by
  have stays : ¬ ((320000 : Int) < rate ∨ degCode 105 ≤ (s.field f).hottest) := by omega
  exact (if_neg stays).trans (if_pos few)

/-- With five working sensors the signal box changes nothing but the field's power, or switches it off. -/
theorem State.roundActs_stands (s : State) (f : Nat) (rate : Int) (was : Nat) (enough : 5 ≤ (s.field f).working.length) :
    s.fieldsStand (s.roundActs f rate was) ∧ (s.roundActs f rate was).cores = s.cores := by
  have noted := s.roundNoted_fieldsStand f rate was
  have notedCores := s.roundNoted_cores f rate was
  have after {t : State} (stand : (s.roundNoted f rate was).fieldsStand t) (cores : t.cores = (s.roundNoted f rate was).cores) :
      s.fieldsStand t ∧ t.cores = s.cores := ⟨noted.trans stand, cores.trans notedCores⟩
  unfold State.roundActs
  dsimp only
  rw [← State.roundNoted]
  split
  · exact after (State.switchOff_fieldsStand ..) (State.switchOff_cores ..)
  rw [if_neg (Nat.not_lt.mpr enough)]
  generalize hu : (if 1600 * (s.budget.rhoPlan : Int) < rate then _ else _) = u
  obtain ⟨joined, joinedCores⟩ : s.fieldsStand u ∧ u.cores = s.cores := by
    rw [← hu]
    split
    · exact after (State.updPower_fieldsStand ..) rfl
    · exact after (.refl _) rfl
  split
  · exact ⟨joined.trans (u.raiseT_fieldsStand ..), (u.raiseT_cores ..).trans joinedCores⟩
  split
  · exact ⟨joined.trans (u.decideField_fieldsStand f), (u.decideField_cores f).trans joinedCores⟩
  · exact ⟨joined, joinedCores⟩

/-- R398: the signal box gives up a field for its sensors. -/
theorem State.sensorsGone_lost (s : State) (f : Nat) (h : fieldExists f = true) : ((s.sensorsGone f).field f).lost = true := by
  unfold State.sensorsGone
  split
  case isTrue gone => exact ((s.updPower_fieldsStand f _).lost f).trans gone
  case isFalse => exact State.loseField_lost _ _ _ h

/-! A round (R235, R241). -/

/-- R241: the sensors that a round finds broken are reported and put to the ledger. -/
def State.sensorsBroken (s : State) (f : Nat) (l : List Nat) : State :=
  l.foldl (fun (t : State) i =>
    (t.event evSensorBroken (f * 2 ^ 15) none i).journal { kind := jkField, key := f, what := jwSensor, val := i, vals := [1] }) s

theorem State.sensorsBroken_fields (s : State) (f : Nat) (l : List Nat) : (s.sensorsBroken f l).fields = s.fields := by
  refine State.foldl_proj State.fields _ (fun t i => ?_) l s
  exact t.event_fields ..

theorem State.sensorsBroken_cores (s : State) (f : Nat) (l : List Nat) : (s.sensorsBroken f l).cores = s.cores := by
  refine State.foldl_proj State.cores _ (fun t i => ?_) l s
  exact t.event_cores ..

theorem State.sensorsBroken_mod (s : State) (f : Nat) (l : List Nat) : (s.sensorsBroken f l).mod = s.mod := by
  refine State.foldl_proj State.mod _ (fun t i => ?_) l s
  exact t.event_mod ..

/-- R235: the state once a round's results are stamped and its broken sensors marked. -/
def State.roundRead (s : State) (f : Nat) (sums : List Nat) : State :=
  let v1 := (s.field f).afterRound sums s.stamp
  let s1 := s.setField f v1
  s1.sensorsBroken f ((List.range 8).filter (fun i =>
    ((s1.field f).sensors.find i {}).broken && !((s.field f).sensors.find i {}).broken))

theorem State.roundRead_field (s : State) (f : Nat) (sums : List Nat) :
    (s.roundRead f sums).field f = (s.field f).afterRound sums s.stamp := by
  have e : (s.roundRead f sums).fields = (s.updField f (fun v => v.afterRound sums s.stamp)).fields := State.sensorsBroken_fields ..
  unfold State.field
  rw [e]
  exact s.updField_field f _

theorem State.roundRead_cores (s : State) (f : Nat) (sums : List Nat) : (s.roundRead f sums).cores = s.cores :=
  State.sensorsBroken_cores ..

theorem State.roundRead_serving (s : State) (f : Nat) (sums : List Nat) : (s.roundRead f sums).serving = s.serving := by
  have e : (s.roundRead f sums).mod = s.mod := State.sensorsBroken_mod ..
  unfold State.serving
  rw [e]

/-- R235, R228: a round once the signal box has weighed it, in service and with the converter on. -/
def State.roundWeighed (s : State) (f : Nat) (sums : List Nat) : State :=
  let v := s.field f
  let s2 := s.roundRead f sums
  if s2.serving && v.power.converterOn then
    s2.roundActs f (v.roundRate (v.afterRound sums s.stamp) sums s.now) v.hottest
  else s2

/-- R235, R241, R244: a round of a field's belfry is due, and the field is neither cold nor isolated. -/
structure State.roundDue (s : State) (f : Nat) (sums : List Nat) : Prop where
  powered : s.powered = true
  present : fieldExists f = true
  brought : (s.field f).brought = true
  due : (s.field f).belfry.stamp = 0 ∨ 128000 ≤ s.since (s.field f).belfry.stamp
  length : sums.length = 16
  codes : ∀ x ∈ sums, x ≤ 16 * 4095
  awake : (s.field f).sleep ≠ .cold ∨ (s.field f).wakeAt ≠ none
  notOff : (s.field f).power.iso ≠ .off
  notDeclared : (s.field f).power.iso ≠ .declared

theorem sumsOk_iff (n : Nat) (sums : List Nat) : sumsOk n sums = true ↔ ∀ x ∈ sums, x ≤ 2 ^ n * 4095 := by
  simp [sumsOk]

/-- R235: a round that is due runs; with the gate field's an attestation in progress is answered. -/
theorem State.exec_belfryRound {s : State} {f : Nat} {sums : List Nat} (d : s.roundDue f sums) :
    exec (.belfryRound f sums) s =
      .next (if f = gateField then (s.roundWeighed f sums).attestDone else s.roundWeighed f sums) := by
  have codes : sumsOk 4 sums = true := (sumsOk_iff 4 sums).mpr d.codes
  have wakes : ((s.field f).sleep = .cold && (s.field f).wakeAt.isNone) = false := by
    rcases d.awake with h | h
    · rw [decide_eq_false h, Bool.false_and]
    · rw [Option.isNone_eq_false_iff.mpr (Option.isSome_iff_ne_none.mpr h), Bool.and_false]
  have due : (decide ((s.field f).belfry.stamp = 0) || decide (128000 ≤ s.since (s.field f).belfry.stamp)) = true := by
    simpa only [Bool.or_eq_true, decide_eq_true_eq] using d.due
  have runs : ¬ ((!(s.powered && fieldExists f && (s.field f).brought
      && (decide ((s.field f).belfry.stamp = 0) || decide (128000 ≤ s.since (s.field f).belfry.stamp))
      && decide (sums.length = 16) && sumsOk 4 sums)
      || ((s.field f).sleep = .cold && (s.field f).wakeAt.isNone)
      || (s.field f).power.iso = .off || (s.field f).power.iso = .declared) = true) := by
    simp only [d.powered, d.present, d.brought, due, d.length, codes, wakes, d.notOff, d.notDeclared]
    decide
  exact congrArg Host.Outcome.next (if_neg runs)

/-- What holds of the fields and cores once the round is weighed holds once it has ended. -/
theorem State.gives_belfryRound {s : State} {f : Nat} {sums : List Nat} (d : s.roundDue f sums) {p : State → Prop}
    (h : ∀ t : State, t.fields = (s.roundWeighed f sums).fields → t.cores = (s.roundWeighed f sums).cores → p t) :
    s.gives (.belfryRound f sums) p := by
  refine ⟨_, State.exec_belfryRound d, ?_⟩
  split
  · exact h _ (State.attestDone_fields _) (State.attestDone_cores _)
  · exact h _ rfl rfl

/-- R235: out of service, or with five working sensors, a round leaves its results and the sensors as it read them. -/
theorem State.roundWeighed_stands (s : State) (f : Nat) (sums : List Nat)
    (h : 5 ≤ ((s.field f).afterRound sums s.stamp).working.length ∨ s.serving = false) :
    (s.roundRead f sums).fieldsStand (s.roundWeighed f sums) ∧ (s.roundWeighed f sums).cores = (s.roundRead f sums).cores := by
  unfold State.roundWeighed
  dsimp only
  split
  case isFalse => exact ⟨.refl _, rfl⟩
  case isTrue acts =>
    rw [Bool.and_eq_true, State.roundRead_serving] at acts
    have enough := h.resolve_right (fun out => Bool.noConfusion (out.symm.trans acts.1))
    exact State.roundActs_stands _ _ _ _ (by rwa [State.roundRead_field])

theorem State.gives_belfryRound_stands {s : State} {f : Nat} {sums : List Nat} (d : s.roundDue f sums)
    (h : 5 ≤ ((s.field f).afterRound sums s.stamp).working.length ∨ s.serving = false) :
    s.gives (.belfryRound f sums) (fun t => (t.field f).belfry = ((s.field f).afterRound sums s.stamp).belfry
      ∧ (t.field f).sensors = ((s.field f).afterRound sums s.stamp).sensors ∧ t.cores = s.cores) := by
  refine State.gives_belfryRound d (fun t fields cores => ?_)
  obtain ⟨weighed, weighedCores⟩ := s.roundWeighed_stands f sums h
  have stand := weighed.trans (.of_fields fields)
  refine ⟨?_, ?_, cores.trans (weighedCores.trans (s.roundRead_cores f sums))⟩
  · rw [stand.belfry, State.roundRead_field]
  · rw [stand.sensors, State.roundRead_field]

/-- R241, R398: in service, a round that leaves fewer than five working sensors loses the field, unless it is isolated. -/
theorem State.roundWeighed_lost (s : State) (f : Nat) (sums : List Nat) (e : fieldExists f = true)
    (few : ((s.field f).afterRound sums s.stamp).working.length < 5) (serves : s.serving = true)
    (on : (s.field f).power.converterOn = true) (cool : ((s.field f).afterRound sums s.stamp).hottest < degCode 105)
    (slow : (s.field f).roundRate ((s.field f).afterRound sums s.stamp) sums s.now ≤ 320000) :
    ((s.roundWeighed f sums).field f).lost = true := by
  rw [← State.roundRead_field] at few cool
  have acts : ((s.roundRead f sums).serving && (s.field f).power.converterOn) = true := by
    rw [State.roundRead_serving, serves, on]; rfl
  unfold State.roundWeighed
  dsimp only
  rw [if_pos acts, State.roundActs_sensorsGone _ _ _ _ few cool slow]
  exact State.sensorsGone_lost _ _ e

/-! The queue of conversions (R236, R238). -/

theorem State.queueConv_cores (s : State) (f : Nat) (c : SwConv) : (s.queueConv f c).cores = s.cores := by
  unfold State.queueConv
  split
  · rfl
  · exact State.countField_cores ..

theorem State.queueConv_alaok (s : State) (f : Nat) (c : SwConv) : (s.queueConv f c).alaok = s.alaok := by
  unfold State.queueConv
  split
  · rfl
  · exact State.countField_alaok ..

theorem State.queueConv_blfInbox (s : State) (f : Nat) (c : SwConv) :
    ((s.queueConv f c).field f).blfInbox = (s.field f).blfInbox := by
  unfold State.queueConv
  split
  · rw [State.updField_field]
  · exact (s.countField_fieldsStand ..).blfInbox f

theorem State.queueConv_belfry (s : State) (f : Nat) (c : SwConv) (h : (s.field f).belfry.swQueue.length < 8) :
    ((s.queueConv f c).field f).belfry =
      { (s.field f).belfry with swQueue := (s.field f).belfry.swQueue ++ [c] } := by
  unfold State.queueConv
  rw [if_pos h, State.updField_field]

/-- R238: a ninth conversion is discarded. -/
theorem State.queueConv_belfry_full (s : State) (f : Nat) (c : SwConv) (h : 8 ≤ (s.field f).belfry.swQueue.length) :
    ((s.queueConv f c).field f).belfry = (s.field f).belfry := by
  unfold State.queueConv
  rw [if_neg (Nat.not_lt.mpr h)]
  exact (s.countField_fieldsStand ..).belfry f

/-! A write of `blf_sw` (R236). -/

/-- R236: `blf_sw` is written, and with `start` set a conversion is queued. -/
def State.swWritten (s : State) (f : Nat) (w : Word) : State :=
  let s1 := s.updField f (fun v => { v with belfry := { v.belfry with sw := w &&& 0x00000FFF } })
  if w.getLsbD 12 then s1.queueConv f (swConv w) else s1

theorem State.swWritten_cores (s : State) (f : Nat) (w : Word) : (s.swWritten f w).cores = s.cores := by
  unfold State.swWritten
  dsimp only
  split
  · exact State.queueConv_cores ..
  · rfl

theorem State.swWritten_alaok (s : State) (f : Nat) (w : Word) : (s.swWritten f w).alaok = s.alaok := by
  unfold State.swWritten
  dsimp only
  split
  · exact State.queueConv_alaok ..
  · rfl

theorem State.swWritten_belfry (s : State) (f : Nat) (w : Word) :
    ((s.swWritten f w).field f).belfry = { (s.field f).belfry with
      sw := w &&& 0x00000FFF
      swQueue := (s.field f).belfry.swQueue ++
        (if w.getLsbD 12 = true ∧ (s.field f).belfry.swQueue.length < 8 then [swConv w] else []) } := by
  unfold State.swWritten
  dsimp only
  generalize hu : s.updField f _ = u
  have written : (u.field f).belfry = { (s.field f).belfry with sw := w &&& 0x00000FFF } := by rw [← hu, State.updField_field]
  by_cases start : w.getLsbD 12 = true
  · rw [if_pos start]
    by_cases room : (s.field f).belfry.swQueue.length < 8
    · rw [u.queueConv_belfry f _ (by rwa [written]), written, if_pos ⟨start, room⟩]
    · rw [u.queueConv_belfry_full f _ (by rw [written]; exact Nat.not_lt.mp room), written, if_neg (fun c => room c.2),
        List.append_nil]
  · rw [if_neg start, written, if_neg (fun c => start c.1), List.append_nil]

theorem State.exec_blfSwStart {s : State} {h : Hdr} {f : Nat} (w : Word) (a : s.accepts h rowHlBelfryWrite true)
    (e : fieldExists f = true) :
    exec (.blfSwStart h f w) s = .next ((((s.taken h rowHlBelfryWrite).swWritten f w).beginWake f).ok h) := by
  refine congrArg Host.Outcome.next (State.command_run s h rowHlBelfryWrite true _ 0 0 _ a _ ?_)
  rw [e]
  rfl

theorem State.blfSwStart_replied {s : State} {h : Hdr} (f : Nat) (w : Word) (a : s.accepts h rowHlBelfryWrite true) :
    ((((s.taken h rowHlBelfryWrite).swWritten f w).beginWake f).ok h).replied s h rowHlBelfryWrite 0x00 := by
  refine State.ok_replied s _ h rowHlBelfryWrite true 0 0 stOk 0 [] a ?_ (by decide)
  unfold State.conn
  rw [State.beginWake_alaok, State.swWritten_alaok]

theorem State.gives_blfSwStart {s : State} {h : Hdr} {f : Nat} (w : Word) (a : s.accepts h rowHlBelfryWrite true)
    (e : fieldExists f = true) :
    let queue := (s.field f).belfry.swQueue
    s.gives (.blfSwStart h f w) (fun t => (t.field f).belfry.sw = w &&& 0x00000FFF ∧ t.replied s h rowHlBelfryWrite 0x00
      ∧ (t.field f).belfry.swQueue = queue ++ (if w.getLsbD 12 = true ∧ queue.length < 8 then [swConv w] else [])
      ∧ t.cores = s.cores) := by
  have wakes := ((s.taken h rowHlBelfryWrite).swWritten f w).beginWake_fieldsStand f
  have stand := wakes.trans (.of_fields (State.ok_fields _ h stOk 0 []))
  have belfry := (stand.belfry f).trans (State.swWritten_belfry ..)
  rw [(State.fieldsStand.of_fields (s.taken_fields h rowHlBelfryWrite)).belfry] at belfry
  refine ⟨_, State.exec_blfSwStart w a e, ?_, State.blfSwStart_replied f w a, ?_, ?_⟩
  · rw [belfry]
  · rw [belfry]
  · rw [State.ok_cores, State.beginWake_cores, State.swWritten_cores, State.taken_cores]

/-! A request of a core (R239). -/

/-- R239: the conversion that the message of core `k` asks for. -/
def SwConv.asked (k : Nat) (b : List Byte) : SwConv :=
  { channel := natAt b 1 1 % 16, avg := convAvg (natAt b 2 1), shift := Nat.min 8 (natAt b 3 1)
    core := some (k % coresPerField), addr := natAt b 4 4 }

/-- The oldest message to a field's belfry has left its inbox. -/
def State.inboxTaken (s : State) (f : Nat) (rest : List (Nat × List Byte)) : State :=
  s.updField f (fun v => { v with blfInbox := rest })

theorem State.exec_belfryConversionRequest {s : State} {f k : Nat} {b : List Byte} {rest : List (Nat × List Byte)}
    (h : (s.field f).blfInbox = (k, b) :: rest) :
    exec (.belfryConversionRequest f) s = .next (
      if natAt b 0 1 = 0x20 ∧ s.resultAddrOk k (natAt b 4 4) = true then (s.inboxTaken f rest).queueConv f (SwConv.asked k b)
      else (s.inboxTaken f rest).countField f fcBelfryDiscards 1) := by
  change execBelfryConversionRequest f s = _
  unfold execBelfryConversionRequest
  rw [h]
  rfl

/-- R238, R239: a good request is queued where there is room; any other is discarded. -/
theorem State.gives_belfryConversionRequest {s : State} {f k : Nat} {b : List Byte} {rest : List (Nat × List Byte)}
    (h : (s.field f).blfInbox = (k, b) :: rest) :
    let good := natAt b 0 1 = 0x20 ∧ s.resultAddrOk k (natAt b 4 4) = true
    let queue := (s.field f).belfry.swQueue
    s.gives (.belfryConversionRequest f) (fun t => (t.field f).blfInbox = rest
      ∧ (good → queue.length < 8 → (t.field f).belfry.swQueue = queue ++ [SwConv.asked k b])
      ∧ (¬ good ∨ 8 ≤ queue.length → (t.field f).belfry = (s.field f).belfry) ∧ t.cores = s.cores) := by
  have inbox : ((s.inboxTaken f rest).field f).blfInbox = rest := by rw [State.inboxTaken, State.updField_field]
  have belfry : ((s.inboxTaken f rest).field f).belfry = (s.field f).belfry := by rw [State.inboxTaken, State.updField_field]
  refine ⟨_, State.exec_belfryConversionRequest h, ?_⟩
  split
  case isTrue asks =>
    refine ⟨(State.queueConv_blfInbox ..).trans inbox, fun _ room => ?_, fun full => ?_, State.queueConv_cores ..⟩
    · rw [State.queueConv_belfry _ _ _ (by rwa [belfry]), belfry]
    · rw [State.queueConv_belfry_full _ _ _ (by rw [belfry]; exact full.resolve_left (fun no => no asks)), belfry]
  case isFalse bad =>
    have stand := (s.inboxTaken f rest).countField_fieldsStand f fcBelfryDiscards 1
    exact ⟨(stand.blfInbox f).trans inbox, fun asks => absurd asks bad, fun _ => (stand.belfry f).trans belfry,
      State.countField_cores ..⟩

/-! The end of a conversion (R238, R239). -/

theorem Scratch.putAll_append (key : Nat) (x y : List (Byte × Bool)) (a : Nat) (p : Scratch) :
    Scratch.putAll key a (x ++ y) p = Scratch.putAll key (a + x.length) y (Scratch.putAll key a x p) := by
  induction x generalizing a p with
  | nil => rfl
  | cons c x ih =>
    rw [List.cons_append, List.length_cons, Nat.add_comm x.length 1, ← Nat.add_assoc]
    exact ih ..

theorem State.spWrite_sp (s : State) (k a : Nat) (bytes : List (Byte × Bool)) :
    ((s.spWrite k a bytes).core k).sp = Scratch.putAll k a bytes (s.core k).sp := by
  have written : ((s.updSp k (Scratch.putAll k a bytes)).core k).sp = Scratch.putAll k a bytes (s.core k).sp := by
    unfold State.updSp
    rw [State.updCore_core]
  unfold State.spWrite
  dsimp only
  split
  · rw [← written]
    unfold State.core
    rw [State.event_cores, State.countField_cores]
  · exact written

theorem State.spWrite_fieldsStand (s : State) (k a : Nat) (bytes : List (Byte × Bool)) : s.fieldsStand (s.spWrite k a bytes) := by
  unfold State.spWrite
  dsimp only
  split
  · refine State.fieldsStand.trans ?_ (.of_fields (State.event_fields ..))
    refine State.fieldsStand.trans ?_ (State.countField_fieldsStand ..)
    exact .of_fields rfl
  · exact .of_fields rfl

/-- R239: a result word is written, bytes 0 to 2 first. -/
def State.wordWritten (s : State) (k a : Nat) (bytes : List (Byte × Bool)) : State :=
  (s.spWrite k a (bytes.take 3)).spWrite k (a + 3) (bytes.drop 3)

theorem State.wordWritten_fieldsStand (s : State) (k a : Nat) (bytes : List (Byte × Bool)) :
    s.fieldsStand (s.wordWritten k a bytes) :=
  (s.spWrite_fieldsStand k a (bytes.take 3)).trans (State.spWrite_fieldsStand ..)

theorem State.wordWritten_sp (s : State) (k a : Nat) (bytes : List (Byte × Bool)) (h : 3 ≤ bytes.length) :
    ((s.wordWritten k a bytes).core k).sp = Scratch.putAll k a bytes (s.core k).sp := by
  have whole := Scratch.putAll_append k (bytes.take 3) (bytes.drop 3) a (s.core k).sp
  rw [List.take_append_drop, List.length_take, Nat.min_eq_left h] at whole
  rw [State.wordWritten, State.spWrite_sp, State.spWrite_sp, whole]

/-- R238: the oldest queued conversion has left the queue. -/
def State.swTaken (s : State) (f : Nat) (qs : List SwConv) : State :=
  s.updField f (fun v => { v with belfry := { v.belfry with swQueue := qs, swSeq := (s.field f).belfry.swSeq + 1 } })

/-- R239: the bytes of a result word. -/
def BlfResult.bytes (r : BlfResult) : List (Byte × Bool) := (leBytes 4 r.word.toNat).map (fun x => (x, false))

theorem BlfResult.length_bytes (r : BlfResult) : r.bytes.length = 4 := by
  rw [BlfResult.bytes, List.length_map, length_leBytes]

section
variable {s : State} {f sum : Nat} {q : SwConv} {qs : List SwConv}
variable (queue : (s.field f).belfry.swQueue = q :: qs) (on : s.powered = true) (warm : (s.field f).sleep ≠ .cold)
  (codes : sum ≤ 2 ^ q.avg * 4095)

include on warm codes in
/-- R238: a conversion of 12-bit codes runs in a powered field that is not cold. -/
theorem State.conversion_runs : ¬ ((!s.powered || (s.field f).sleep = .cold || !sumsOk q.avg [sum]) = true) := by
  simp [on, warm, sumsOk_iff, codes]

include queue on warm codes

/-- R238: the result of a conversion that `blf_sw` queued goes to `blf_sw_res`. -/
theorem State.exec_softwareConversionDone_own (own : q.core = none) :
    exec (.softwareConversionDone f sum) s = .next ((s.swTaken f qs).updField f (fun v => { v with belfry := { v.belfry with
      swRes := blfResult sum q.shift ((s.field f).belfry.swSeq + 1) } })) := by
  change execSoftwareConversionDone f sum s = _
  unfold execSoftwareConversionDone
  dsimp only
  rw [queue]
  dsimp only
  rw [if_neg (State.conversion_runs on warm codes), own]
  rfl

/-- R239: the result of a conversion that a core asked for goes to its result word. -/
theorem State.exec_softwareConversionDone_core {n : Nat} (asked : q.core = some n) :
    exec (.softwareConversionDone f sum) s = .next
      ((s.swTaken f qs).wordWritten (coreKey f n) q.addr (blfResult sum q.shift ((s.field f).belfry.swSeq + 1)).bytes) := by
  change execSoftwareConversionDone f sum s = _
  unfold execSoftwareConversionDone
  dsimp only
  rw [queue]
  dsimp only
  rw [if_neg (State.conversion_runs on warm codes), asked]
  rfl

/-- R238, R239: the oldest conversion leaves the queue, and its result goes where it was asked for. -/
theorem State.gives_softwareConversionDone :
    let result := blfResult sum q.shift ((s.field f).belfry.swSeq + 1)
    s.gives (.softwareConversionDone f sum) (fun t =>
      (t.field f).belfry.swQueue = qs ∧ (t.field f).belfry.swSeq = (s.field f).belfry.swSeq + 1
      ∧ (q.core = none → (t.field f).belfry.swRes = result ∧ t.cores = s.cores)
      ∧ ∀ n, q.core = some n →
          (t.core (coreKey f n)).sp = Scratch.putAll (coreKey f n) q.addr result.bytes (s.core (coreKey f n)).sp) := by
  have taken : ((s.swTaken f qs).field f).belfry =
      { (s.field f).belfry with swQueue := qs, swSeq := (s.field f).belfry.swSeq + 1 } := by
    rw [State.swTaken, State.updField_field]
  cases own : q.core with
  | none =>
    refine ⟨_, State.exec_softwareConversionDone_own queue on warm codes own, ?_, ?_, fun _ => ⟨?_, rfl⟩, fun n hn => nomatch hn⟩
    · rw [State.updField_field, taken]
    · rw [State.updField_field, taken]
    · rw [State.updField_field]
  | some n =>
    have long : 3 ≤ (blfResult sum q.shift ((s.field f).belfry.swSeq + 1)).bytes.length := by
      rw [BlfResult.length_bytes]; decide
    refine ⟨_, State.exec_softwareConversionDone_core queue on warm codes own, ?_, ?_, (fun no => nomatch no), fun m hm => ?_⟩
    · rw [(State.wordWritten_fieldsStand ..).belfry, taken]
    · rw [(State.wordWritten_fieldsStand ..).belfry, taken]
    · obtain rfl := Option.some.inj hm
      exact State.wordWritten_sp _ _ _ _ long
end

/-- An urgent conversion of the hardware gives its channel's result (R238). -/
theorem State.exec_urgentConversion {s : State} {f channel avg sum : Nat} (shift : Nat) (on : s.powered = true)
    (ex : fieldExists f = true) (warm : (s.field f).sleep ≠ .cold) (ch : channel < 16) (av : avg ≤ 8)
    (code : sum ≤ 2 ^ avg * 4095) :
    exec (.urgentConversion f channel avg shift sum) s = .next (s.updField f (fun v => { v with belfry := { v.belfry with
      urgent := v.belfry.urgent.put channel (blfResult sum shift 0).result } })) := by
  refine congrArg Host.Outcome.next (if_pos ?_)
  simp [on, ex, warm, ch, av, code]

/-- Settles O27: the result of R237, and what each command of the belfry gives. -/
theorem belfryConverts : Obligations.BelfryConverts := by
  intro s f sums h w channel avg shift sum k b rest q qs v seq v1 asks conv
  refine ⟨fun hs => ?_, fun on ex brought due len codes awake notOff notDeclared => ?_, fun a ex => State.gives_blfSwStart w a ex,
    State.gives_belfryConversionRequest, State.gives_softwareConversionDone, State.exec_urgentConversion shift⟩
  · exact ⟨blfResult_toNat sum seq hs, blfResult_sat sum seq hs, rfl, rfl, blfResult_mean sum seq hs⟩
  have d : s.roundDue f sums := ⟨on, ex, brought, due, len, codes, awake, notOff, notDeclared⟩
  refine ⟨fun enough => ?_, fun few serves converts cool slow => ?_⟩
  · exact State.gives_belfryRound_stands d enough
  · exact State.gives_belfryRound d (fun t fields _ =>
      ((State.fieldsStand.of_fields fields).lost f).trans (s.roundWeighed_lost f sums ex few serves converts cool slow))

end Sys2Proof.Machine
end
